-- ==== Sys2Proof/Word.lean ====
section
/-! DEFINITION. The words of the machine and the finite maps its state is written with.

A register holds 32 bits (01 R33); an instruction word and a clause header hold 64 bits (00 R5, 01 R15).
A finite map is a list of (key, value) pairs with the keys rising; what an unlisted key means is said where
the map is declared. -/

namespace Sys2Proof

/-- A 32-bit register value. -/
abbrev W32 := BitVec 32

/-- A 64-bit value: a pair of registers, low half in the even register (01 R29). -/
abbrev W64 := BitVec 64

/-- One byte of memory. -/
abbrev Byte := BitVec 8

/-- A set of lanes of a wave, bit l for lane l (02 R78). -/
abbrev Mask := BitVec 32

/-- A finite map with Nat keys, written as a list whose keys rise. -/
abbrev SMap (α : Type) := List (Nat × α)

variable {α : Type}

/-- The value listed at a key. -/
def SMap.get? : SMap α → Nat → Option α
  | [], _ => none
  | (a, b) :: t, k => if k = a then some b else SMap.get? t k

/-- List a value at a key, replacing the one that was there. -/
def SMap.set : SMap α → Nat → α → SMap α
  | [], k, v => [(k, v)]
  | (a, b) :: t, k, v =>
    if k < a then (k, v) :: (a, b) :: t
    else if k = a then (k, v) :: t
    else (a, b) :: SMap.set t k v

/-- List nothing at a key. -/
def SMap.del : SMap α → Nat → SMap α
  | [], _ => []
  | (a, b) :: t, k => if k = a then SMap.del t k else (a, b) :: SMap.del t k

/-- The keys rise strictly: the canonical form of a map. -/
def SMap.wf : SMap α → Bool
  | [] => true
  | [_] => true
  | (a, _) :: (b, y) :: t => decide (a < b) && SMap.wf ((b, y) :: t)

/-- The value listed at a key, or `d` where none is. -/
def SMap.getD (m : SMap α) (k : Nat) (d : α) : α := (SMap.get? m k).getD d

/-- Change the value listed at a key, where one is. -/
def SMap.modify : SMap α → Nat → (α → α) → SMap α
  | [], _, _ => []
  | (a, b) :: t, k, f => if k = a then (a, f b) :: t else (a, b) :: SMap.modify t k f

end Sys2Proof
end

