-- ==== Sys2Proof/Machine/Bits.lean ====
section
/-! DEFINITION. Bit fields, lanes, bytes and the integer helpers of 01 R41 and 07 R175, on naturals and bit vectors. -/

namespace Sys2Proof.Machine

/-- Bits [lo+n-1 : lo] of a natural number. -/
def fld (w lo n : Nat) : Nat := w / 2 ^ lo % 2 ^ n

/-- Bit `i` of a natural number. -/
def bit (w i : Nat) : Bool := fld w i 1 == 1

/-- The low `n` bits of `x` read as two's complement. -/
def sx (x n : Nat) : Int := if fld x (n - 1) 1 = 1 then (fld x 0 n : Int) - (2 : Int) ^ n else (fld x 0 n : Int)

/-- An integer reduced to `n` bits (two's complement). -/
def wrap (x : Int) (n : Nat) : Nat := (x % (2 : Int) ^ n).toNat

/-- `Clamp` of 07 R175 on integers. -/
def clampI (x lo hi : Int) : Int := if x < lo then lo else if x > hi then hi else x

/-- The 32 lanes of a wave in ascending order. -/
def allLanes : List Nat := List.range 32

/-- The lanes of a mask in ascending order. -/
def lanesOf (m : Mask) : List Nat := allLanes.filter fun l => m.getLsbD l

/-- The mask with the lanes that satisfy a test. -/
def maskOf (f : Nat → Bool) : Mask :=
  BitVec.ofNat 32 (allLanes.foldl (fun a l => if f l then a + 2 ^ l else a) 0)

/-- The mask of a list of lanes. -/
def maskOfList (ls : List Nat) : Mask := maskOf fun l => ls.contains l

/-- Little-endian bytes of a value, `n` of them (00 R5). -/
def toBytes (x n : Nat) : List Nat := (List.range n).map fun i => x / 256 ^ i % 256

/-- The value of little-endian bytes (00 R5). -/
def ofBytes : List Nat → Nat
  | [] => 0
  | b :: t => b % 256 + 256 * ofBytes t

/-- Join register words, the lowest-numbered register in the low bits (01 R29, R36). -/
def ofWords : List W32 → Nat
  | [] => 0
  | w :: t => w.toNat + 4294967296 * ofWords t

/-- Cut a value into `n` register words. -/
def toWords (x n : Nat) : List W32 := (List.range n).map fun i => BitVec.ofNat 32 (x / 4294967296 ^ i)

/-- Insert keeping ascending order, without repeats. -/
def insertNat (x : Nat) : List Nat → List Nat
  | [] => [x]
  | y :: t => if x < y then x :: y :: t else if x = y then y :: t else y :: insertNat x t

/-- The least integer ≥ n/d, for d > 0. -/
def ceilDiv (n d : Nat) : Nat := (n + d - 1) / d

/-- Floor of the square root, by Newton steps from above (`fuel` bounds their number). -/
def isqrtGo : Nat → Nat → Nat → Nat
  | 0, _, g => g
  | fuel + 1, n, g =>
    let h := (g + n / g) / 2
    if h < g then isqrtGo fuel n h else g

/-- Floor of the square root. -/
def isqrt (n : Nat) : Nat := if n = 0 then 0 else isqrtGo (Nat.log2 n + 2) n (2 ^ (Nat.log2 n / 2 + 1))

end Sys2Proof.Machine
end

