-- ==== Sys2Proof/Machine/Alu.lean ====
section
/-! DEFINITION. Integer results of the scalar and lane instructions, for any width (02 R50-R54, R64-R67). -/

namespace Sys2Proof.Machine

variable {w : Nat}

/-- High half of the unsigned product (02 R50 SMULH.U). -/
def mulhu (a b : BitVec w) : BitVec w := BitVec.ofNat w (a.toNat * b.toNat / 2 ^ w)

/-- High half of the signed product (02 R50 SMULH.S). -/
def mulhs (a b : BitVec w) : BitVec w := BitVec.ofInt w (a.toInt * b.toInt / (2 : Int) ^ w)

/-- Unsigned quotient, all ones for a divisor of 0 (02 R50 SDIVU). -/
def divu (a b : BitVec w) : BitVec w := if b = 0 then BitVec.allOnes w else a / b

/-- Unsigned remainder, the dividend for a divisor of 0 (02 R50 SREMU). -/
def remu (a b : BitVec w) : BitVec w := if b = 0 then a else a % b

/-- Lesser of two values; `u` chooses the unsigned order (02 R50 SMIN). -/
def minW (u : Bool) (a b : BitVec w) : BitVec w :=
  if u then (if b.ult a then b else a) else (if b.slt a then b else a)

/-- Greater of two values; `u` chooses the unsigned order (02 R50 SMAX). -/
def maxW (u : Bool) (a b : BitVec w) : BitVec w :=
  if u then (if a.ult b then b else a) else (if a.slt b then b else a)

/-- Left shift by an unsigned count; 0 at the width or more (02 R50 SSHL). -/
def shlW (a : BitVec w) (n : Nat) : BitVec w := if n ≥ w then 0 else a <<< n

/-- Right shift, zero-filled; 0 at the width or more (02 R50 SSHR). -/
def shrW (a : BitVec w) (n : Nat) : BitVec w := if n ≥ w then 0 else a >>> n

/-- Right shift, sign-filled; the sign replicated at the width or more (02 R50 SSRA). -/
def sraW (a : BitVec w) (n : Nat) : BitVec w :=
  if n ≥ w then (if a.msb then BitVec.allOnes w else 0) else a.sshiftRight n

/-- Count of leading zeros (02 R50 SCLZ). -/
def clzW (a : BitVec w) : BitVec w :=
  BitVec.ofNat w (if a = 0 then w else w - 1 - Nat.log2 a.toNat)

/-- Count of ones (02 R50 SPOPC). -/
def popcW (a : BitVec w) : BitVec w := BitVec.ofNat w ((List.range w).countP fun i => a.getLsbD i)

/-- The integer condition codes of 02 R51; codes 10 to 31 never reach execution (they trap at decode). -/
def icond (code : Nat) (a b : BitVec w) : Bool :=
  match code with
  | 0 => a == b
  | 1 => a != b
  | 2 => a.slt b
  | 3 => b.sle a
  | 4 => a.ult b
  | 5 => b.ule a
  | 6 => a.sle b
  | 7 => b.slt a
  | 8 => a.ule b
  | 9 => b.ult a
  | _ => false

/-- 0 or 1 as a value (02 R50 SCMP). -/
def ofFlag (b : Bool) : BitVec w := if b then 1 else 0

/-- Signed clamp of an exact integer to a 32-bit pattern. -/
def satS32 (x : Int) : W32 := BitVec.ofInt 32 (clampI x (-2147483648) 2147483647)

/-- Unsigned clamp of an exact integer to a 32-bit pattern. -/
def satU32 (x : Int) : W32 := BitVec.ofInt 32 (clampI x 0 4294967295)

/-- VADD and VSUB (02 R64): wrap, or with SAT clamp to the signed or unsigned range. -/
def addSat (sat u sub : Bool) (a b : W32) : W32 :=
  if sat then
    if u then satU32 (if sub then (a.toNat : Int) - b.toNat else (a.toNat : Int) + b.toNat)
    else satS32 (if sub then a.toInt - b.toInt else a.toInt + b.toInt)
  else if sub then a - b else a + b

/-- The identity of a reduction (02 R66). -/
def redId (op : Nat) : W32 :=
  match op with
  | 1 => 0x7FFFFFFF#32
  | 2 => 0x80000000#32
  | 3 => 0xFFFFFFFF#32
  | 5 => 0xFFFFFFFF#32
  | _ => 0#32

/-- One combination of a reduction (02 R66). -/
def redOp (op : Nat) (a b : W32) : W32 :=
  match op with
  | 0 => a + b
  | 1 => minW false a b
  | 2 => maxW false a b
  | 3 => minW true a b
  | 4 => maxW true a b
  | 5 => a &&& b
  | 6 => a ||| b
  | _ => a ^^^ b

/-- The source lane of VSHFL (02 R65). -/
def shflLane (mode l b : Nat) : Nat :=
  match mode with
  | 0 => b % 32
  | 1 => Nat.xor l (b % 32)
  | 2 => if b ≤ l then l - b else l
  | _ => if l + b ≤ 31 then l + b else l

end Sys2Proof.Machine
end

