-- ==== Sys2Proof/Machine/Fp.lean ====
section
/-! DEFINITION. Element encodings, exact values and the one rounding of the device (07 R159-R175).

An exact value is a signed fraction, an infinity or NaN; only `roundTo` turns one into bits. -/

namespace Sys2Proof.Machine

/-- An exact value of 07 R175: NaN, a signed infinity, or a signed non-negative fraction n/d (d is never 0). -/
inductive XR where
  | nan
  | inf (s : Bool)
  | fin (s : Bool) (n d : Nat)
deriving DecidableEq, Repr

/-- The parameters of a floating-point encoding (07 R160): `mb` mantissa bits, the bias, the magnitude pattern of the
largest finite value, that of the special an overflow returns (0 where the encoding has none), the canonical NaN, and
the number of bits. -/
structure FpFmt where
  mb : Nat
  bias : Nat
  maxFin : Nat
  special : Nat
  canonNaN : Nat
  bits : Nat
deriving DecidableEq, Repr

/-- FP32 (07 R160). -/
def fmtFp32 : FpFmt := ⟨23, 127, 0x7F7FFFFF, 0x7F800000, 0x7FC00000, 32⟩
/-- FP16 (07 R160). -/
def fmtFp16 : FpFmt := ⟨10, 15, 0x7BFF, 0x7C00, 0x7E00, 16⟩
/-- BF16 (07 R160). -/
def fmtBf16 : FpFmt := ⟨7, 127, 0x7F7F, 0x7F80, 0x7FC0, 16⟩
/-- FP8 E4M3: its special is the NaN of either sign (07 R160, R166). -/
def fmtE4m3 : FpFmt := ⟨3, 7, 0x7E, 0x7F, 0x7F, 8⟩
/-- FP8 E5M2 (07 R160). -/
def fmtE5m2 : FpFmt := ⟨2, 15, 0x7B, 0x7C, 0x7E, 8⟩
/-- FP6 E2M3, no special (07 R160, R161). -/
def fmtE2m3 : FpFmt := ⟨3, 1, 0x1F, 0, 0, 6⟩
/-- FP6 E3M2, no special (07 R160, R161). -/
def fmtE3m2 : FpFmt := ⟨2, 3, 0x1F, 0, 0, 6⟩
/-- FP4 E2M1, no special (07 R160, R162). -/
def fmtE2m1 : FpFmt := ⟨1, 1, 0x7, 0, 0, 4⟩

/-- Element-encoding codes with names used below (07 R159). -/
abbrev encFp32 : Nat := 0x01
abbrev encFp16 : Nat := 0x02
abbrev encBf16 : Nat := 0x03
abbrev encE4m3 : Nat := 0x04
abbrev encE5m2 : Nat := 0x05
abbrev encE2m3 : Nat := 0x06
abbrev encE3m2 : Nat := 0x07
abbrev encE2m1 : Nat := 0x08
abbrev encInt8 : Nat := 0x09
abbrev encUint8 : Nat := 0x0A
abbrev encInt4 : Nat := 0x0B
abbrev encInt32 : Nat := 0x0C

/-- The floating-point encoding of a code (07 R159). -/
def fpFmt (enc : Nat) : Option FpFmt :=
  match enc with
  | 1 => some fmtFp32
  | 2 => some fmtFp16
  | 3 => some fmtBf16
  | 4 => some fmtE4m3
  | 5 => some fmtE5m2
  | 6 => some fmtE2m3
  | 7 => some fmtE3m2
  | 8 => some fmtE2m1
  | _ => none

/-- Codes 0x09 to 0x0C are integers (07 R159). -/
def isIntEnc (enc : Nat) : Bool := 9 ≤ enc && enc ≤ 12

/-- Codes 0x20 to 0x24 are codebook indices (07 R159). -/
def isCbEnc (enc : Nat) : Bool := 0x20 ≤ enc && enc ≤ 0x24

/-- A code that names an element encoding other than `none` (07 R159). -/
def encAssigned (enc : Nat) : Bool := (1 ≤ enc && enc ≤ 12) || isCbEnc enc

/-- Bits in memory of an encoding; 0 for a code that names none (07 R159). -/
def encBits (enc : Nat) : Nat :=
  match enc with
  | 1 => 32 | 2 => 16 | 3 => 16 | 4 => 8 | 5 => 8 | 6 => 6 | 7 => 6 | 8 => 4
  | 9 => 8 | 10 => 8 | 11 => 4 | 12 => 32
  | 0x20 => 2 | 0x21 => 3 | 0x22 => 4 | 0x23 => 6 | 0x24 => 8
  | _ => 0

/-- Range of an integer encoding (07 R163). -/
def intRange (enc : Nat) : Int × Int :=
  match enc with
  | 9 => (-128, 127)
  | 10 => (0, 255)
  | 11 => (-8, 7)
  | _ => (-2147483648, 2147483647)

/-- The exact fraction m × 2^e. -/
def dyadic (s : Bool) (m : Nat) (e : Int) : XR :=
  match e with
  | .ofNat k => .fin s (m * 2 ^ k) 1
  | .negSucc k => .fin s m (2 ^ (k + 1))

/-- The exact value of an integer. -/
def XR.ofInt (x : Int) : XR := .fin (decide (x < 0)) x.natAbs 1

/-- `Decode` of a floating-point pattern (07 R160). -/
def decodeFp (f : FpFmt) (e : Nat) : XR :=
  let p := fld e 0 (f.bits - 1)
  let s := bit e (f.bits - 1)
  if p > f.maxFin then
    if p = f.special && f.special != f.canonNaN then .inf s else .nan
  else
    let ex := p / 2 ^ f.mb
    let m := p % 2 ^ f.mb
    if ex = 0 then dyadic s m (1 - (f.bias : Int) - f.mb)
    else dyadic s (2 ^ f.mb + m) ((ex : Int) - f.bias - f.mb)

/-- `Decode(enc, e)` of 07 R175. -/
def decodeEl (enc e : Nat) : XR :=
  match fpFmt enc with
  | some f => decodeFp f e
  | none =>
    if enc = 10 then .fin false (fld e 0 8) 1
    else if isIntEnc enc then XR.ofInt (sx e (encBits enc))
    else .nan

/-- `FP32Value` of 07 R175. -/
def fp32Val (x : W32) : XR := decodeFp fmtFp32 x.toNat

/-- `BF16Value` of 07 R175. -/
def bf16Val (x : Nat) : XR := decodeFp fmtBf16 (fld x 0 16)

/-- Does a floor quotient round up? `k` is the floor, `r`/`den` the remainder, `s` the sign (07 R165). -/
def roundsUp (rm : Nat) (s : Bool) (k r den : Nat) : Bool :=
  match rm with
  | 0 => 2 * r > den || (2 * r == den && k % 2 == 1)
  | 1 => false
  | 2 => s && r > 0
  | 3 => !s && r > 0
  | _ => 2 * r ≥ den

/-- n/d rounded to an integer multiple of 1 (07 R165 with spacing 1). -/
def roundQuot (rm : Nat) (s : Bool) (n d : Nat) : Nat :=
  let k := n / d
  if roundsUp rm s k (n % d) d then k + 1 else k

/-- Floor of the base-2 logarithm of n/d, for n > 0. -/
def log2Quot (n d : Nat) : Int :=
  let e := (Nat.log2 n : Int) - Nat.log2 d
  let ge := if e ≥ 0 then n ≥ d * 2 ^ e.toNat else n * 2 ^ (-e).toNat ≥ d
  if ge then e else e - 1

/-- `RoundGrid` of 07 R166 as a magnitude pattern, the exponent range extended upward without limit: pattern
j × 2^mb + k, where 2^(1 - bias - mb + j) is the grid spacing and k the multiple of it. -/
def roundGrid (f : FpFmt) (rm : Nat) (s : Bool) (n d : Nat) : Nat :=
  if n = 0 then 0 else
    let qmin : Int := 1 - (f.bias : Int) - f.mb
    let q0 := log2Quot n d - f.mb
    let q := if q0 < qmin then qmin else q0
    let k := if q ≥ 0 then roundQuot rm s n (d * 2 ^ q.toNat) else roundQuot rm s (n * 2 ^ (-q).toNat) d
    (q - qmin).toNat * 2 ^ f.mb + k

/-- `RoundIntegral` of 07 R175 on a fraction. -/
def roundIntegral (rm : Nat) (s : Bool) (n d : Nat) : Int :=
  let k := roundQuot rm s n d
  if s then -(k : Int) else (k : Int)

/-- Put a sign on a magnitude pattern. -/
def withSign (f : FpFmt) (s : Bool) (p : Nat) : Nat := if s then p + 2 ^ (f.bits - 1) else p

/-- The floating-point half of `RoundTo` (07 R166). -/
def roundFp (f : FpFmt) (rm : Nat) (sat flush : Bool) (x : XR) : Nat :=
  let tooBig (isInf s : Bool) : Nat :=
    if sat || f.special = 0 then f.maxFin
    else if isInf || rm = 0 || rm = 4 || (rm = 3 && !s) || (rm = 2 && s) then f.special
    else f.maxFin
  match x with
  | .nan => f.canonNaN
  | .inf s => withSign f s (tooBig true s)
  | .fin s n d =>
    let p := roundGrid f rm s n d
    let y := if p > f.maxFin then tooBig false s else p
    withSign f s (if flush && y < 2 ^ f.mb then 0 else y)

/-- `RoundTo(fmt, x, rm, sat, flush)` (07 R166); integers always saturate. -/
def roundTo (enc : Nat) (x : XR) (rm : Nat) (sat flush : Bool) : Nat :=
  match fpFmt enc with
  | some f => roundFp f rm sat (flush && (enc ≤ 3)) x
  | none =>
    let r := intRange enc
    let out (v : Int) : Nat := wrap (clampI v r.1 r.2) (encBits enc)
    match x with
    | .nan => 0
    | .inf s => out (if s then r.1 else r.2)
    | .fin s n d => out (roundIntegral rm s n d)

/-- The encodings with infinities that widen into another: an infinity stays one, whatever SAT says (07 R174).
DEDUCED: R174's sentence on widenings comes before the clamp of R166 (log 27). -/
def widens (src dst : Nat) : Bool :=
  (dst == encFp32 && (src == encFp16 || src == encBf16 || src == encE5m2)) || (src == encE5m2 && (dst == encFp16 || dst == encBf16))

/-- `RoundTo(FP32, x, rm)` with the flush of WSR.FTZ (02 R69). -/
def roundF32 (rm : Nat) (ftz : Bool) (x : XR) : W32 := BitVec.ofNat 32 (roundFp fmtFp32 rm false ftz x)

/-- The sign of an exact zero sum (02 R69, IEEE 754): minus under RDN, else plus. -/
def zeroSign (rm : Nat) : Bool := rm == 2

/-- The negated value. -/
def XR.neg : XR → XR
  | .nan => .nan
  | .inf s => .inf (!s)
  | .fin s n d => .fin (!s) n d

/-- Sign of a value that is not NaN. -/
def XR.sign : XR → Bool
  | .nan => false
  | .inf s => s
  | .fin s _ _ => s

/-- Is it NaN? -/
def XR.isNaN : XR → Bool
  | .nan => true
  | _ => false

/-- Is it a zero? -/
def XR.isZero : XR → Bool
  | .fin _ 0 _ => true
  | _ => false

/-- Exact product; an infinity times zero is NaN (07 R170). -/
def XR.mul (a b : XR) : XR :=
  match a, b with
  | .nan, _ => .nan
  | _, .nan => .nan
  | .inf s, .inf t => .inf (s != t)
  | .inf s, .fin t n _ => if n = 0 then .nan else .inf (s != t)
  | .fin s n _, .inf t => if n = 0 then .nan else .inf (s != t)
  | .fin s n d, .fin t m e => .fin (s != t) (n * m) (d * e)

/-- Exact sum; opposing infinities are NaN; the sign of an exact zero follows the mode (02 R69). -/
def XR.add (rm : Nat) (a b : XR) : XR :=
  match a, b with
  | .nan, _ => .nan
  | _, .nan => .nan
  | .inf s, .inf t => if s = t then .inf s else .nan
  | .inf s, .fin _ _ _ => .inf s
  | .fin _ _ _, .inf t => .inf t
  | .fin s n d, .fin t m e =>
    let l := Nat.lcm d e
    let p := n * (l / d)
    let q := m * (l / e)
    if s = t then .fin s (p + q) l
    else if p = q then .fin (zeroSign rm) 0 1
    else if q < p then .fin s (p - q) l
    else .fin t (q - p) l

/-- Exact sum of a list of terms, in list order (07 R172). -/
def XR.sum (rm : Nat) : List XR → XR
  | [] => .fin false 0 1
  | x :: t => t.foldl (XR.add rm) x

/-- Exact reciprocal with the infinities of IEEE 754 (02 R70 FRCP). -/
def XR.recip : XR → XR
  | .nan => .nan
  | .inf s => .fin s 0 1
  | .fin s n d => if n = 0 then .inf s else .fin s d n

/-- Order of two values neither of which is NaN, -0 = +0: is a < b? -/
def XR.lt (a b : XR) : Bool :=
  match a, b with
  | .nan, _ => false
  | _, .nan => false
  | .inf s, .inf t => s && !t
  | .inf s, .fin _ _ _ => s
  | .fin _ _ _, .inf t => !t
  | .fin s n d, .fin t m e =>
    let x : Int := if s then -((n * e : Nat) : Int) else ((n * e : Nat) : Int)
    let y : Int := if t then -((m * d : Nat) : Int) else ((m * d : Nat) : Int)
    decide (x < y)

/-- Equality of two values, -0 = +0, false for NaN. -/
def XR.eq (a b : XR) : Bool := !a.isNaN && !b.isNaN && !XR.lt a b && !XR.lt b a

/-- Square root of a non-negative fraction, exact where it is a fraction of the working precision and otherwise a
fraction strictly between the neighbours a rounding can tell apart (02 R70): `pr` fractional bits and one sticky bit. -/
def sqrtQuot (n d pr : Nat) : XR :=
  let m := n * 2 ^ (2 * pr) / d
  let r := isqrt m
  if r * r * d = n * 2 ^ (2 * pr) then .fin false r (2 ^ pr) else .fin false (2 * r + 1) (2 ^ (pr + 1))

/-- The correctly rounded square root's exact argument (02 R70 FSQRT). -/
def XR.sqrt : XR → XR
  | .nan => .nan
  | .inf s => if s then .nan else .inf false
  | .fin s n d => if n = 0 then .fin s 0 1 else if s then .nan else sqrtQuot n d 160

/-- 1/√a (02 R70 FRSQ). -/
def XR.rsqrt : XR → XR
  | .nan => .nan
  | .inf s => if s then .nan else .fin false 0 1
  | .fin s n d => if n = 0 then .inf s else if s then .nan else sqrtQuot d n 160

/-- Patterns of FP32 named in the spec. -/
abbrev f32NaN : W32 := 0x7FC00000#32

abbrev f32Inf : W32 := 0x7F800000#32
abbrev f32NegInf : W32 := 0xFF800000#32

/-- Is the pattern an FP32 NaN? -/
def isNaN32 (x : W32) : Bool := (x &&& 0x7FFFFFFF#32).toNat > 0x7F800000

/-- Flush an FP32 input to a zero of its sign where FTZ is 1 (02 R69). -/
def flushIn (ftz : Bool) (x : W32) : W32 :=
  if ftz && (x &&& 0x7F800000#32) == 0 then x &&& 0x80000000#32 else x

/-- `SrcMod`: ABS then NEG on the sign bit of an FP32 pattern (01 R41). -/
def srcMod (neg abs : Bool) (x : W32) : W32 :=
  let y := if abs then x &&& 0x7FFFFFFF#32 else x
  if neg then y ^^^ 0x80000000#32 else y

/-- `SrcMod` on both halves of a packed pair (02 R75). -/
def srcMod2 (neg abs : Bool) (x : W32) : W32 :=
  let y := if abs then x &&& 0x7FFF7FFF#32 else x
  if neg then y ^^^ 0x80008000#32 else y

/-- `Clamp01` on a pattern of an encoding with NaN: NaN, -0 and negatives give +0, above 1.0 gives 1.0 (07 R175). -/
def clamp01 (f : FpFmt) (p : Nat) : Nat :=
  match decodeFp f p with
  | .nan => 0
  | .inf s => if s then 0 else f.bias * 2 ^ f.mb
  | .fin s n d => if s || n = 0 then 0 else if n > d then f.bias * 2 ^ f.mb else p

/-- Minimum of FP values by 02 R69: -0 below +0, one NaN gives the other input, two give the canonical NaN; `gt` turns
it into the maximum. Acts on patterns of encoding `f`. -/
def fpMin (f : FpFmt) (gt : Bool) (a b : Nat) : Nat :=
  let x := decodeFp f a
  let y := decodeFp f b
  if x.isNaN && y.isNaN then f.canonNaN
  else if x.isNaN then b
  else if y.isNaN then a
  else
    let less := XR.lt x y || (XR.eq x y && x.sign && !y.sign)
    if gt then (if less then b else a) else (if less then a else if XR.lt y x || (y.sign && !x.sign) then b else a)

/-- The comparisons of FCMP (02 R71). -/
def fcond (code : Nat) (x y : XR) : Bool :=
  let un := x.isNaN || y.isNaN
  match code with
  | 0 => XR.eq x y
  | 1 => !XR.eq x y
  | 2 => XR.lt x y
  | 3 => !un && !XR.lt x y
  | 4 => !un && !XR.lt y x
  | 5 => XR.lt y x
  | 6 => !un
  | _ => un

/-- a × b + c with one rounding (02 R69 FFMA). -/
def XR.fma (rm : Nat) (a b c : XR) : XR := XR.add rm (XR.mul a b) c

/-- `ScaleBlock(d, sa, sb)` (07 R170). -/
def scaleBlock (d : XR) (sa sb : Nat) : XR := XR.mul (XR.mul d (bf16Val sa)) (bf16Val sb)

end Sys2Proof.Machine
end

