-- ==== Sys2Proof/Config.lean ====
section
/-! DEFINITION. What the module fixes (00 R1, R2) and the values the spec leaves open. An `opaque` constant has no value
that anything can prove: a statement about it holds whatever it is (log 1). -/

namespace Sys2Proof.Config

/-- An undefined 32-bit value: `seed` names the occasion, `key` the register or word (00 R7, log 1). -/
opaque freeWord (seed key : Nat) : W32

/-- An undefined byte of a memory: `seed` names the memory or the occasion, `addr` the byte (00 R7, log 1, 6, 7). -/
opaque freeByte (seed addr : Nat) : Byte

/-- An undefined choice between outcomes the spec allows (00 R7, log 1). -/
opaque freeBool (seed key : Nat) : Bool

/-- The STEP register of BAR0 identifies the module's stepping, whose value the spec does not give (20 R415, log 15). -/
opaque stepping : W32

/-- Is the signature of a firmware image valid? SLH-DSA verification over the image's bytes (20 R427, log 13). -/
opaque imageSigned (image : List Byte) : Bool

/-- The security version a firmware image carries, at a place the spec does not give (20 R427, log 13). -/
opaque imageSvn (image : List Byte) : W32

/-- The steward's and the device's firmware in an image, and the fused configuration: what the measurements 0 to 2 are extended with,
whose bytes the spec does not give (20 R428, log 13). -/
opaque stewardPart (image : List Byte) : List Byte
opaque devicePart (image : List Byte) : List Byte
opaque fusedConfig : List Byte

/-- The SLH-DSA signature bytes of a quote over a message (20 R428, log 13). -/
opaque quoteByte (message : List Byte) (i : Nat) : Byte

/-- Byte `i` of the source, code and data of the log entry `seq` of an event, in a form the spec does not give (20 R426, log 48). -/
opaque logByte (seq kind : Nat) (words : List Nat) (i : Nat) : Byte

/-- Dies of the module, clusters of a die, cores of a cluster (00 R1). -/
abbrev dies : Nat := 4
abbrev clusters : Nat := 14

abbrev cores : Nat := 448

abbrev parts : Nat := 8

/-- The die of a core (00 R1). -/
def dieOf (core : Nat) : Nat := core / 112

/-- The position of a core within its cluster (00 R1). -/
def posOf (core : Nat) : Nat := core % 8
/-- The partition of a slot (log 8). -/
def partOf (slot : Nat) : Nat := slot / 12

/-- Lines of 512 bytes in an L1 of 1536 KiB and in an L2 of 64 MiB (00 R1, 08 R184). -/
abbrev l1Lines : Nat := 3072
abbrev l2Lines : Nat := 131072

/-- Bytes of scratchpad of a core (08 R181). -/
abbrev spdSize : Nat := 786432
/-- Bytes of granary of a die (08 R183). -/
abbrev granSize : Nat := 0x2000000

/-- Seeds of the memories that start undefined (log 1, 6, 7); other seeds count up from 16. -/
abbrev seedSpd : Nat := 0
abbrev seedGran : Nat := 1
abbrev seedTile : Nat := 2
abbrev seedAcc : Nat := 3
abbrev seedBank : Nat := 4
abbrev seedAct : Nat := 5
abbrev seedHost : Nat := 6
abbrev seedPool : Nat := 7
abbrev seedPeer : Nat := 8
abbrev seedMb : Nat := 9
abbrev seedFirst : Nat := 16

end Sys2Proof.Config
end

