-- ==== Sys2Proof/Syntax.lean ====
section
/-! DEFINITION. The instructions as syntax: the operands of 01 R33, the six formats of 01 R26, one constructor for every
opcode of 01 R37, and one for every further row of spec/opcode_table.json (an event: something an agent of the machine
or the outside world does that no instruction word encodes). -/

namespace Sys2Proof

/-- An operand named by a 10-bit field (01 R33). -/
inductive Operand where
  /-- scalar register; s380 to s383 are gp, sp, fp and lk -/
  | s (i : Fin 384)
  /-- special 0x180 + i (01 R34) -/
  | sp (i : Fin 11)
  /-- vector register of the current window -/
  | v (i : Fin 256)
  /-- spectral register -/
  | w (i : Fin 32)
  /-- tile -/
  | t (i : Fin 16)
  /-- accumulator fragment -/
  | acc (i : Fin 16)
  /-- shape register -/
  | h (i : Fin 16)
  /-- bond register -/
  | d (i : Fin 8)
  /-- condition flag register -/
  | p (i : Fin 8)
  /-- trap scalar -/
  | e (i : Fin 16)
  /-- inline constant, by its entry (01 R36) -/
  | c (i : Fin 128)
deriving DecidableEq, Repr

/-- R format (01 R26, R27). -/
structure RF where
  dst : Operand
  a : Operand
  b : Operand
  c : Operand
  fslot : Fin 8
  mod : Fin 64
  all : Bool
  sub : Fin 32
deriving DecidableEq, Repr

/-- I format (01 R26). -/
structure IF where
  dst : Operand
  a : Operand
  subh : Fin 8
  imm : BitVec 32
deriving DecidableEq, Repr

/-- M format (01 R26, R28). -/
structure MF where
  data : Operand
  addr : Operand
  space : Fin 8
  scope : Fin 8
  order : Fin 8
  cache : Fin 4
  rcd : Fin 256
  off : BitVec 16
deriving DecidableEq, Repr

/-- B format (01 R26, R30); the reserved bits [34:32] are not held. -/
structure BF where
  cond : Operand
  cc : Fin 8
  w : Fin 128
  off : BitVec 32
deriving DecidableEq, Repr

/-- A format (01 R26, R32). -/
structure AF where
  ha : Fin 16
  hb : Fin 16
  opa : Operand
  opb : Operand
  fslot : Fin 8
  flags : BitVec 24
deriving DecidableEq, Repr

/-- FENCE (05 R126). -/
structure FenceF where
  scope : Fin 8
  kind : Fin 4
deriving DecidableEq, Repr

/-- BAR (05 R146). -/
structure BarF where
  dst : Operand
  a : Operand
  op : Fin 8
  circle : Fin 256
deriving DecidableEq, Repr

/-- BARA (05 R146). -/
structure BaraF where
  dst : Operand
  circle : Fin 256
deriving DecidableEq, Repr

/-- BARW (05 R146). -/
structure BarwF where
  a : Operand
  circle : Fin 256
deriving DecidableEq, Repr

/-- BCNT (05 R149). -/
structure BcntF where
  addr : Operand
  circle : Fin 256
deriving DecidableEq, Repr

/-- BARX (05 R150). -/
structure BarxF where
  dst : Operand
  addr : Operand
  bytes : Operand
deriving DecidableEq, Repr

/-- ACLOSE (05 R143). -/
structure AcloseF where
  n : Fin 8
deriving DecidableEq, Repr

/-- WAIT (05 R152); `n` is the field N-1. -/
structure WaitF where
  dst : Operand
  desc : Operand
  n : Fin 4
  all : Bool
  timeout : BitVec 32
deriving DecidableEq, Repr

/-- MFENCE.ACC (10 R246). -/
structure MfenceAccF where
  mask : BitVec 16
deriving DecidableEq, Repr

/-- SPAWN (13 R321). -/
structure SpawnF where
  tgt : Operand
  pay : Operand
  n : Fin 32
  join : Operand
  jsp : Bool
  rsv : Bool
deriving DecidableEq, Repr

/-- SPAWNC (13 R321). -/
structure SpawncF where
  tgt : Operand
  pay : Operand
  n : Fin 32
  rsv : Bool
deriving DecidableEq, Repr

/-- SPAWNR (13 R321). -/
structure SpawnrF where
  tgt : Operand
  rng : Operand
  join : Operand
  pay : Operand
  n : Fin 32
  jsp : Bool
  rsv : Bool
deriving DecidableEq, Repr

/-- TNEXT (13 R322). -/
structure TnextF where
  dst : Operand
  pay : Operand
  n : Fin 32
deriving DecidableEq, Repr

/-- TRES (13 R323). -/
structure TresF where
  dst : Operand
  n : Operand
deriving DecidableEq, Repr

/-- TCOMMIT and TCANCEL (13 R324). -/
structure TdstF where
  dst : Operand
deriving DecidableEq, Repr

/-- MOOTA (13 R328). -/
structure MootaF where
  dst : Operand
  timeout : BitVec 32
deriving DecidableEq, Repr

/-- MOOTQ (13 R330). -/
structure MootqF where
  dst : Operand
  a : Operand
  sel : Fin 8
deriving DecidableEq, Repr

/-- FRAMEC (13 R332). -/
structure FramecF where
  dst : Operand
  stream : Operand
  seq : Operand
deriving DecidableEq, Repr

/-- SNAP (13 R333). -/
structure SnapF where
  dst : Operand
  tag : Operand
deriving DecidableEq, Repr

/-- The fields of an instruction by format; `nul` for the words whose low 55 bits are all reserved (01 R26). -/
inductive Fmt where
  | r (f : RF)
  | i (f : IF)
  | m (f : MF)
  | b (f : BF)
  | a (f : AF)
  | fence (f : FenceF)
  | bar (f : BarF)
  | bara (f : BaraF)
  | barw (f : BarwF)
  | bcnt (f : BcntF)
  | barx (f : BarxF)
  | aclose (f : AcloseF)
  | wait (f : WaitF)
  | mfenceAcc (f : MfenceAccF)
  | spawn (f : SpawnF)
  | spawnc (f : SpawncF)
  | spawnr (f : SpawnrF)
  | tnext (f : TnextF)
  | tres (f : TresF)
  | tdst (f : TdstF)
  | moota (f : MootaF)
  | mootq (f : MootqF)
  | framec (f : FramecF)
  | snap (f : SnapF)
  | nul
deriving DecidableEq, Repr

/-- The instructions and events of the machine. -/
inductive Instr where
  /-- 0x000 NOP (R38) -/
  | nop
  /-- 0x001 SADD (R50) -/
  | sadd (f : RF)
  /-- 0x002 SSUB (R50) -/
  | ssub (f : RF)
  /-- 0x003 SMUL (R50) -/
  | smul (f : RF)
  /-- 0x004 SMULH (R50) -/
  | smulh (f : RF)
  /-- 0x005 SDIVU (R50) -/
  | sdivu (f : RF)
  /-- 0x006 SREMU (R50) -/
  | sremu (f : RF)
  /-- 0x007 SMIN (R50) -/
  | smin (f : RF)
  /-- 0x008 SMAX (R50) -/
  | smax (f : RF)
  /-- 0x009 SAND (R50) -/
  | sand (f : RF)
  /-- 0x00A SOR (R50) -/
  | sor (f : RF)
  /-- 0x00B SXOR (R50) -/
  | sxor (f : RF)
  /-- 0x00C SNOT (R50) -/
  | snot (f : RF)
  /-- 0x00D SSHL (R50) -/
  | sshl (f : RF)
  /-- 0x00E SSHR (R50) -/
  | sshr (f : RF)
  /-- 0x00F SSRA (R50) -/
  | ssra (f : RF)
  /-- 0x010 SCLZ (R50) -/
  | sclz (f : RF)
  /-- 0x011 SPOPC (R50) -/
  | spopc (f : RF)
  /-- 0x012 SCMP (R50) -/
  | scmp (f : RF)
  /-- 0x013 SSEL (R50) -/
  | ssel (f : RF)
  /-- 0x014 SMOV (R50) -/
  | smov (f : RF)
  /-- 0x015 SADDA (R52) -/
  | sadda (f : RF)
  /-- 0x020 SADD_I (R53) -/
  | saddI (f : IF)
  /-- 0x021 SSUB_I (R53) -/
  | ssubI (f : IF)
  /-- 0x022 SMUL_I (R53) -/
  | smulI (f : IF)
  /-- 0x023 SMULH_I (R53) -/
  | smulhI (f : IF)
  /-- 0x024 SDIVU_I (R53) -/
  | sdivuI (f : IF)
  /-- 0x025 SREMU_I (R53) -/
  | sremuI (f : IF)
  /-- 0x026 SMIN_I (R53) -/
  | sminI (f : IF)
  /-- 0x027 SMAX_I (R53) -/
  | smaxI (f : IF)
  /-- 0x028 SAND_I (R53) -/
  | sandI (f : IF)
  /-- 0x029 SOR_I (R53) -/
  | sorI (f : IF)
  /-- 0x02A SXOR_I (R53) -/
  | sxorI (f : IF)
  /-- 0x02B SSHL_I (R53) -/
  | sshlI (f : IF)
  /-- 0x02C SSHR_I (R53) -/
  | sshrI (f : IF)
  /-- 0x02D SSRA_I (R53) -/
  | ssraI (f : IF)
  /-- 0x02E SCMP_I (R53) -/
  | scmpI (f : IF)
  /-- 0x02F SADDA_I (R53) -/
  | saddaI (f : IF)
  /-- 0x030 SMOVI (R53) -/
  | smovi (f : IF)
  /-- 0x031 SLDK (R54) -/
  | sldk (f : IF)
  /-- 0x040 SADD_64 (R52) -/
  | sadd64 (f : RF)
  /-- 0x041 SSUB_64 (R52) -/
  | ssub64 (f : RF)
  /-- 0x042 SMUL_64 (R52) -/
  | smul64 (f : RF)
  /-- 0x043 SMIN_64 (R52) -/
  | smin64 (f : RF)
  /-- 0x044 SMAX_64 (R52) -/
  | smax64 (f : RF)
  /-- 0x045 SAND_64 (R52) -/
  | sand64 (f : RF)
  /-- 0x046 SOR_64 (R52) -/
  | sor64 (f : RF)
  /-- 0x047 SXOR_64 (R52) -/
  | sxor64 (f : RF)
  /-- 0x048 SSHL_64 (R52) -/
  | sshl64 (f : RF)
  /-- 0x049 SSHR_64 (R52) -/
  | sshr64 (f : RF)
  /-- 0x04A SSRA_64 (R52) -/
  | ssra64 (f : RF)
  /-- 0x04B SCMP_64 (R52) -/
  | scmp64 (f : RF)
  /-- 0x04C SMOV_64 (R52) -/
  | smov64 (f : RF)
  /-- 0x050 BR (R55) -/
  | br (f : BF)
  /-- 0x051 BRC (R55) -/
  | brc (f : BF)
  /-- 0x052 CALL (R57) -/
  | call (f : BF)
  /-- 0x053 RET (R58) -/
  | ret (f : BF)
  /-- 0x054 BRI (R55) -/
  | bri (f : BF)
  /-- 0x055 END (R56) -/
  | endP (f : BF)
  /-- 0x056 FORK (R80) -/
  | fork (f : BF)
  /-- 0x057 JOIN (R81) -/
  | join (f : BF)
  /-- 0x060 PPUSH (R79) -/
  | ppush (f : RF)
  /-- 0x061 PINV (R79) -/
  | pinv (f : RF)
  /-- 0x062 PPOP (R79) -/
  | ppop (f : RF)
  /-- 0x063 PSET (R79) -/
  | pset (f : RF)
  /-- 0x064 PPACK (R79) -/
  | ppack (f : RF)
  /-- 0x065 PUNPK (R79) -/
  | punpk (f : RF)
  /-- 0x066 PANY (R79) -/
  | pany (f : RF)
  /-- 0x067 PALL (R79) -/
  | pall (f : RF)
  /-- 0x080 VADD (R64) -/
  | vadd (f : RF)
  /-- 0x081 VSUB (R64) -/
  | vsub (f : RF)
  /-- 0x082 VMUL (R64) -/
  | vmul (f : RF)
  /-- 0x083 VMULH (R64) -/
  | vmulh (f : RF)
  /-- 0x084 VMAD (R64) -/
  | vmad (f : RF)
  /-- 0x085 VMIN (R64) -/
  | vmin (f : RF)
  /-- 0x086 VMAX (R64) -/
  | vmax (f : RF)
  /-- 0x087 VAND (R64) -/
  | vand (f : RF)
  /-- 0x088 VOR (R64) -/
  | vor (f : RF)
  /-- 0x089 VXOR (R64) -/
  | vxor (f : RF)
  /-- 0x08A VNOT (R64) -/
  | vnot (f : RF)
  /-- 0x08B VSHL (R64) -/
  | vshl (f : RF)
  /-- 0x08C VSHR (R64) -/
  | vshr (f : RF)
  /-- 0x08D VSRA (R64) -/
  | vsra (f : RF)
  /-- 0x08E VCLZ (R64) -/
  | vclz (f : RF)
  /-- 0x08F VPOPC (R64) -/
  | vpopc (f : RF)
  /-- 0x090 VCMP (R64) -/
  | vcmp (f : RF)
  /-- 0x091 VSEL (R64) -/
  | vsel (f : RF)
  /-- 0x092 VMOV (R64) -/
  | vmov (f : RF)
  /-- 0x093 VBCST (R64) -/
  | vbcst (f : RF)
  /-- 0x094 VLANE (R64) -/
  | vlane (f : RF)
  /-- 0x095 VSHFL (R65) -/
  | vshfl (f : RF)
  /-- 0x096 VRED (R66) -/
  | vred (f : RF)
  /-- 0x097 VSCAN (R66) -/
  | vscan (f : RF)
  /-- 0x0A0 VADD_I (R68) -/
  | vaddI (f : IF)
  /-- 0x0A1 VSUB_I (R68) -/
  | vsubI (f : IF)
  /-- 0x0A2 VMUL_I (R68) -/
  | vmulI (f : IF)
  /-- 0x0A3 VMIN_I (R68) -/
  | vminI (f : IF)
  /-- 0x0A4 VMAX_I (R68) -/
  | vmaxI (f : IF)
  /-- 0x0A5 VAND_I (R68) -/
  | vandI (f : IF)
  /-- 0x0A6 VOR_I (R68) -/
  | vorI (f : IF)
  /-- 0x0A7 VXOR_I (R68) -/
  | vxorI (f : IF)
  /-- 0x0A8 VSHL_I (R68) -/
  | vshlI (f : IF)
  /-- 0x0A9 VSHR_I (R68) -/
  | vshrI (f : IF)
  /-- 0x0AA VSRA_I (R68) -/
  | vsraI (f : IF)
  /-- 0x0AB VCMP_I (R68) -/
  | vcmpI (f : IF)
  /-- 0x0AC VSEL_I (R68) -/
  | vselI (f : IF)
  /-- 0x0AD VMOV_I (R68) -/
  | vmovI (f : IF)
  /-- 0x0AE VLANE_I (R68) -/
  | vlaneI (f : IF)
  /-- 0x0AF VSHFL_I (R68) -/
  | vshflI (f : IF)
  /-- 0x0B0 VADD_64 (R67) -/
  | vadd64 (f : RF)
  /-- 0x0B1 VSHL_64 (R67) -/
  | vshl64 (f : RF)
  /-- 0x0B2 VRED_F (R74) -/
  | vredF (f : RF)
  /-- 0x0B3 VSCAN_F (R74) -/
  | vscanF (f : RF)
  /-- 0x0C0 FADD (R69) -/
  | fadd (f : RF)
  /-- 0x0C1 FSUB (R69) -/
  | fsub (f : RF)
  /-- 0x0C2 FMUL (R69) -/
  | fmul (f : RF)
  /-- 0x0C3 FFMA (R69) -/
  | ffma (f : RF)
  /-- 0x0C4 FMIN (R69) -/
  | fmin (f : RF)
  /-- 0x0C5 FMAX (R69) -/
  | fmax (f : RF)
  /-- 0x0C6 FCMP (R71) -/
  | fcmp (f : RF)
  /-- 0x0C7 FRCP (R70) -/
  | frcp (f : RF)
  /-- 0x0C8 FRSQ (R70) -/
  | frsq (f : RF)
  /-- 0x0C9 FSQRT (R70) -/
  | fsqrt (f : RF)
  /-- 0x0CA FEXP2 (R70) -/
  | fexp2 (f : RF)
  /-- 0x0CB FLOG2 (R70) -/
  | flog2 (f : RF)
  /-- 0x0CC FSIN (R70) -/
  | fsin (f : RF)
  /-- 0x0CD FCOS (R70) -/
  | fcos (f : RF)
  /-- 0x0CE FRND (R70) -/
  | frnd (f : RF)
  /-- 0x0CF FCVT (R72) -/
  | fcvt (f : RF)
  /-- 0x0D0 FADD_I (R73) -/
  | faddI (f : IF)
  /-- 0x0D1 FSUB_I (R73) -/
  | fsubI (f : IF)
  /-- 0x0D2 FMUL_I (R73) -/
  | fmulI (f : IF)
  /-- 0x0D3 FMIN_I (R73) -/
  | fminI (f : IF)
  /-- 0x0D4 FMAX_I (R73) -/
  | fmaxI (f : IF)
  /-- 0x0D5 FCMP_I (R73) -/
  | fcmpI (f : IF)
  /-- 0x0E0 FADD_H2 (R75) -/
  | faddH2 (f : RF)
  /-- 0x0E1 FSUB_H2 (R75) -/
  | fsubH2 (f : RF)
  /-- 0x0E2 FMUL_H2 (R75) -/
  | fmulH2 (f : RF)
  /-- 0x0E3 FFMA_H2 (R75) -/
  | ffmaH2 (f : RF)
  /-- 0x0E4 FMIN_H2 (R75) -/
  | fminH2 (f : RF)
  /-- 0x0E5 FMAX_H2 (R75) -/
  | fmaxH2 (f : RF)
  /-- 0x0E6 FADD_B2 (R75) -/
  | faddB2 (f : RF)
  /-- 0x0E7 FSUB_B2 (R75) -/
  | fsubB2 (f : RF)
  /-- 0x0E8 FMUL_B2 (R75) -/
  | fmulB2 (f : RF)
  /-- 0x0E9 FFMA_B2 (R75) -/
  | ffmaB2 (f : RF)
  /-- 0x0EA FMIN_B2 (R75) -/
  | fminB2 (f : RF)
  /-- 0x0EB FMAX_B2 (R75) -/
  | fmaxB2 (f : RF)
  /-- 0x0EC VDOT4 (R76) -/
  | vdot4 (f : RF)
  /-- 0x0ED VDOT8 (R76) -/
  | vdot8 (f : RF)
  /-- 0x0EE VPK (R77) -/
  | vpk (f : RF)
  /-- 0x0EF VUPK (R77) -/
  | vupk (f : RF)
  /-- 0x100 LD_ZX8 (R115) -/
  | ldZx8 (f : MF)
  /-- 0x101 LD_SX8 (R115) -/
  | ldSx8 (f : MF)
  /-- 0x102 LD_ZX16 (R115) -/
  | ldZx16 (f : MF)
  /-- 0x103 LD_SX16 (R115) -/
  | ldSx16 (f : MF)
  /-- 0x104 LD_B32 (R115) -/
  | ldB32 (f : MF)
  /-- 0x105 LD_B64 (R115) -/
  | ldB64 (f : MF)
  /-- 0x106 LD_B128 (R115) -/
  | ldB128 (f : MF)
  /-- 0x107 ST_B8 (R116) -/
  | stB8 (f : MF)
  /-- 0x108 ST_B16 (R116) -/
  | stB16 (f : MF)
  /-- 0x109 ST_B32 (R116) -/
  | stB32 (f : MF)
  /-- 0x10A ST_B64 (R116) -/
  | stB64 (f : MF)
  /-- 0x10B ST_B128 (R116) -/
  | stB128 (f : MF)
  /-- 0x10C LDB (R118) -/
  | ldb (f : MF)
  /-- 0x10D STB (R118) -/
  | stb (f : MF)
  /-- 0x10E LDL_B32 (R82) -/
  | ldlB32 (f : MF)
  /-- 0x10F LDL_B64 (R82) -/
  | ldlB64 (f : MF)
  /-- 0x110 LDL_B128 (R82) -/
  | ldlB128 (f : MF)
  /-- 0x111 STL_B32 (R82) -/
  | stlB32 (f : MF)
  /-- 0x112 STL_B64 (R82) -/
  | stlB64 (f : MF)
  /-- 0x113 STL_B128 (R82) -/
  | stlB128 (f : MF)
  /-- 0x114 ATOM_ADD (R122) -/
  | atomAdd (f : MF)
  /-- 0x115 ATOM_SMIN (R122) -/
  | atomSmin (f : MF)
  /-- 0x116 ATOM_SMAX (R122) -/
  | atomSmax (f : MF)
  /-- 0x117 ATOM_UMIN (R122) -/
  | atomUmin (f : MF)
  /-- 0x118 ATOM_UMAX (R122) -/
  | atomUmax (f : MF)
  /-- 0x119 ATOM_AND (R122) -/
  | atomAnd (f : MF)
  /-- 0x11A ATOM_OR (R122) -/
  | atomOr (f : MF)
  /-- 0x11B ATOM_XOR (R122) -/
  | atomXor (f : MF)
  /-- 0x11C ATOM_XCHG (R122) -/
  | atomXchg (f : MF)
  /-- 0x11D ATOM_CAS (R122) -/
  | atomCas (f : MF)
  /-- 0x11E ATOM_FADD (R124) -/
  | atomFadd (f : MF)
  /-- 0x11F ATOM_ADD_B64 (R122) -/
  | atomAddB64 (f : MF)
  /-- 0x120 ATOM_UMIN_B64 (R122) -/
  | atomUminB64 (f : MF)
  /-- 0x121 ATOM_UMAX_B64 (R122) -/
  | atomUmaxB64 (f : MF)
  /-- 0x122 ATOM_XCHG_B64 (R122) -/
  | atomXchgB64 (f : MF)
  /-- 0x123 ATOM_CAS_B64 (R122) -/
  | atomCasB64 (f : MF)
  /-- 0x124 RED_ADD (R125) -/
  | redAdd (f : MF)
  /-- 0x125 RED_SMIN (R125) -/
  | redSmin (f : MF)
  /-- 0x126 RED_SMAX (R125) -/
  | redSmax (f : MF)
  /-- 0x127 RED_UMIN (R125) -/
  | redUmin (f : MF)
  /-- 0x128 RED_UMAX (R125) -/
  | redUmax (f : MF)
  /-- 0x129 RED_AND (R125) -/
  | redAnd (f : MF)
  /-- 0x12A RED_OR (R125) -/
  | redOr (f : MF)
  /-- 0x12B RED_XOR (R125) -/
  | redXor (f : MF)
  /-- 0x12C RED_FADD (R124) -/
  | redFadd (f : MF)
  /-- 0x12D RED_ADD_B64 (R125) -/
  | redAddB64 (f : MF)
  /-- 0x12E FENCE (R126) -/
  | fence (f : FenceF)
  /-- 0x12F CINV (R127) -/
  | cinv (f : MF)
  /-- 0x130 CFLUSH (R127) -/
  | cflush (f : MF)
  /-- 0x131 PREF (R128) -/
  | pref (f : MF)
  /-- 0x132 HLD (R131) -/
  | hld (f : MF)
  /-- 0x133 HST (R131) -/
  | hst (f : MF)
  /-- 0x134 HSETF (R132) -/
  | hsetf (f : RF)
  /-- 0x135 HGETF (R132) -/
  | hgetf (f : RF)
  /-- 0x136 COPY (R133) -/
  | copy (f : AF)
  /-- 0x137 COPYC (R140) -/
  | copyc (f : AF)
  /-- 0x138 CPFILL (R141) -/
  | cpfill (f : AF)
  /-- 0x139 BAR (R146) -/
  | bar (f : BarF)
  /-- 0x13A BARA (R146) -/
  | bara (f : BaraF)
  /-- 0x13B BARW (R146) -/
  | barw (f : BarwF)
  /-- 0x13C BCNT (R149) -/
  | bcnt (f : BcntF)
  /-- 0x13D BARX (R150) -/
  | barx (f : BarxF)
  /-- 0x13E ACLOSE (R143) -/
  | aclose (f : AcloseF)
  /-- 0x13F WAIT (R152) -/
  | wait (f : WaitF)
  /-- 0x140 MTTC (R237) -/
  | mttc (f : RF)
  /-- 0x141 TLD (R239) -/
  | tld (f : AF)
  /-- 0x142 TLDC (R240) -/
  | tldc (f : AF)
  /-- 0x143 TST (R241) -/
  | tst (f : AF)
  /-- 0x144 TZERO (R243) -/
  | tzero (f : RF)
  /-- 0x145 TMOV (R243) -/
  | tmov (f : RF)
  /-- 0x146 AZERO (R243) -/
  | azero (f : RF)
  /-- 0x147 MMA (R249) -/
  | mma (f : AF)
  /-- 0x148 MMAS (R250) -/
  | mmas (f : AF)
  /-- 0x149 MMAP (R251) -/
  | mmap (f : AF)
  /-- 0x14A MDRAIN (R256) -/
  | mdrain (f : AF)
  /-- 0x14B MDRAIN_P (R261) -/
  | mdrainP (f : AF)
  /-- 0x14C MFENCE_OP (R245) -/
  | mfenceOp
  /-- 0x14D MFENCE_ACC (R246) -/
  | mfenceAcc (f : MfenceAccF)
  /-- 0x14E MACT (R260) -/
  | mact (f : AF)
  /-- 0x14F MDTAB (R254) -/
  | mdtab (f : AF)
  /-- 0x150 VCVT (R263) -/
  | vcvt (f : RF)
  /-- 0x151 VCVT_ACC (R264) -/
  | vcvtAcc (f : RF)
  /-- 0x158 BDSET (R265) -/
  | bdset (f : RF)
  /-- 0x159 TTPROG (R267) -/
  | ttprog (f : AF)
  /-- 0x15A TTBUF (R268) -/
  | ttbuf (f : AF)
  /-- 0x15B TTSTEP (R270) -/
  | ttstep (f : AF)
  /-- 0x15C TTRUN (R270) -/
  | ttrun (f : AF)
  /-- 0x180 RBOX (R299) -/
  | rbox (f : RF)
  /-- 0x181 RTRI (R300) -/
  | rtri (f : RF)
  /-- 0x182 TSINIT (R302) -/
  | tsinit (f : RF)
  /-- 0x183 TSPUSH (R303) -/
  | tspush (f : RF)
  /-- 0x184 TSPOP (R304) -/
  | tspop (f : RF)
  /-- 0x185 NMWALK (R305) -/
  | nmwalk (f : AF)
  /-- 0x190 WADD (R310) -/
  | wadd (f : RF)
  /-- 0x191 WSUB (R310) -/
  | wsub (f : RF)
  /-- 0x192 WMUL (R310) -/
  | wmul (f : RF)
  /-- 0x193 WFMA (R310) -/
  | wfma (f : RF)
  /-- 0x194 WMIN (R310) -/
  | wmin (f : RF)
  /-- 0x195 WMAX (R310) -/
  | wmax (f : RF)
  /-- 0x196 WEXP (R310) -/
  | wexp (f : RF)
  /-- 0x197 WSPL (R311) -/
  | wspl (f : RF)
  /-- 0x198 WGET (R312) -/
  | wget (f : RF)
  /-- 0x199 WSET (R312) -/
  | wset (f : RF)
  /-- 0x19A WSUM (R313) -/
  | wsum (f : RF)
  /-- 0x19B WMM (R314) -/
  | wmm (f : RF)
  /-- 0x19C SXL (R316) -/
  | sxl (f : RF)
  /-- 0x19D SXLG (R316) -/
  | sxlg (f : RF)
  /-- 0x19E FILMADD (R318) -/
  | filmadd (f : MF)
  /-- 0x1A0 WADD_V (R310) -/
  | waddV (f : RF)
  /-- 0x1A1 WSUB_V (R310) -/
  | wsubV (f : RF)
  /-- 0x1A2 WMUL_V (R310) -/
  | wmulV (f : RF)
  /-- 0x1A3 WFMA_V (R310) -/
  | wfmaV (f : RF)
  /-- 0x1A4 WMIN_V (R310) -/
  | wminV (f : RF)
  /-- 0x1A5 WMAX_V (R310) -/
  | wmaxV (f : RF)
  /-- 0x1C0 SPAWN (R321) -/
  | spawn (f : SpawnF)
  /-- 0x1C1 SPAWNC (R321) -/
  | spawnc (f : SpawncF)
  /-- 0x1C2 SPAWNR (R321) -/
  | spawnr (f : SpawnrF)
  /-- 0x1C3 TNEXT (R322) -/
  | tnext (f : TnextF)
  /-- 0x1C4 TRES (R323) -/
  | tres (f : TresF)
  /-- 0x1C5 TCOMMIT (R324) -/
  | tcommit (f : TdstF)
  /-- 0x1C6 TCANCEL (R324) -/
  | tcancel (f : TdstF)
  /-- 0x1C7 TEND (R325) -/
  | tend
  /-- 0x1D0 LDRED (R327) -/
  | ldred (f : MF)
  /-- 0x1D1 LDRED_F32 (R327) -/
  | ldredF32 (f : MF)
  /-- 0x1D2 MOOTA (R328) -/
  | moota (f : MootaF)
  /-- 0x1D3 MOOTD (R329) -/
  | mootd
  /-- 0x1D4 MOOTQ (R330) -/
  | mootq (f : MootqF)
  /-- 0x1E0 MFSR (R62) -/
  | mfsr (f : RF)
  /-- 0x1E1 MTSR (R62) -/
  | mtsr (f : RF)
  /-- 0x1E2 MTSR_I (R62) -/
  | mtsrI (f : IF)
  /-- 0x1E3 SRM (R62) -/
  | srm (f : IF)
  /-- 0x1E4 TRAP (R62) -/
  | trap (f : IF)
  /-- 0x1E5 BKPT (R62) -/
  | bkpt (f : IF)
  /-- 0x1E6 ERET (R63) -/
  | eret
  /-- 0x1E8 PTPRD (R331) -/
  | ptprd (f : RF)
  /-- 0x1E9 FRAMEC (R332) -/
  | framec (f : FramecF)
  /-- 0x1EA SNAP (R333) -/
  | snap (f : SnapF)
  /-- event CLAUSE_START (R23) -/
  | clauseStart (core part pipe : Nat)
  /-- event PATH_RESUME (R11) -/
  | pathResume (uid : Nat) (second : Bool)
  /-- event MEMORY_RESPONSE (R187) -/
  | memoryResponse (id : Nat) (pieces : List Nat)
  /-- event STORE_PERFORM (R221) -/
  | storePerform (id : Nat) (pieces : List Nat)
  /-- event DELIVERED_FAULT (R101) -/
  | deliveredFault (uid : Nat) (second : Bool)
  /-- event PAGER_RESOLVE (R422) -/
  | pagerResolve (token : Nat)
  /-- event PAGER_REJECT (R422) -/
  | pagerReject (token : Nat)
  /-- event COPY_UNITS_LAND (R138) -/
  | copyUnitsLand (op : Nat) (elems : List Nat)
  /-- event COPY_FAULT (R139) -/
  | copyFault (op elem : Nat)
  /-- event ASYNC_OP_COMPLETE (R144) -/
  | asyncOpComplete (op : Nat)
  /-- event ENGINE_OP_START (R282) -/
  | engineOpStart (op : Nat)
  /-- event PAIR_OP_START (R285) -/
  | pairOpStart (op : Nat)
  /-- event ENGINE_OP_COMPLETE (R281) -/
  | engineOpComplete (op : Nat)
  /-- event SEQUENCER_STEP (R271) -/
  | sequencerStep (op : Nat)
  /-- event NM_WALK_PASS (R341) -/
  | nmWalkPass (op ray : Nat)
  /-- event NM_WALK_COMPLETE (R307) -/
  | nmWalkComplete (op : Nat)
  /-- event WAIT_EVALUATE (R154) -/
  | waitEvaluate (uid : Nat) (second : Bool)
  /-- event WAIT_TIMEOUT (R154) -/
  | waitTimeout (uid : Nat) (second : Bool)
  /-- event MOOTA_TIMEOUT (R328) -/
  | mootaTimeout (uid : Nat) (second : Bool)
  /-- event GANG_ATTACH_COMPLETE (R328) -/
  | gangAttachComplete (gid : Nat)
  /-- event BLOCK_PLACE (R367) -/
  | blockPlace (launch : Nat) (places : List Nat)
  /-- event BLOCK_START (R369) -/
  | blockStart (block : Nat)
  /-- event BLOCK_EXIT (R275) -/
  | blockExit (block : Nat)
  /-- event LAUNCH_COMPLETE (R364) -/
  | launchComplete (launch : Nat)
  /-- event LAUNCH_ACCEPT (R362) -/
  | launchAccept (queue : Nat)
  /-- event DEPENDENCE_READ (R363) -/
  | dependenceRead (launch dep : Nat)
  /-- event DOORBELL (R416) -/
  | doorbell (fn queue addr : Nat)
  /-- event QCTL_WRITE (R416) -/
  | qctlWrite (fn queue value : Nat)
  /-- event STFAULT_CLEAR (R416) -/
  | stfaultClear (fn queue value : Nat)
  /-- event GANG_TURN_GRANT (R371) -/
  | gangTurnGrant (gid : Nat)
  /-- event GANG_START (R371) -/
  | gangStart (gid : Nat)
  /-- event GANG_ABANDON (R371) -/
  | gangAbandon (gid : Nat)
  /-- event PREEMPT_WAIT_EXPIRY (R383) -/
  | preemptWaitExpiry (launch : Nat)
  /-- event PREEMPT_SWAP (R106) -/
  | preemptSwap (launch : Nat) (places : List Nat)
  /-- event BANK_EXCHANGE (R106) -/
  | bankExchange (core : Nat)
  /-- event SWAP_BACK (R107) -/
  | swapBack (core : Nat)
  /-- event CONTEXT_SAVE (R108) -/
  | contextSave (block : Nat)
  /-- event CONTEXT_RESTORE (R384) -/
  | contextRestore (block : Nat) (places : List Nat)
  /-- event TASK_WAVE_START (R379) -/
  | taskWaveStart (core slot record : Nat)
  /-- event TASK_GATHER_TIMEOUT (R379) -/
  | taskGatherTimeout (core : Nat)
  /-- event WORK_REQUEST (R380) -/
  | workRequest (core donor : Nat)
  /-- event FUTURE_RESUME (R382) -/
  | futureResume (uid slot : Nat)
  /-- event TRIGGER_EVALUATE (R349) -/
  | triggerEvaluate
  /-- event FRAME_DEADLINE (R351) -/
  | frameDeadline (stream : Nat)
  /-- event STREAM_ENABLE (R350) -/
  | streamEnable (stream : Nat)
  /-- event STREAM_DISABLE (R350) -/
  | streamDisable (stream : Nat)
  /-- event PTP_MESSAGE_RECEIVE (R432) -/
  | ptpMessageReceive (offset : Int)
  /-- event SNAPGO (R429) -/
  | snapgo (tag : Nat)
  /-- event SNAP_PTP_FIRE (R429) -/
  | snapPtpFire
  /-- event SNAP_BUSY_CLEAR (R429) -/
  | snapBusyClear
  /-- event POWER_SAMPLE (R431) -/
  | powerSample (watts : Nat) (temp : Int)
  /-- event THERMAL_TRIP (R431) -/
  | thermalTrip
  /-- event MODULE_RESET (R418) -/
  | moduleReset (powerOn : Bool)
  /-- event MODRESET (R415) -/
  | modreset (value : Nat)
  /-- event VF_FUNCTION_LEVEL_RESET (R418) -/
  | vfFunctionLevelReset (fn : Nat)
  /-- event BRING_UP_COMPLETE (R419) -/
  | bringUpComplete
  /-- event INVGO (R421) -/
  | invgo
  /-- event INVALIDATION_COMPLETE (R421) -/
  | invalidationComplete
  /-- event SENSORS (R425) -/
  | sensors (len tag : Nat)
  /-- event LOGREAD (R425) -/
  | logread (len tag : Nat)
  /-- event FWSTAGE (R425) -/
  | fwstage (len tag : Nat)
  /-- event FWCOMMIT (R427) -/
  | fwcommit (len tag : Nat)
  /-- event MEASURE (R425) -/
  | measure (len tag : Nat)
  /-- event EXTEND (R428) -/
  | extend (len tag : Nat)
  /-- event QUOTE (R428) -/
  | quote (len tag : Nat)
  /-- event PTPCFG (R432) -/
  | ptpcfg (len tag : Nat)
  /-- event MAILBOX_COMPLETE (R425) -/
  | mailboxComplete
  /-- event LOG_PERSIST (R426) -/
  | logPersist (n : Nat)
  /-- event HOST_ACCESS (R231) -/
  | hostAccess (op : Nat) (hostMem : Bool) (addr n data : Nat)
  /-- event REGISTER_WRITE (R6) -/
  | registerWrite (fn off n value : Nat)
  /-- event FABRIC_LINK_UP (R395) -/
  | fabricLinkUp (pkgid incarn : Nat)
  /-- event STATION_STATE_CHANGE (R389) -/
  | stationStateChange (station : Nat) (up : Bool)
  /-- event FABRIC_PACKET_RECEIVE (R395) -/
  | fabricPacketReceive (incarn src seq kind gid addr n data : Nat)
  /-- event IDLE_BEAT (R396) -/
  | idleBeat (station : Nat)
  /-- event FABRIC_RESEND (R394) -/
  | fabricResend (id : Nat)
  /-- event KEEP_WAITING_NOTICE (R398) -/
  | keepWaitingNotice (id : Nat)
  /-- event REMOTE_TIMEOUT (R399) -/
  | remoteTimeout (id : Nat)
  /-- event DEPARTURE_NOTICE (R405) -/
  | departureNotice (gid : Nat) (ranks : List Nat)
  /-- event LOSS_OF_LOCK (R347) -/
  | lossOfLock
  /-- event CHECK_BIT_ERROR (R109) -/
  | checkBitError (place core slot reg lane byte : Nat) (corrected : Bool)
  /-- event PQTAIL_WRITE (R422) -/
  | pqtailWrite (value : Nat)
deriving DecidableEq, Repr

end Sys2Proof
end

