-- ==== Sys2Proof/Machine/Layout.lean ====
section
/-! DEFINITION. What each instruction accepts: its operand positions (classes, runs of registers, alignment), the MOD bits,
flags and values of its fields (01 R26-R36 and the encoding rule of each instruction). Decode checks, well-formedness
and the scoreboard all read this one table. -/

namespace Sys2Proof.Machine

open Sys2Proof (Operand RF IF MF BF AF Instr Fmt)

/-- Register class of an operand (01 R33, R34): `z` is `zero`, `lane` the per-lane special, `sp` the other specials. -/
inductive Cls where
  | s | e | c | sp | z | lane | v | w | t | acc | h | d | p
deriving DecidableEq, Repr

/-- How an instruction uses a register; `nm` for a run that is checked as named and not used (13 R316). -/
inductive Role where
  | rd | wr | rw | nm
deriving DecidableEq, Repr

/-- One operand position: the operand, the classes accepted (01 R35), how many consecutive registers it names, their
alignment (01 R29, 13 R295), and its use. -/
structure Pos where
  op : Operand
  ok : List Cls
  n : Nat
  al : Nat
  role : Role
deriving DecidableEq, Repr

/-- The decode facts of an instruction: a reserved field is nonzero or holds an unassigned value; its operand positions in
field order; a further illegal-operand rule is broken; it is legal only in trap mode; it is illegal in trap mode. -/
structure Chk where
  res : Bool
  pos : List Pos
  ill : Bool := false
  tm : Bool := false
  noTm : Bool := false
deriving DecidableEq, Repr

/-- `ClassOf` of 01 R41. -/
def clsOf : Operand → Cls
  | .s _ => .s
  | .sp i => if i = 0 then .z else if i = 2 then .lane else .sp
  | .v _ => .v
  | .w _ => .w
  | .t _ => .t
  | .acc _ => .acc
  | .h _ => .h
  | .d _ => .d
  | .p _ => .p
  | .e _ => .e
  | .c _ => .c

/-- Index of a register within its class. -/
def idxOf : Operand → Nat
  | .s i => i
  | .sp i => i
  | .v i => i
  | .w i => i
  | .t i => i
  | .acc i => i
  | .h i => i
  | .d i => i
  | .p i => i
  | .e i => i
  | .c i => i

/-- Registers in a class (01 R33). -/
def clsSize : Cls → Nat
  | .s => 384
  | .e => 16
  | .v => 256
  | .w => 32
  | .t => 16
  | .acc => 16
  | .h => 16
  | .d => 8
  | .p => 8
  | _ => 1024

/-- Does the position accept its operand: its class, its alignment, and the run inside the register file? A run of vector
registers that passes v255 passes the window, which the decoder checks, as it does trap scalars outside trap mode (01 R35,
13 R295). -/
def Pos.legal (x : Pos) : Bool :=
  x.ok.contains (clsOf x.op) &&
    (match clsOf x.op with
     | .c => true
     | .z => true
     | .sp => true
     | .lane => true
     | .v => idxOf x.op % x.al == 0
     | k => idxOf x.op % x.al == 0 && idxOf x.op + x.n ≤ clsSize k)

/-- A source. -/
def rd (o : Operand) (ok : List Cls) (n al : Nat) : List Pos := [⟨o, ok, n, al, .rd⟩]
/-- A destination. -/
def wr (o : Operand) (ok : List Cls) (n al : Nat) : List Pos := [⟨o, ok, n, al, .wr⟩]
/-- A register that is read and written. -/
def upd (o : Operand) (ok : List Cls) (n al : Nat) : List Pos := [⟨o, ok, n, al, .rw⟩]

/-- Scalar destination, with the trap scalars (02 R50). -/
def cSD : List Cls := [.s, .z, .e]
/-- Scalar source, with the trap scalars (02 R50). -/
def cSS : List Cls := [.s, .z, .sp, .c, .e]
/-- Scalar destination named sD. -/
def cD : List Cls := [.s, .z]
/-- A scalar register or a constant, neither `zero` nor another special, where a rule lists these two (DESIGN CHOICE: log 21). -/
def cSC : List Cls := [.s, .c]
/-- Lane source: a vector register, a scalar, a special or a constant (02 R64). -/
def cLS : List Cls := [.v, .s, .z, .sp, .lane, .c]
/-- Lane source that must not vary by lane (02 R64 VBCST, VLANE). -/
def cUS : List Cls := [.s, .z, .sp, .c]
/-- A 64-bit lane source: register pairs and constants (01 R41 `ReadOp64`). -/
def cV64 : List Cls := [.v, .s, .c]
/-- One scalar source or a constant, `zero` among the scalars and no other special (01 R34, 02 R82; DESIGN CHOICE: log 21). -/
def cSZC : List Cls := [.s, .z, .c]
/-- Vector register, scalar or constant, `zero` among the scalars and no other special (DESIGN CHOICE: log 21). -/
def cVSZC : List Cls := [.v, .s, .z, .c]
/-- A branch condition: a scalar or a scalar special (01 R30, R34; log 21). -/
def cCond : List Cls := [.s, .z, .sp]
/-- Spectral register or constant (13 R310). -/
def cWC : List Cls := [.w, .c]

/-- The operand a reserved operand field must hold (field value 0). -/
def nul : Operand := .s 0

/-- MOD bits (01 R27). -/
abbrev mNegA : Nat := 32
abbrev mAbsA : Nat := 16
abbrev mNegB : Nat := 8
abbrev mAbsB : Nat := 4
abbrev mNegC : Nat := 2
abbrev mSat : Nat := 1

/-- A reserved operand field holds 0, that is no position is given for it. -/
def unused (o : Operand) (p : List Pos) : Bool := p.isEmpty && o != nul

/-- R format: an empty position is a reserved field; `mods` the MOD bits accepted; `sub` says whether SUB is accepted. -/
def rChk (f : RF) (dst a b c : List Pos) (mods : Nat) (all fs sub : Bool) : Chk :=
  { res := unused f.dst dst || unused f.a a || unused f.b b || unused f.c c ||
      Nat.land f.mod.val (63 - mods) != 0 || (f.all && !all) || (f.fslot != 0 && !fs) || !sub
    pos := dst ++ a ++ b ++ c }

/-- I format: an empty position is a reserved field; `subh` says whether SUBH is accepted. -/
def iChk (f : IF) (dst a : List Pos) (subh : Bool) : Chk :=
  { res := unused f.dst dst || unused f.a a || !subh
    pos := dst ++ a }

/-- B format: an empty position is a reserved field. -/
def bChk (f : BF) (cond : List Pos) (cc w off : Bool) : Chk :=
  { res := unused f.cond cond || !cc || !w || !off
    pos := cond }

/-- A format: `fl` the FLAGS bits accepted; `ha`, `hb` whether the field names a shape register or a fragment. -/
def aChk (f : AF) (ha hb : List Pos) (haUse : Bool) (opa opb : List Pos) (fs : Bool) (fl : Nat) : Chk :=
  { res := (f.ha != 0 && !haUse && ha.isEmpty) || (f.hb != 0 && hb.isEmpty) || unused f.opa opa || unused f.opb opb ||
      (f.fslot != 0 && !fs) || Nat.land f.flags.toNat (16777215 - fl) != 0
    pos := ha ++ hb ++ opa ++ opb }

/-- FLAGS bits (01 R32). -/
abbrev flTRN : Nat := 0x800000
abbrev flZFILL : Nat := 0x400000
abbrev flSAT : Nat := 0x200000
abbrev flCSUM : Nat := 0x100000
abbrev flBIAS : Nat := 0x080000
abbrev flACT : Nat := 0x040000
abbrev flRQ : Nat := 0x020000
abbrev flCOMP : Nat := 0x010000

/-- Space codes (01 R28). -/
abbrev spDEV : Nat := 0
abbrev spPRV : Nat := 1
abbrev spSPD : Nat := 2
abbrev spCMN : Nat := 3
abbrev spGRN : Nat := 4
abbrev spPOOL : Nat := 5
abbrev spMOOT : Nat := 6

/-- DEV and POOL addresses are register pairs (01 R29). -/
def addrRegs (space : Nat) : Nat := if space = spDEV || space = spPOOL then 2 else 1

/-- The ADDR position of the M format. -/
def addrPos (f : MF) (ok : List Cls) : List Pos := rd f.addr ok (addrRegs f.space) (addrRegs f.space)

/-- The M-format values that 01 R28 and 05 R113, R114 make reserved: SCOPE above 5, ORDER above 4, SCOPE without a strong
ORDER, an ORDER outside the list accepted, a strong ORDER in PRV or of 128 bits, CACHE outside DEV and POOL. -/
def mRes (f : MF) (orders : List Nat) (wide : Bool) : Bool :=
  decide (f.scope.val > 5) || decide (f.order.val > 4) || (f.order == 0 && f.scope != 0) ||
    !orders.contains f.order.val || (f.order != 0 && f.space.val == spPRV) || (f.order != 0 && wide) ||
    (f.cache != 0 && f.space.val != spDEV && f.space.val != spPOOL)

/-- A scalar DATA register of a load or atomic with a vector ADDR is illegal (05 R111). -/
def mLoadIll (f : MF) : Bool := clsOf f.addr == .v && clsOf f.data == .s

/-- LD (05 R111, R113, R115) of `n` registers. Vector DATA with ADDR `zero`, and DATA `zero` with a vector ADDR, are forms that no
row of R111 gives: the model accepts them, as one access per active lane at address 0, and as one whose values are discarded (DESIGN
CHOICE: log 21). -/
def ldChk (f : MF) (n : Nat) : Chk :=
  { res := mRes f [0, 1, 2] (n == 4)
    pos := wr f.data [.v, .s, .z] n n ++ addrPos f [.v, .s, .z]
    ill := mLoadIll f }

/-- ST (05 R111, R113, R116) of `n` registers. Vector DATA with ADDR `zero`, which no row of R111 gives, is one access per active
lane at address 0, here and in atomics and reductions (DESIGN CHOICE: log 21). -/
def stChk (f : MF) (n : Nat) : Chk :=
  { res := mRes f [0, 1, 3] (n == 4)
    pos := rd f.data [.v, .s, .z, .c] n n ++ addrPos f [.v, .s, .z] }

/-- LDL and STL (02 R82): CACHE holds TA and ALL; `data` is the DATA position. -/
def lpChk (f : MF) (data : List Pos) : Chk :=
  { res := f.space.val != spPRV || f.scope != 0 || f.order != 0 || f.rcd != 255
    pos := data ++ rd f.addr [.v, .s, .z, .sp] 1 1
    tm := decide (f.cache.val ≥ 2) }

/-- ATOM (05 R113, R122): DATA names `n` registers. -/
def atChk (f : MF) (n : Nat) : Chk :=
  { res := mRes f [1, 2, 3, 4] false || f.rcd != 255 || f.cache != 0
    pos := upd f.data [.v, .s] n n ++ addrPos f [.v, .s, .z]
    ill := mLoadIll f }

/-- RED (05 R113, R125); a record is an encoding fault at issue (05 R119). -/
def redChk (f : MF) (n : Nat) : Chk :=
  { res := mRes f [1, 3] false
    pos := rd f.data [.v, .s, .z, .c] n n ++ addrPos f [.v, .s, .z] }

/-- CINV, CFLUSH and PREF (05 R127, R128): DATA 0x000, REC 0xFF and the CACHE values listed. -/
def cmChk (f : MF) (caches : List Nat) : Chk :=
  { res := mRes f [0] false || f.data != nul || f.rcd != 255 || !caches.contains f.cache.val
    pos := addrPos f [.v, .s, .z] }

/-- An argument group: eight scalars from a multiple of 8 at most 368 (05 R133). -/
def grpPos (o : Operand) : List Pos := rd o [.s] 8 8

/-- The index of an argument group lies above 368. -/
def grpIll (o : Operand) : Bool := clsOf o == .s && decide (idxOf o > 368)

/-- The system-register numbers assigned (02 R59). -/
def sysNums : List Nat := [0, 1, 2, 3, 4, 5, 6, 7, 0x10, 0x11, 0x12, 0x13, 0x18, 0x19, 0x1A]

/-- The raw number in SRCA of a system-register instruction is unassigned (02 R59). -/
def sysBad (o : Operand) : Bool := clsOf o != .s || !sysNums.contains (idxOf o)

/-- The system register is one that only trap mode may name (02 R59). -/
def sysTrap (o : Operand) : Bool := clsOf o == .s && decide (1 ≤ idxOf o) && decide (idxOf o ≤ 7)

/-- A 10-bit operand field's register (01 R33); none for an unassigned value. -/
def ofField (x : Nat) : Option Operand :=
  if h : x < 384 then some (.s ⟨x, h⟩)
  else if h : x - 384 < 11 then some (.sp ⟨x - 384, h⟩)
  else if x < 512 then none
  else if h : x - 512 < 256 then some (.v ⟨x - 512, h⟩)
  else if h : x - 768 < 32 then some (.w ⟨x - 768, h⟩)
  else if h : x - 800 < 16 then some (.t ⟨x - 800, h⟩)
  else if h : x - 816 < 16 then some (.acc ⟨x - 816, h⟩)
  else if h : x - 832 < 16 then some (.h ⟨x - 832, h⟩)
  else if h : x - 848 < 8 then some (.d ⟨x - 848, h⟩)
  else if h : x - 856 < 8 then some (.p ⟨x - 856, h⟩)
  else if h : x - 864 < 16 then some (.e ⟨x - 864, h⟩)
  else if x < 896 then none
  else if h : x - 896 < 128 then some (.c ⟨x - 896, h⟩)
  else none

/-- The 10-bit field value of an operand (01 R33). -/
def toField : Operand → Nat
  | .s i => i.val
  | .sp i => 384 + i.val
  | .v i => 512 + i.val
  | .w i => 768 + i.val
  | .t i => 800 + i.val
  | .acc i => 816 + i.val
  | .h i => 832 + i.val
  | .d i => 848 + i.val
  | .p i => 856 + i.val
  | .e i => 864 + i.val
  | .c i => 896 + i.val

/-- The register SG in FLAGS bits [10:1] of MMAS and MMAP (10 R247). -/
def sgOf (f : AF) : Option Operand := ofField (fld f.flags.toNat 1 10)

/-- The SG position, where the field names an operand; it and the next scalar are read (10 R250). -/
def sgPos (f : AF) : List Pos :=
  match sgOf f with
  | some o => rd o [.s] 2 1
  | none => []

/-- Shape register n as an operand. -/
def hReg (n : Fin 16) : Operand := .h n

/-- All shape and bond registers, which TTSTEP and TTRUN capture (10 R270). -/
def allShapes : List Pos :=
  ((List.finRange 16).map fun i => ⟨.h i, [.h], 1, 1, .rd⟩) ++ ((List.finRange 8).map fun i => ⟨.d i, [.d], 1, 1, .rd⟩)

/-- All condition flags. -/
def allFlags (r : Role) : List Pos := (List.finRange 8).map fun i => ⟨.p i, [.p], 1, 1, r⟩

/-- A rounding selector of 02 R69: 0 to 5. -/
def rmSub (f : RF) : Bool := decide (f.sub.val ≤ 5)

/-- The window link register lk (01 R33). -/
def lkReg : Operand := .s 383

/-- The one-operand lane forms. -/
def lane1 (f : RF) (mods : Nat) (sub : Bool) : Chk := rChk f (wr f.dst [.v] 1 1) (rd f.a cLS 1 1) [] [] mods true false sub
/-- The two-operand lane forms. -/
def lane2 (f : RF) (mods : Nat) (sub : Bool) : Chk :=
  rChk f (wr f.dst [.v] 1 1) (rd f.a cLS 1 1) (rd f.b cLS 1 1) [] mods true false sub
/-- The three-operand lane forms. -/
def lane3 (f : RF) (mods : Nat) (sub : Bool) : Chk :=
  rChk f (wr f.dst [.v] 1 1) (rd f.a cLS 1 1) (rd f.b cLS 1 1) (rd f.c cLS 1 1) mods true false sub
/-- The lane I forms. -/
def laneI (f : IF) (subh : Bool) : Chk := iChk f (wr f.dst [.v] 1 1) (rd f.a cLS 1 1) subh
/-- The two-operand scalar forms. -/
def sc2 (f : RF) (sub : Bool) : Chk := rChk f (wr f.dst cSD 1 1) (rd f.a cSS 1 1) (rd f.b cSS 1 1) [] 0 false false sub
/-- The one-operand scalar forms. -/
def sc1 (f : RF) : Chk := rChk f (wr f.dst cSD 1 1) (rd f.a cSS 1 1) [] [] 0 false false (f.sub == 0)
/-- The scalar I forms. -/
def scI (f : IF) (subh : Bool) : Chk := iChk f (wr f.dst cSD 1 1) (rd f.a cSS 1 1) subh
/-- The 64-bit scalar forms on two pairs. -/
def sc64 (f : RF) (sub : Bool) : Chk := rChk f (wr f.dst [.s] 2 2) (rd f.a cSC 2 2) (rd f.b cSC 2 2) [] 0 false false sub
/-- The 64-bit scalar shifts and SADDA. -/
def sh64 (f : RF) : Chk := rChk f (wr f.dst [.s] 2 2) (rd f.a cSC 2 2) (rd f.b cSS 1 1) [] 0 false false (f.sub == 0)
/-- FP MOD bits of one, two and three sources, with SAT (02 R69). -/
abbrev mF1 : Nat := mNegA + mAbsA + mSat
abbrev mF2 : Nat := mF1 + mNegB + mAbsB
abbrev mF3 : Nat := mF2 + mNegC
/-- The coordinates of SXL and SXLG: a run of four is named, three of it are read (13 R316; log 54). -/
def texPos (o : Operand) : List Pos := ⟨o, [.v], 4, 4, .nm⟩ :: rd o [.v] 3 4
/-- The packet forms on w registers (13 R310). -/
def w2 (f : RF) (b : List Cls) (sub : Bool) : Chk :=
  rChk f (wr f.dst [.w] 1 1) (rd f.a cWC 1 1) (rd f.b b 1 1) [] mF2 true false sub
/-- WFMA and WFMA.V (13 R310). -/
def w3 (f : RF) (b : List Cls) : Chk :=
  rChk f (wr f.dst [.w] 1 1) (rd f.a cWC 1 1) (rd f.b b 1 1) (rd f.c cWC 1 1) mF3 true false (rmSub f)
/-- MDRAIN and MDRAIN.P (10 R256, R258). -/
def drChk (f : AF) : Chk :=
  let k := aChk f (rd (hReg f.ha) [.h] 1 1) [] true (rd f.opa [.acc] 1 1) (grpPos f.opb) true
    (flTRN + flSAT + flBIAS + flACT + flRQ + flCOMP + 3)
  { k with
    res := k.res || (f.flags.getLsbD 1 && (f.flags.getLsbD 18 || f.flags.getLsbD 16))
    ill := grpIll f.opb }
/-- LDRED and LDRED.F32 (13 R327). -/
def lrChk (f : MF) : Chk :=
  { res := mRes f [0, 1, 2] false || f.cache != 0 || f.rcd == 255
    pos := wr f.data [.v, .s] 2 2 ++ addrPos f [.v, .s, .z]
    ill := mLoadIll f }

/-- Decode facts of the R-format opcodes. -/
def chkR (op : Nat) (f : RF) : Chk :=
  match op with
  -- SADD
  | 0x001 => sc2 f (f.sub == 0)
  -- SSUB
  | 0x002 => sc2 f (f.sub == 0)
  -- SMUL
  | 0x003 => sc2 f (f.sub == 0)
  -- SMULH
  | 0x004 => sc2 f (decide (f.sub.val ≤ 1))
  -- SDIVU
  | 0x005 => sc2 f (f.sub == 0)
  -- SREMU
  | 0x006 => sc2 f (f.sub == 0)
  -- SMIN
  | 0x007 => sc2 f (decide (f.sub.val ≤ 1))
  -- SMAX
  | 0x008 => sc2 f (decide (f.sub.val ≤ 1))
  -- SAND
  | 0x009 => sc2 f (f.sub == 0)
  -- SOR
  | 0x00A => sc2 f (f.sub == 0)
  -- SXOR
  | 0x00B => sc2 f (f.sub == 0)
  -- SNOT
  | 0x00C => sc1 f
  -- SSHL
  | 0x00D => sc2 f (f.sub == 0)
  -- SSHR
  | 0x00E => sc2 f (f.sub == 0)
  -- SSRA
  | 0x00F => sc2 f (f.sub == 0)
  -- SCLZ
  | 0x010 => sc1 f
  -- SPOPC
  | 0x011 => sc1 f
  -- SCMP
  | 0x012 => sc2 f (decide (f.sub.val ≤ 9))
  -- SSEL
  | 0x013 => rChk f (wr f.dst cSD 1 1) (rd f.a cSS 1 1) (rd f.b cSS 1 1) (rd f.c cSS 1 1) 0 false false (f.sub == 0)
  -- SMOV
  | 0x014 => sc1 f
  -- SADDA
  | 0x015 => sh64 f
  -- SADD_64
  | 0x040 => sc64 f (f.sub == 0)
  -- SSUB_64
  | 0x041 => sc64 f (f.sub == 0)
  -- SMUL_64
  | 0x042 => sc64 f (f.sub == 0)
  -- SMIN_64
  | 0x043 => sc64 f (decide (f.sub.val ≤ 1))
  -- SMAX_64
  | 0x044 => sc64 f (decide (f.sub.val ≤ 1))
  -- SAND_64
  | 0x045 => sc64 f (f.sub == 0)
  -- SOR_64
  | 0x046 => sc64 f (f.sub == 0)
  -- SXOR_64
  | 0x047 => sc64 f (f.sub == 0)
  -- SSHL_64
  | 0x048 => sh64 f
  -- SSHR_64
  | 0x049 => sh64 f
  -- SSRA_64
  | 0x04A => sh64 f
  -- SCMP_64
  | 0x04B => rChk f (wr f.dst cSD 1 1) (rd f.a cSC 2 2) (rd f.b cSC 2 2) [] 0 false false (decide (f.sub.val ≤ 9))
  -- SMOV_64
  | 0x04C => rChk f (wr f.dst [.s] 2 2) (rd f.a cSC 2 2) [] [] 0 false false (f.sub == 0)
  -- PPUSH
  | 0x060 => rChk f [] (rd f.a [.p] 1 1) [] [] 0 false false (decide (f.sub.val ≤ 1))
  -- PINV
  | 0x061 => rChk f [] [] [] [] 0 false false (f.sub == 0)
  -- PPOP
  | 0x062 => rChk f [] [] [] [] 0 false false (decide (f.sub.val ≤ 15))
  -- PSET: SRCA of `.FROM` takes the specials, laneid among them, as every lane source does (DESIGN CHOICE: log 21)
  | 0x063 =>
    rChk f (wr f.dst [.p] 1 1)
      (if f.sub.val = 0 then rd f.a cLS 1 1 else if f.sub.val ≤ 5 then rd f.a [.p] 1 1 else [])
      (if 1 ≤ f.sub.val && f.sub.val ≤ 4 then rd f.b [.p] 1 1 else []) [] 0 true false (decide (f.sub.val ≤ 7))
  -- PPACK
  | 0x064 =>
    let k := rChk f (wr f.dst [.v] 1 1) [] [] [] 0 true false (f.sub == 0)
    { k with pos := k.pos ++ allFlags .rd }
  -- PUNPK
  | 0x065 =>
    let k := rChk f [] (rd f.a [.v] 1 1) [] [] 0 true false (f.sub == 0)
    { k with pos := k.pos ++ allFlags .wr }
  -- PANY
  | 0x066 => rChk f (wr f.dst cD 1 1) (rd f.a [.p] 1 1) [] [] 0 true false (decide (f.sub.val ≤ 1))
  -- PALL
  | 0x067 => rChk f (wr f.dst cD 1 1) (rd f.a [.p] 1 1) [] [] 0 true false (f.sub == 0)
  -- VADD
  | 0x080 => lane2 f mSat (decide (f.sub.val ≤ 1))
  -- VSUB
  | 0x081 => lane2 f mSat (decide (f.sub.val ≤ 1))
  -- VMUL
  | 0x082 => lane2 f 0 (f.sub == 0)
  -- VMULH
  | 0x083 => lane2 f 0 (decide (f.sub.val ≤ 1))
  -- VMAD
  | 0x084 => lane3 f 0 (f.sub == 0)
  -- VMIN
  | 0x085 => lane2 f 0 (decide (f.sub.val ≤ 1))
  -- VMAX
  | 0x086 => lane2 f 0 (decide (f.sub.val ≤ 1))
  -- VAND
  | 0x087 => lane2 f 0 (f.sub == 0)
  -- VOR
  | 0x088 => lane2 f 0 (f.sub == 0)
  -- VXOR
  | 0x089 => lane2 f 0 (f.sub == 0)
  -- VNOT
  | 0x08A => lane1 f 0 (f.sub == 0)
  -- VSHL
  | 0x08B => lane2 f 0 (f.sub == 0)
  -- VSHR
  | 0x08C => lane2 f 0 (f.sub == 0)
  -- VSRA
  | 0x08D => lane2 f 0 (f.sub == 0)
  -- VCLZ
  | 0x08E => lane1 f 0 (f.sub == 0)
  -- VPOPC
  | 0x08F => lane1 f 0 (f.sub == 0)
  -- VCMP
  | 0x090 => rChk f (wr f.dst [.p] 1 1) (rd f.a cLS 1 1) (rd f.b cLS 1 1) [] 0 true false (decide (f.sub.val ≤ 9))
  -- VSEL
  | 0x091 => rChk f (wr f.dst [.v] 1 1) (rd f.a cLS 1 1) (rd f.b cLS 1 1) (rd f.c [.p] 1 1) 0 true false (f.sub == 0)
  -- VMOV
  | 0x092 => lane1 f 0 (f.sub == 0)
  -- VBCST
  | 0x093 => rChk f (wr f.dst [.v] 1 1) (rd f.a cLS 1 1) (rd f.b cUS 1 1) [] 0 true false (f.sub == 0)
  -- VLANE
  | 0x094 => rChk f (wr f.dst cD 1 1) (rd f.a cLS 1 1) (rd f.b cUS 1 1) [] 0 true false (f.sub == 0)
  -- VSHFL
  | 0x095 => lane2 f 0 (decide (f.sub.val ≤ 3))
  -- VRED
  | 0x096 => rChk f (wr f.dst cD 1 1) (rd f.a cLS 1 1) [] [] 0 true false (decide (f.sub.val ≤ 7))
  -- VSCAN
  | 0x097 => lane1 f 0 (decide (f.sub.val ≤ 15))
  -- VADD_64
  | 0x0B0 => rChk f (wr f.dst [.v] 2 2) (rd f.a cV64 2 2) (rd f.b cV64 2 2) [] 0 true false (f.sub == 0)
  -- VSHL_64
  | 0x0B1 => rChk f (wr f.dst [.v] 2 2) (rd f.a cV64 2 2) (rd f.b cLS 1 1) [] 0 true false (f.sub == 0)
  -- VRED_F
  | 0x0B2 => rChk f (wr f.dst cD 1 1) (rd f.a cLS 1 1) [] [] 0 false false (decide (f.sub.val ≤ 2))
  -- VSCAN_F
  | 0x0B3 =>
    rChk f (wr f.dst [.v] 1 1) (rd f.a cLS 1 1) [] [] 0 false false (decide (f.sub.val % 8 ≤ 2) && decide (f.sub.val < 16))
  -- FADD
  | 0x0C0 => lane2 f mF2 (rmSub f)
  -- FSUB
  | 0x0C1 => lane2 f mF2 (rmSub f)
  -- FMUL
  | 0x0C2 => lane2 f mF2 (rmSub f)
  -- FFMA
  | 0x0C3 => lane3 f mF3 (rmSub f)
  -- FMIN
  | 0x0C4 => lane2 f mF2 (f.sub == 0)
  -- FMAX
  | 0x0C5 => lane2 f mF2 (f.sub == 0)
  -- FCMP
  | 0x0C6 =>
    rChk f (wr f.dst [.p] 1 1) (rd f.a cLS 1 1) (rd f.b cLS 1 1) [] mF2 true false (decide (f.sub.val ≤ 7))
  -- FRCP
  | 0x0C7 => lane1 f mF1 (rmSub f)
  -- FRSQ
  | 0x0C8 => lane1 f mF1 (rmSub f)
  -- FSQRT
  | 0x0C9 => lane1 f mF1 (rmSub f)
  -- FEXP2
  | 0x0CA => lane1 f mF1 (rmSub f)
  -- FLOG2
  | 0x0CB => lane1 f mF1 (rmSub f)
  -- FSIN
  | 0x0CC => lane1 f mF1 (rmSub f)
  -- FCOS
  | 0x0CD => lane1 f mF1 (rmSub f)
  -- FRND
  | 0x0CE => lane1 f mF1 (rmSub f)
  -- FCVT
  | 0x0CF =>
    rChk f (wr f.dst [.v] 1 1) (rd f.a cLS 1 1) [] [] (if f.sub.val = 2 || f.sub.val = 3 then mSat else mF1) true true
      (decide (f.sub.val ≤ 9) && decide (f.fslot.val ≤ 5))
  -- FADD_H2
  | 0x0E0 => lane2 f mF2 (rmSub f)
  -- FSUB_H2
  | 0x0E1 => lane2 f mF2 (rmSub f)
  -- FMUL_H2
  | 0x0E2 => lane2 f mF2 (rmSub f)
  -- FFMA_H2
  | 0x0E3 => lane3 f mF3 (rmSub f)
  -- FMIN_H2
  | 0x0E4 => lane2 f mF2 (f.sub == 0)
  -- FMAX_H2
  | 0x0E5 => lane2 f mF2 (f.sub == 0)
  -- FADD_B2
  | 0x0E6 => lane2 f mF2 (rmSub f)
  -- FSUB_B2
  | 0x0E7 => lane2 f mF2 (rmSub f)
  -- FMUL_B2
  | 0x0E8 => lane2 f mF2 (rmSub f)
  -- FFMA_B2
  | 0x0E9 => lane3 f mF3 (rmSub f)
  -- FMIN_B2
  | 0x0EA => lane2 f mF2 (f.sub == 0)
  -- FMAX_B2
  | 0x0EB => lane2 f mF2 (f.sub == 0)
  -- VDOT4
  | 0x0EC => lane3 f (if f.sub.val ≤ 2 then mSat else 0) (decide (f.sub.val ≤ 6))
  -- VDOT8
  | 0x0ED => lane3 f (if f.sub.val = 0 then mSat else 0) (decide (f.sub.val ≤ 1))
  -- VPK
  | 0x0EE => rChk f (wr f.dst [.v] 1 1) (rd f.a cLS 1 1) (rd f.b cLS 1 1) [] 0 true true (decide (f.sub.val ≤ 7))
  -- VUPK
  | 0x0EF => rChk f (wr f.dst [.v] 1 1) (rd f.a cLS 1 1) [] [] 0 true true (decide (f.sub.val ≤ 7))
  -- HSETF
  | 0x134 =>
    let n := if [0, 13, 14, 15, 16].contains f.sub.val then 2 else 1
    rChk f (upd f.dst [.h] 1 1) (rd f.a cSC n n) [] [] 0 false false (decide (f.sub.val ≤ 21))
  -- HGETF
  | 0x135 =>
    let n := if [0, 13, 14, 15, 16].contains f.sub.val then 2 else 1
    rChk f (wr f.dst cD n n) (rd f.a [.h] 1 1) [] [] 0 false false (decide (f.sub.val ≤ 21))
  -- MTTC
  | 0x140 =>
    let k := rChk f [⟨f.dst, [.t], 1, 1, .wr⟩] (rd f.a cUS 1 1) [] [] 0 false false (decide (f.sub.val ≤ 5))
    { k with res := k.res || (f.sub.val == 5 && f.dst != .t 0) }
  -- TZERO
  | 0x144 => rChk f (wr f.dst [.t] 1 1) [] [] [] 0 false false (f.sub == 0)
  -- TMOV
  | 0x145 => rChk f (wr f.dst [.t] 1 1) (rd f.a [.t] 1 1) [] [] 0 false false (f.sub == 0)
  -- AZERO
  | 0x146 => rChk f (wr f.dst [.acc] 1 1) [] [] [] 0 false false (f.sub == 0)
  -- VCVT
  | 0x150 =>
    rChk f (wr f.dst [.t] 1 1) (rd f.a cVSZC 1 1) (rd f.b cSZC 1 1) (rd f.c cSZC 1 1) mSat true true (f.sub == 0)
  -- VCVT_ACC
  | 0x151 =>
    rChk f (wr f.dst [.v] 1 1) (rd f.a [.acc] 1 1) (rd f.b cSZC 1 1) (rd f.c cSZC 1 1) 0 true false (f.sub == 0)
  -- BDSET
  | 0x158 => rChk f (wr f.dst [.d] 1 1) (rd f.a cSZC 1 1) [] [] 0 false false (f.sub == 0)
  -- RBOX
  | 0x180 =>
    rChk f (wr f.dst [.v] 8 8) (rd f.a [.v] 8 8) (rd f.b cVSZC 1 1) (rd f.c [.s] 2 2) 0 false false (f.sub == 0)
  -- RTRI
  | 0x181 =>
    rChk f (wr f.dst [.v] 4 4) (rd f.a [.v] 8 8) (rd f.b cVSZC 1 1) (rd f.c [.s] 2 2) 0 false false (decide (f.sub.val ≤ 2))
  -- TSINIT
  | 0x182 => rChk f (wr f.dst [.v] 2 2) (rd f.a cSZC 1 1) (rd f.b cSZC 1 1) [] 0 true false (f.sub == 0)
  -- TSPUSH
  | 0x183 =>
    let n := f.sub.val % 4 + 1
    rChk f (upd f.dst [.v] 2 2) [] (rd f.b [.v] n 1) (rd f.c [.v] n 1) 0 false false (decide (f.sub.val < 8))
  -- TSPOP
  | 0x184 => rChk f (wr f.dst [.v] 2 2) (upd f.a [.v] 2 2) [] [] 0 false false (f.sub == 0)
  -- WADD
  | 0x190 => w2 f cWC (rmSub f)
  -- WSUB
  | 0x191 => w2 f cWC (rmSub f)
  -- WMUL
  | 0x192 => w2 f cWC (rmSub f)
  -- WFMA
  | 0x193 => w3 f cWC
  -- WMIN
  | 0x194 => w2 f cWC (f.sub == 0)
  -- WMAX
  | 0x195 => w2 f cWC (f.sub == 0)
  -- WEXP
  | 0x196 => rChk f (wr f.dst [.w] 1 1) (rd f.a cWC 1 1) [] [] mF1 true false (f.sub == 0)
  -- WSPL
  | 0x197 =>
    rChk f (wr f.dst [.w] 1 1) (rd f.a cLS 1 1) (if f.sub.val = 1 then rd f.b cLS 1 1 else []) [] 0 true false
      (decide (f.sub.val ≤ 1))
  -- WGET
  | 0x198 => rChk f (wr f.dst [.v] 1 1) (rd f.a cWC 1 1) (rd f.b cSZC 1 1) [] 0 true false (f.sub == 0)
  -- WSET
  | 0x199 => rChk f (upd f.dst [.w] 1 1) (rd f.a cLS 1 1) (rd f.b cSZC 1 1) [] 0 true false (f.sub == 0)
  -- WSUM
  | 0x19A =>
    rChk f (wr f.dst [.v] 1 1) (rd f.a cWC 1 1) (rd f.b cWC 1 1) (rd f.c cLS 1 1) (mNegA + mNegB + mSat) true false (rmSub f)
  -- WMM
  | 0x19B => rChk f (wr f.dst [.w] 4 4) (rd f.a [.w] 4 4) (rd f.b [.v] 16 16) [] 0 true false (rmSub f)
  -- SXL
  | 0x19C =>
    rChk f (wr f.dst [.w] 1 1) (texPos f.a) (rd f.b cWC 1 1) (rd f.c [.s] 2 2) 0 false false (f.sub == 0)
  -- SXLG
  | 0x19D =>
    rChk f (wr f.dst [.w] 1 1) (texPos f.a) (rd f.b cWC 1 1) (rd f.c [.s] 2 2) 0 false false (f.sub == 0)
  -- WADD_V
  | 0x1A0 => w2 f cLS (rmSub f)
  -- WSUB_V
  | 0x1A1 => w2 f cLS (rmSub f)
  -- WMUL_V
  | 0x1A2 => w2 f cLS (rmSub f)
  -- WFMA_V
  | 0x1A3 => w3 f cLS
  -- WMIN_V
  | 0x1A4 => w2 f cLS (f.sub == 0)
  -- WMAX_V
  | 0x1A5 => w2 f cLS (f.sub == 0)
  -- MFSR
  | 0x1E0 =>
    let k := rChk f (wr f.dst cSD 1 1) [⟨f.a, [.s], 1, 1, .rd⟩] [] [] 0 false false (f.sub == 0)
    { k with res := k.res || sysBad f.a, tm := sysTrap f.a, pos := wr f.dst cSD 1 1 }
  -- MTSR: SRCB takes the scalar specials, as every scalar source does (DESIGN CHOICE: log 21)
  | 0x1E1 =>
    let k := rChk f [] [⟨f.a, [.s], 1, 1, .rd⟩] (rd f.b cSS 1 1) [] 0 false false (f.sub == 0)
    { k with res := k.res || sysBad f.a, tm := sysTrap f.a, pos := rd f.b cSS 1 1 }
  -- PTPRD
  | 0x1E8 =>
    rChk f (if f.sub.val = 0 then wr f.dst [.s] 2 2 else wr f.dst cD 1 1) [] [] [] 0 false false (decide (f.sub.val ≤ 1))
  | _ => { res := true, pos := [] }

/-- Decode facts of the I-format opcodes. -/
def chkI (op : Nat) (f : IF) : Chk :=
  match op with
  -- SADD_I
  | 0x020 => scI f (f.subh == 0)
  -- SSUB_I
  | 0x021 => scI f (f.subh == 0)
  -- SMUL_I
  | 0x022 => scI f (f.subh == 0)
  -- SMULH_I
  | 0x023 => scI f (decide (f.subh.val ≤ 1))
  -- SDIVU_I
  | 0x024 => scI f (f.subh == 0)
  -- SREMU_I
  | 0x025 => scI f (f.subh == 0)
  -- SMIN_I
  | 0x026 => scI f (decide (f.subh.val ≤ 1))
  -- SMAX_I
  | 0x027 => scI f (decide (f.subh.val ≤ 1))
  -- SAND_I
  | 0x028 => scI f (f.subh == 0)
  -- SOR_I
  | 0x029 => scI f (f.subh == 0)
  -- SXOR_I
  | 0x02A => scI f (f.subh == 0)
  -- SSHL_I
  | 0x02B => scI f (f.subh == 0)
  -- SSHR_I
  | 0x02C => scI f (f.subh == 0)
  -- SSRA_I
  | 0x02D => scI f (f.subh == 0)
  -- SCMP_I
  | 0x02E => scI f true
  -- SADDA_I
  | 0x02F => iChk f (wr f.dst [.s] 2 2) (rd f.a cSC 2 2) (f.subh == 0)
  -- SMOVI
  | 0x030 => iChk f (wr f.dst cSD 1 1) [] (f.subh == 0)
  -- SLDK
  | 0x031 =>
    let n := if f.subh.val % 2 = 1 then 2 else 1
    iChk f (wr f.dst cSD n n) (rd f.a [.s, .z, .c] 1 1) (decide (f.subh.val ≤ 1))
  -- VADD_I
  | 0x0A0 => laneI f (f.subh == 0)
  -- VSUB_I
  | 0x0A1 => laneI f (f.subh == 0)
  -- VMUL_I
  | 0x0A2 => laneI f (f.subh == 0)
  -- VMIN_I
  | 0x0A3 => laneI f (decide (f.subh.val ≤ 1))
  -- VMAX_I
  | 0x0A4 => laneI f (decide (f.subh.val ≤ 1))
  -- VAND_I
  | 0x0A5 => laneI f (f.subh == 0)
  -- VOR_I
  | 0x0A6 => laneI f (f.subh == 0)
  -- VXOR_I
  | 0x0A7 => laneI f (f.subh == 0)
  -- VSHL_I
  | 0x0A8 => laneI f (f.subh == 0)
  -- VSHR_I
  | 0x0A9 => laneI f (f.subh == 0)
  -- VSRA_I
  | 0x0AA => laneI f (f.subh == 0)
  -- VCMP_I
  | 0x0AB => iChk f (wr f.dst [.p] 1 1) (rd f.a cLS 1 1) true
  -- VSEL_I
  | 0x0AC =>
    let k := laneI f true
    { k with pos := k.pos ++ rd (.p f.subh) [.p] 1 1 }
  -- VMOV_I
  | 0x0AD => iChk f (wr f.dst [.v] 1 1) [] (f.subh == 0)
  -- VLANE_I
  | 0x0AE => iChk f (wr f.dst cD 1 1) (rd f.a cLS 1 1) (f.subh == 0 && decide (f.imm.toNat < 32))
  -- VSHFL_I
  | 0x0AF => laneI f (decide (f.subh.val ≤ 3))
  -- FADD_I
  | 0x0D0 => laneI f (decide (f.subh.val ≤ 5))
  -- FSUB_I
  | 0x0D1 => laneI f (decide (f.subh.val ≤ 5))
  -- FMUL_I
  | 0x0D2 => laneI f (decide (f.subh.val ≤ 5))
  -- FMIN_I
  | 0x0D3 => laneI f (decide (f.subh.val ≤ 5))
  -- FMAX_I
  | 0x0D4 => laneI f (decide (f.subh.val ≤ 5))
  -- FCMP_I
  | 0x0D5 => iChk f (wr f.dst [.p] 1 1) (rd f.a cLS 1 1) true
  -- MTSR_I
  | 0x1E2 => { res := f.dst != nul || f.subh != 0 || sysBad f.a, pos := [], tm := sysTrap f.a }
  -- SRM
  | 0x1E3 =>
    { res := f.dst != nul || f.a != nul || decide (f.subh.val > 1) || decide (f.imm.toNat > 15) || decide (f.imm.toNat % 8 > 4)
      pos := [] }
  -- TRAP
  | 0x1E4 => { res := f.dst != nul || f.a != nul || f.subh != 0, pos := [] }
  -- BKPT
  | 0x1E5 => { res := f.dst != nul || f.a != nul || f.subh != 0, pos := [] }
  | _ => { res := true, pos := [] }

/-- Decode facts of the M-format opcodes. -/
def chkM (op : Nat) (f : MF) : Chk :=
  match op with
  -- LD_ZX8
  | 0x100 => ldChk f 1
  -- LD_SX8
  | 0x101 => ldChk f 1
  -- LD_ZX16
  | 0x102 => ldChk f 1
  -- LD_SX16
  | 0x103 => ldChk f 1
  -- LD_B32
  | 0x104 => ldChk f 1
  -- LD_B64
  | 0x105 => ldChk f 2
  -- LD_B128
  | 0x106 => ldChk f 4
  -- ST_B8
  | 0x107 => stChk f 1
  -- ST_B16
  | 0x108 => stChk f 1
  -- ST_B32
  | 0x109 => stChk f 1
  -- ST_B64
  | 0x10A => stChk f 2
  -- ST_B128
  | 0x10B => stChk f 4
  -- LDB
  | 0x10C => { res := mRes f [0] false || f.rcd != 255, pos := wr f.data [.v] 1 1 ++ addrPos f [.s] }
  -- STB
  | 0x10D => { res := mRes f [0] false || f.rcd != 255, pos := rd f.data [.v] 1 1 ++ addrPos f [.s] }
  -- LDL_B32
  | 0x10E => lpChk f (wr f.data [.v] 1 1)
  -- LDL_B64
  | 0x10F => lpChk f (wr f.data [.v] 2 2)
  -- LDL_B128
  | 0x110 => lpChk f (wr f.data [.v] 4 4)
  -- STL_B32
  | 0x111 => lpChk f (rd f.data [.v, .s, .z, .e] 1 1)
  -- STL_B64
  | 0x112 => lpChk f (rd f.data [.v, .s, .z, .e] 2 2)
  -- STL_B128
  | 0x113 => lpChk f (rd f.data [.v, .s, .z, .e] 4 4)
  -- ATOM_ADD
  | 0x114 => atChk f 1
  -- ATOM_SMIN
  | 0x115 => atChk f 1
  -- ATOM_SMAX
  | 0x116 => atChk f 1
  -- ATOM_UMIN
  | 0x117 => atChk f 1
  -- ATOM_UMAX
  | 0x118 => atChk f 1
  -- ATOM_AND
  | 0x119 => atChk f 1
  -- ATOM_OR
  | 0x11A => atChk f 1
  -- ATOM_XOR
  | 0x11B => atChk f 1
  -- ATOM_XCHG
  | 0x11C => atChk f 1
  -- ATOM_CAS
  | 0x11D => atChk f 2
  -- ATOM_FADD
  | 0x11E => atChk f 1
  -- ATOM_ADD_B64
  | 0x11F => atChk f 2
  -- ATOM_UMIN_B64
  | 0x120 => atChk f 2
  -- ATOM_UMAX_B64
  | 0x121 => atChk f 2
  -- ATOM_XCHG_B64
  | 0x122 => atChk f 2
  -- ATOM_CAS_B64
  | 0x123 => atChk f 4
  -- RED_ADD
  | 0x124 => redChk f 1
  -- RED_SMIN
  | 0x125 => redChk f 1
  -- RED_SMAX
  | 0x126 => redChk f 1
  -- RED_UMIN
  | 0x127 => redChk f 1
  -- RED_UMAX
  | 0x128 => redChk f 1
  -- RED_AND
  | 0x129 => redChk f 1
  -- RED_OR
  | 0x12A => redChk f 1
  -- RED_XOR
  | 0x12B => redChk f 1
  -- RED_FADD
  | 0x12C => redChk f 1
  -- RED_ADD_B64
  | 0x12D => redChk f 2
  -- CINV
  | 0x12F => cmChk f [0, 2]
  -- CFLUSH
  | 0x130 => cmChk f [0, 2]
  -- PREF
  | 0x131 => cmChk f [0, 2, 3]
  -- HLD
  | 0x132 => { res := mRes f [0] false || f.rcd != 255, pos := wr f.data [.h] 1 1 ++ addrPos f [.s] }
  -- HST
  | 0x133 => { res := mRes f [0] false || f.rcd != 255, pos := rd f.data [.h] 1 1 ++ addrPos f [.s] }
  -- FILMADD
  | 0x19E =>
    { res := mRes f [1, 3] false || f.rcd != 255 || f.cache != 0
      pos := rd f.data cVSZC 1 1 ++ addrPos f [.v, .s, .z] }
  -- LDRED
  | 0x1D0 => lrChk f
  -- LDRED_F32
  | 0x1D1 => lrChk f
  | _ => { res := true, pos := [] }

/-- Decode facts of the B-format opcodes. -/
def chkB (op : Nat) (f : BF) : Chk :=
  match op with
  -- BR
  | 0x050 => bChk f [] (f.cc == 0) (f.w == 0) true
  -- BRC
  | 0x051 =>
    bChk f (if f.cc.val ≤ 4 then rd f.cond cCond 1 1 else []) (decide (1 ≤ f.cc.val) && decide (f.cc.val ≤ 6)) (f.w == 0) true
  -- CALL
  | 0x052 =>
    let k := bChk f (if f.cc.val = 1 || f.cc.val = 3 || f.cc.val = 4 then rd f.cond cCond 1 1 else [])
      ([0, 1, 3, 4, 5].contains f.cc.val) (decide (8 ≤ f.w.val) && decide (f.w.val ≤ 64)) true
    { k with pos := k.pos ++ upd lkReg [.s] 1 1 }
  -- RET
  | 0x053 =>
    let k := bChk f [] (f.cc == 0) (f.w == 0) (f.off == 0)
    { k with pos := k.pos ++ upd lkReg [.s] 1 1 }
  -- BRI
  | 0x054 => bChk f (rd f.cond cCond 1 1) (f.cc == 0) (f.w == 0) (f.off == 0)
  -- END
  | 0x055 => bChk f [] (f.cc == 0) (f.w == 0) (f.off == 0)
  -- FORK
  | 0x056 => { bChk f (rd f.cond [.p] 1 1) (f.cc == 0) (f.w == 0) true with noTm := true }
  -- JOIN
  | 0x057 => { bChk f [] (f.cc == 0) (f.w == 0) true with noTm := true }
  | _ => { res := true, pos := [] }

/-- Decode facts of the A-format opcodes. -/
def chkA (op : Nat) (f : AF) : Chk :=
  match op with
  -- COPY
  | 0x136 =>
    { aChk f (rd (hReg f.ha) [.h] 1 1) (rd (hReg f.hb) [.h] 1 1) true (grpPos f.opa) [] true (flTRN + flZFILL + flSAT + 3)
      with ill := grpIll f.opa }
  -- COPYC
  | 0x137 =>
    { aChk f (rd (hReg f.ha) [.h] 1 1) (rd (hReg f.hb) [.h] 1 1) true (grpPos f.opa) (rd f.opb [.s] 2 2) true
        (flTRN + flZFILL + flSAT + flCSUM + 3)
      with ill := grpIll f.opa }
  -- CPFILL
  | 0x138 =>
    { aChk f (rd (hReg f.ha) [.h] 1 1) [] true (grpPos f.opa) [] false 2 with ill := grpIll f.opa }
  -- TLD
  | 0x141 =>
    { aChk f [] (rd (hReg f.hb) [.h] 1 1) false (wr f.opa [.t] 1 1) (grpPos f.opb) false (flTRN + flZFILL + flSAT + 1)
      with ill := grpIll f.opb }
  -- TLDC
  | 0x142 =>
    { aChk f [] (rd (hReg f.hb) [.h] 1 1) false (wr f.opa [.t] 1 1) (grpPos f.opb) false flZFILL with ill := grpIll f.opb }
  -- TST
  | 0x143 =>
    { aChk f (rd (hReg f.ha) [.h] 1 1) [] true (rd f.opa [.t] 1 1) (grpPos f.opb) true (flTRN + flSAT)
      with ill := grpIll f.opb }
  -- MMA
  | 0x147 => aChk f [] [] true (rd f.opa [.t] 1 1) (rd f.opb [.t] 1 1) false (flTRN + flSAT + 1)
  -- MMAS
  | 0x148 =>
    let k := aChk f [] [] true (rd f.opa [.t] 1 1) (rd f.opb [.t] 1 1) true (flTRN + 0x7FF)
    { k with res := k.res || (sgOf f).isNone, pos := k.pos ++ sgPos f }
  -- MMAP
  | 0x149 =>
    if f.flags.getLsbD 11 then
      let k := aChk f [] [] true (rd f.opa [.t] 1 1) (rd f.opb [.t] 1 1) true (flTRN + flSAT + 0xFFF)
      { k with res := k.res || (sgOf f).isNone, pos := k.pos ++ sgPos f }
    else aChk f [] [] true (rd f.opa [.t] 1 1) (rd f.opb [.t] 1 1) false (flTRN + flSAT + 1)
  -- MDRAIN
  | 0x14A => drChk f
  -- MDRAIN_P
  | 0x14B => drChk f
  -- MACT
  | 0x14E => aChk f [] [] false (rd f.opa [.s] 1 1) [] false 0
  -- MDTAB
  | 0x14F => aChk f [] [] false (rd f.opa [.s] 1 1) (rd f.opb cSZC 1 1) false 1
  -- TTPROG
  | 0x159 => aChk f [] [] false (rd f.opa [.s] 1 1) (rd f.opb cSZC 1 1) false 1
  -- TTBUF
  | 0x15A => aChk f [] [] false (rd f.opa [.s] 1 1) (rd f.opb cSZC 1 1) false 0
  -- TTSTEP
  | 0x15B =>
    let k := aChk f [] [] false (rd f.opa [.s] 2 1) [] false 1
    { k with pos := k.pos ++ allShapes, ill := clsOf f.opa == .s && decide (idxOf f.opa > 378) }
  -- TTRUN
  | 0x15C =>
    let k := aChk f [] [] false (rd f.opa [.s] 2 1) [] false 1
    { k with pos := k.pos ++ allShapes, ill := clsOf f.opa == .s && decide (idxOf f.opa > 378) }
  -- NMWALK
  | 0x185 => { aChk f [] [] false (grpPos f.opa) [] false 0 with ill := grpIll f.opa }
  | _ => { res := true, pos := [] }

/-- Decode facts of an opcode with the fields of its format (01 R26, R37). -/
def chkFmt (op : Nat) : Fmt → Chk
  | .r f => chkR op f
  | .i f => chkI op f
  | .m f => chkM op f
  | .b f => chkB op f
  | .a f => chkA op f
  | .fence f => { res := decide (f.scope.val > 5), pos := [] }
  | .bar f =>
    { res := decide (f.op.val > 5) || (f.op == 0 && (f.dst != nul || f.a != nul))
      pos := if f.op == 0 then [] else wr f.dst cD 1 1 ++ rd f.a cUS 1 1 }
  | .bara f => { res := false, pos := wr f.dst cD 1 1 }
  | .barw f => { res := false, pos := rd f.a cUS 1 1 }
  | .bcnt f => { res := false, pos := rd f.addr [.s, .z, .sp] 1 1 }
  | .barx f => { res := false, pos := wr f.dst cD 1 1 ++ rd f.addr [.s, .z, .sp] 1 1 ++ rd f.bytes cSC 1 1 }
  | .aclose _ => { res := false, pos := [] }
  | .wait f =>
    { res := false
      pos := wr f.dst cSD 1 1 ++ rd f.desc [.s, .e] (4 * (f.n.val + 1)) 4
      ill := clsOf f.desc == .s && decide (idxOf f.desc + 4 * (f.n.val + 1) - 1 > 379) }
  | .mfenceAcc _ => { res := false, pos := [] }
  | .spawn f =>
    { res := decide (f.n.val > 16) || (f.n == 0 && f.pay != nul) || (clsOf f.join == .z && f.jsp)
      pos := rd f.tgt cSC 1 1 ++ (if f.n == 0 then [] else rd f.pay [.v] f.n 1) ++ rd f.join [.s, .z] 2 2 }
  | .spawnc f =>
    { res := decide (f.n.val > 16) || (f.n == 0 && f.pay != nul)
      pos := rd f.tgt cSC 1 1 ++ (if f.n == 0 then [] else rd f.pay [.v] f.n 1) }
  | .spawnr f =>
    { res := decide (f.n.val > 16) || (f.n == 0 && f.pay != nul) || (clsOf f.join == .z && f.jsp)
      pos := rd f.tgt cSC 1 1 ++ rd f.rng [.s] 2 2 ++ rd f.join [.s, .z] 2 2 ++
        (if f.n == 0 then [] else rd f.pay [.s] f.n 1) }
  | .tnext f =>
    { res := decide (f.n.val > 17)
      pos := wr f.dst cD 1 1 ++ wr f.pay [.v] (if f.n == 0 then 1 else f.n) 1 }
  | .tres f => { res := false, pos := wr f.dst cD 1 1 ++ rd f.n cSC 1 1 }
  | .tdst f => { res := false, pos := wr f.dst cD 1 1 }
  | .moota f => { res := false, pos := wr f.dst cD 1 1 }
  | .mootq f => { res := decide (f.sel.val > 3), pos := wr f.dst cD 1 1 ++ rd f.a cSC 1 1 }
  | .framec f => { res := false, pos := wr f.dst cD 1 1 ++ rd f.stream cSC 1 1 ++ rd f.seq cSC 1 1 }
  | .snap f => { res := false, pos := wr f.dst cD 1 1 ++ rd f.tag cSC 1 1 }
  | .nul => { res := false, pos := [], tm := op == 0x1E6 }

/-- Opcode and fields of an instruction (01 R26, R37); none for an event of the opcode table, which no word encodes. -/
def partsOf : Instr → Option (Nat × Fmt)
  | .nop => some (0x000, .nul)
  | .sadd f => some (0x001, .r f)
  | .ssub f => some (0x002, .r f)
  | .smul f => some (0x003, .r f)
  | .smulh f => some (0x004, .r f)
  | .sdivu f => some (0x005, .r f)
  | .sremu f => some (0x006, .r f)
  | .smin f => some (0x007, .r f)
  | .smax f => some (0x008, .r f)
  | .sand f => some (0x009, .r f)
  | .sor f => some (0x00A, .r f)
  | .sxor f => some (0x00B, .r f)
  | .snot f => some (0x00C, .r f)
  | .sshl f => some (0x00D, .r f)
  | .sshr f => some (0x00E, .r f)
  | .ssra f => some (0x00F, .r f)
  | .sclz f => some (0x010, .r f)
  | .spopc f => some (0x011, .r f)
  | .scmp f => some (0x012, .r f)
  | .ssel f => some (0x013, .r f)
  | .smov f => some (0x014, .r f)
  | .sadda f => some (0x015, .r f)
  | .saddI f => some (0x020, .i f)
  | .ssubI f => some (0x021, .i f)
  | .smulI f => some (0x022, .i f)
  | .smulhI f => some (0x023, .i f)
  | .sdivuI f => some (0x024, .i f)
  | .sremuI f => some (0x025, .i f)
  | .sminI f => some (0x026, .i f)
  | .smaxI f => some (0x027, .i f)
  | .sandI f => some (0x028, .i f)
  | .sorI f => some (0x029, .i f)
  | .sxorI f => some (0x02A, .i f)
  | .sshlI f => some (0x02B, .i f)
  | .sshrI f => some (0x02C, .i f)
  | .ssraI f => some (0x02D, .i f)
  | .scmpI f => some (0x02E, .i f)
  | .saddaI f => some (0x02F, .i f)
  | .smovi f => some (0x030, .i f)
  | .sldk f => some (0x031, .i f)
  | .sadd64 f => some (0x040, .r f)
  | .ssub64 f => some (0x041, .r f)
  | .smul64 f => some (0x042, .r f)
  | .smin64 f => some (0x043, .r f)
  | .smax64 f => some (0x044, .r f)
  | .sand64 f => some (0x045, .r f)
  | .sor64 f => some (0x046, .r f)
  | .sxor64 f => some (0x047, .r f)
  | .sshl64 f => some (0x048, .r f)
  | .sshr64 f => some (0x049, .r f)
  | .ssra64 f => some (0x04A, .r f)
  | .scmp64 f => some (0x04B, .r f)
  | .smov64 f => some (0x04C, .r f)
  | .br f => some (0x050, .b f)
  | .brc f => some (0x051, .b f)
  | .call f => some (0x052, .b f)
  | .ret f => some (0x053, .b f)
  | .bri f => some (0x054, .b f)
  | .endP f => some (0x055, .b f)
  | .fork f => some (0x056, .b f)
  | .join f => some (0x057, .b f)
  | .ppush f => some (0x060, .r f)
  | .pinv f => some (0x061, .r f)
  | .ppop f => some (0x062, .r f)
  | .pset f => some (0x063, .r f)
  | .ppack f => some (0x064, .r f)
  | .punpk f => some (0x065, .r f)
  | .pany f => some (0x066, .r f)
  | .pall f => some (0x067, .r f)
  | .vadd f => some (0x080, .r f)
  | .vsub f => some (0x081, .r f)
  | .vmul f => some (0x082, .r f)
  | .vmulh f => some (0x083, .r f)
  | .vmad f => some (0x084, .r f)
  | .vmin f => some (0x085, .r f)
  | .vmax f => some (0x086, .r f)
  | .vand f => some (0x087, .r f)
  | .vor f => some (0x088, .r f)
  | .vxor f => some (0x089, .r f)
  | .vnot f => some (0x08A, .r f)
  | .vshl f => some (0x08B, .r f)
  | .vshr f => some (0x08C, .r f)
  | .vsra f => some (0x08D, .r f)
  | .vclz f => some (0x08E, .r f)
  | .vpopc f => some (0x08F, .r f)
  | .vcmp f => some (0x090, .r f)
  | .vsel f => some (0x091, .r f)
  | .vmov f => some (0x092, .r f)
  | .vbcst f => some (0x093, .r f)
  | .vlane f => some (0x094, .r f)
  | .vshfl f => some (0x095, .r f)
  | .vred f => some (0x096, .r f)
  | .vscan f => some (0x097, .r f)
  | .vaddI f => some (0x0A0, .i f)
  | .vsubI f => some (0x0A1, .i f)
  | .vmulI f => some (0x0A2, .i f)
  | .vminI f => some (0x0A3, .i f)
  | .vmaxI f => some (0x0A4, .i f)
  | .vandI f => some (0x0A5, .i f)
  | .vorI f => some (0x0A6, .i f)
  | .vxorI f => some (0x0A7, .i f)
  | .vshlI f => some (0x0A8, .i f)
  | .vshrI f => some (0x0A9, .i f)
  | .vsraI f => some (0x0AA, .i f)
  | .vcmpI f => some (0x0AB, .i f)
  | .vselI f => some (0x0AC, .i f)
  | .vmovI f => some (0x0AD, .i f)
  | .vlaneI f => some (0x0AE, .i f)
  | .vshflI f => some (0x0AF, .i f)
  | .vadd64 f => some (0x0B0, .r f)
  | .vshl64 f => some (0x0B1, .r f)
  | .vredF f => some (0x0B2, .r f)
  | .vscanF f => some (0x0B3, .r f)
  | .fadd f => some (0x0C0, .r f)
  | .fsub f => some (0x0C1, .r f)
  | .fmul f => some (0x0C2, .r f)
  | .ffma f => some (0x0C3, .r f)
  | .fmin f => some (0x0C4, .r f)
  | .fmax f => some (0x0C5, .r f)
  | .fcmp f => some (0x0C6, .r f)
  | .frcp f => some (0x0C7, .r f)
  | .frsq f => some (0x0C8, .r f)
  | .fsqrt f => some (0x0C9, .r f)
  | .fexp2 f => some (0x0CA, .r f)
  | .flog2 f => some (0x0CB, .r f)
  | .fsin f => some (0x0CC, .r f)
  | .fcos f => some (0x0CD, .r f)
  | .frnd f => some (0x0CE, .r f)
  | .fcvt f => some (0x0CF, .r f)
  | .faddI f => some (0x0D0, .i f)
  | .fsubI f => some (0x0D1, .i f)
  | .fmulI f => some (0x0D2, .i f)
  | .fminI f => some (0x0D3, .i f)
  | .fmaxI f => some (0x0D4, .i f)
  | .fcmpI f => some (0x0D5, .i f)
  | .faddH2 f => some (0x0E0, .r f)
  | .fsubH2 f => some (0x0E1, .r f)
  | .fmulH2 f => some (0x0E2, .r f)
  | .ffmaH2 f => some (0x0E3, .r f)
  | .fminH2 f => some (0x0E4, .r f)
  | .fmaxH2 f => some (0x0E5, .r f)
  | .faddB2 f => some (0x0E6, .r f)
  | .fsubB2 f => some (0x0E7, .r f)
  | .fmulB2 f => some (0x0E8, .r f)
  | .ffmaB2 f => some (0x0E9, .r f)
  | .fminB2 f => some (0x0EA, .r f)
  | .fmaxB2 f => some (0x0EB, .r f)
  | .vdot4 f => some (0x0EC, .r f)
  | .vdot8 f => some (0x0ED, .r f)
  | .vpk f => some (0x0EE, .r f)
  | .vupk f => some (0x0EF, .r f)
  | .ldZx8 f => some (0x100, .m f)
  | .ldSx8 f => some (0x101, .m f)
  | .ldZx16 f => some (0x102, .m f)
  | .ldSx16 f => some (0x103, .m f)
  | .ldB32 f => some (0x104, .m f)
  | .ldB64 f => some (0x105, .m f)
  | .ldB128 f => some (0x106, .m f)
  | .stB8 f => some (0x107, .m f)
  | .stB16 f => some (0x108, .m f)
  | .stB32 f => some (0x109, .m f)
  | .stB64 f => some (0x10A, .m f)
  | .stB128 f => some (0x10B, .m f)
  | .ldb f => some (0x10C, .m f)
  | .stb f => some (0x10D, .m f)
  | .ldlB32 f => some (0x10E, .m f)
  | .ldlB64 f => some (0x10F, .m f)
  | .ldlB128 f => some (0x110, .m f)
  | .stlB32 f => some (0x111, .m f)
  | .stlB64 f => some (0x112, .m f)
  | .stlB128 f => some (0x113, .m f)
  | .atomAdd f => some (0x114, .m f)
  | .atomSmin f => some (0x115, .m f)
  | .atomSmax f => some (0x116, .m f)
  | .atomUmin f => some (0x117, .m f)
  | .atomUmax f => some (0x118, .m f)
  | .atomAnd f => some (0x119, .m f)
  | .atomOr f => some (0x11A, .m f)
  | .atomXor f => some (0x11B, .m f)
  | .atomXchg f => some (0x11C, .m f)
  | .atomCas f => some (0x11D, .m f)
  | .atomFadd f => some (0x11E, .m f)
  | .atomAddB64 f => some (0x11F, .m f)
  | .atomUminB64 f => some (0x120, .m f)
  | .atomUmaxB64 f => some (0x121, .m f)
  | .atomXchgB64 f => some (0x122, .m f)
  | .atomCasB64 f => some (0x123, .m f)
  | .redAdd f => some (0x124, .m f)
  | .redSmin f => some (0x125, .m f)
  | .redSmax f => some (0x126, .m f)
  | .redUmin f => some (0x127, .m f)
  | .redUmax f => some (0x128, .m f)
  | .redAnd f => some (0x129, .m f)
  | .redOr f => some (0x12A, .m f)
  | .redXor f => some (0x12B, .m f)
  | .redFadd f => some (0x12C, .m f)
  | .redAddB64 f => some (0x12D, .m f)
  | .fence f => some (0x12E, .fence f)
  | .cinv f => some (0x12F, .m f)
  | .cflush f => some (0x130, .m f)
  | .pref f => some (0x131, .m f)
  | .hld f => some (0x132, .m f)
  | .hst f => some (0x133, .m f)
  | .hsetf f => some (0x134, .r f)
  | .hgetf f => some (0x135, .r f)
  | .copy f => some (0x136, .a f)
  | .copyc f => some (0x137, .a f)
  | .cpfill f => some (0x138, .a f)
  | .bar f => some (0x139, .bar f)
  | .bara f => some (0x13A, .bara f)
  | .barw f => some (0x13B, .barw f)
  | .bcnt f => some (0x13C, .bcnt f)
  | .barx f => some (0x13D, .barx f)
  | .aclose f => some (0x13E, .aclose f)
  | .wait f => some (0x13F, .wait f)
  | .mttc f => some (0x140, .r f)
  | .tld f => some (0x141, .a f)
  | .tldc f => some (0x142, .a f)
  | .tst f => some (0x143, .a f)
  | .tzero f => some (0x144, .r f)
  | .tmov f => some (0x145, .r f)
  | .azero f => some (0x146, .r f)
  | .mma f => some (0x147, .a f)
  | .mmas f => some (0x148, .a f)
  | .mmap f => some (0x149, .a f)
  | .mdrain f => some (0x14A, .a f)
  | .mdrainP f => some (0x14B, .a f)
  | .mfenceOp => some (0x14C, .nul)
  | .mfenceAcc f => some (0x14D, .mfenceAcc f)
  | .mact f => some (0x14E, .a f)
  | .mdtab f => some (0x14F, .a f)
  | .vcvt f => some (0x150, .r f)
  | .vcvtAcc f => some (0x151, .r f)
  | .bdset f => some (0x158, .r f)
  | .ttprog f => some (0x159, .a f)
  | .ttbuf f => some (0x15A, .a f)
  | .ttstep f => some (0x15B, .a f)
  | .ttrun f => some (0x15C, .a f)
  | .rbox f => some (0x180, .r f)
  | .rtri f => some (0x181, .r f)
  | .tsinit f => some (0x182, .r f)
  | .tspush f => some (0x183, .r f)
  | .tspop f => some (0x184, .r f)
  | .nmwalk f => some (0x185, .a f)
  | .wadd f => some (0x190, .r f)
  | .wsub f => some (0x191, .r f)
  | .wmul f => some (0x192, .r f)
  | .wfma f => some (0x193, .r f)
  | .wmin f => some (0x194, .r f)
  | .wmax f => some (0x195, .r f)
  | .wexp f => some (0x196, .r f)
  | .wspl f => some (0x197, .r f)
  | .wget f => some (0x198, .r f)
  | .wset f => some (0x199, .r f)
  | .wsum f => some (0x19A, .r f)
  | .wmm f => some (0x19B, .r f)
  | .sxl f => some (0x19C, .r f)
  | .sxlg f => some (0x19D, .r f)
  | .filmadd f => some (0x19E, .m f)
  | .waddV f => some (0x1A0, .r f)
  | .wsubV f => some (0x1A1, .r f)
  | .wmulV f => some (0x1A2, .r f)
  | .wfmaV f => some (0x1A3, .r f)
  | .wminV f => some (0x1A4, .r f)
  | .wmaxV f => some (0x1A5, .r f)
  | .spawn f => some (0x1C0, .spawn f)
  | .spawnc f => some (0x1C1, .spawnc f)
  | .spawnr f => some (0x1C2, .spawnr f)
  | .tnext f => some (0x1C3, .tnext f)
  | .tres f => some (0x1C4, .tres f)
  | .tcommit f => some (0x1C5, .tdst f)
  | .tcancel f => some (0x1C6, .tdst f)
  | .tend => some (0x1C7, .nul)
  | .ldred f => some (0x1D0, .m f)
  | .ldredF32 f => some (0x1D1, .m f)
  | .moota f => some (0x1D2, .moota f)
  | .mootd => some (0x1D3, .nul)
  | .mootq f => some (0x1D4, .mootq f)
  | .mfsr f => some (0x1E0, .r f)
  | .mtsr f => some (0x1E1, .r f)
  | .mtsrI f => some (0x1E2, .i f)
  | .srm f => some (0x1E3, .i f)
  | .trap f => some (0x1E4, .i f)
  | .bkpt f => some (0x1E5, .i f)
  | .eret => some (0x1E6, .nul)
  | .ptprd f => some (0x1E8, .r f)
  | .framec f => some (0x1E9, .framec f)
  | .snap f => some (0x1EA, .snap f)
  | _ => none

/-- Decode facts of every instruction. Events have no encoding and nothing to check. -/
def chkOf (i : Instr) : Chk :=
  match partsOf i with
  | some (op, f) => chkFmt op f
  | none => { res := false, pos := [] }

end Sys2Proof.Machine
end

