-- ==== Sys2Proof/Machine/State.lean ====
section
/-! DEFINITION. The state of the machine as plain data, the reasons a step can stop, and the state after reset.

Addresses of sparse maps. `hbm`: HBM physical address (08 R193). `host`: PCIe bus address (08 R176). `pool`: node × 2^56 +
node-local address (19). `peers`: moot rank × 2^20 + offset. `spd`: (block × 8 + core position) × 2^20 + offset. `gran`:
die × 2^25 + offset. `tiles`: ((block × 8 + position) × 64 + tile) × 4096 + byte. `accm`: ((block × 8 + position) × 16 +
fragment) × 4096 + word. `banks`: ((block × 8 + position) × 2 + bank) × 512 + entry. `acts`: (block × 8 + position) × 1024 +
word. `tctl`: (block × 8 + position) × 64 + tile. `absent`: (block × 8 + position) × 8192 + granule. -/

namespace Sys2Proof.Machine

open Sys2Proof (Instr Operand W32 W64 Byte Mask SMap)

/-- The machine stops with a fault. -/
inductive Fault where
  /-- Raised by `step` while the steward holds power off (20 R431): the spec gives no step of an unpowered module. Safe. -/
  | powerRemoved
deriving DecidableEq, Repr

/-- The machine refuses to go on. -/
inductive Refusal where
  /-- Raised by `exec` for an instruction that has no meaning yet, by name. Safe. -/
  | notModelled (mnemonic : String)
deriving DecidableEq, Repr

/-- A trap waiting to be taken: the cause and the record of 04 R99. -/
structure TrapRec where
  cause : Nat
  addr : Nat
  data : Nat
  lanes : Mask
deriving DecidableEq, Repr

/-- Kind of a predicate-stack entry (02 R78); `pend` holds the resume offset. -/
inductive PKind where
  | plain
  | pend (resume : Nat)
  | run1
  | run2
deriving DecidableEq, Repr

/-- A predicate-stack entry (02 R78). -/
structure PEntry where
  mask : Mask
  kind : PKind
deriving DecidableEq, Repr

/-- A fetched clause: its header offset, class, BWAIT, YIELD and instruction words, and the window size under which it was decoded
(01 R15, R39, R40). -/
structure Clause where
  off : Nat
  cls : Nat
  bwait : Nat
  yld : Nat
  words : List Nat
  window : Nat := 256
deriving DecidableEq, Repr

/-- The waiting data of a WAIT (05 R152-R155): the result register, the mode, the condition words as read at issue, the
ref tick of issue, the time-out, the words that have arrived through the fabric by condition, and the ref tick at which those reads
were last made. -/
structure WaitPark where
  dst : Operand
  all : Bool
  conds : List (List W32)
  since : Nat
  timeout : Nat
  reads : List (Nat × W32) := []
  polled : Nat := 0
deriving DecidableEq, Repr

/-- Why a path is parked (01 R11), with what the completion needs. -/
inductive Park where
  /-- the clause's input set is owed (01 R23, 18 R374) -/
  | inputs
  /-- BWAIT names an incomplete batch (01 R19) -/
  | bwait
  /-- a page miss on an instruction fetch of the next clause (01 R434) -/
  | fetch (asid va : Nat)
  /-- the slot reads or writes a register that a memory access still owes (01 R24) -/
  | owed
  /-- absent scratchpad granules, over these bytes (05 R121) -/
  | granule (need : List (Nat × Nat))
  /-- 64 asynchronous operations outstanding (05 R142), or a full engine queue of one of these cores (12 R281) -/
  | opLimit (cores : List Nat)
  /-- a page miss on a spill access of CALL or RET (08 R179), on a join word (13 R320) or on a branch target's fetch -/
  | slotMiss (asid va : Nat)
  /-- arrived at a circle barrier, waits for generation `gen` to complete, then writes the reduction (05 R146) -/
  | circle (circ gen op : Nat) (dst : Operand)
  /-- would arrive a second time in a generation (05 R147) -/
  | rearrive (circ gen : Nat)
  /-- BARW waits for its token's generation (05 R146) -/
  | circleTok (circ : Nat) (token : W32)
  /-- BARX met ARRIVE 0 and waits until PHASE toggles (05 R150) -/
  | barx (addr : Nat) (phase : Bool)
  /-- WAIT (05 R154) -/
  | wait (w : WaitPark)
  /-- MFENCE.OP, FRAMEC or MOOTD waits until these accesses are performed (10 R245, 13 R329, R332) -/
  | accesses (ids : List Nat)
  /-- MFENCE.ACC or VCVT.ACC waits for these operations (10 R246, R264) -/
  | ops (ids : List Nat)
  /-- an access of the path waits on a page miss: the path stops at its slot boundary (04 R101) -/
  | miss
  /-- the other path of the fork is in trap mode (04 R103) -/
  | trapStop
  /-- no room for `n` records in the task store (13 R321) -/
  | store (n : Nat)
  /-- MOOTA waits for its gang since a ref tick (13 R328) -/
  | moota (dst : Operand) (since timeout : Nat)
  /-- SNAP waits for the ref tick at which it fires (13 R333) -/
  | snap (dst : Operand) (tag at_ : Nat)
  /-- FRAMEC arrives after the deadline step of its tick, and its commit is of the tick `at_` (16 R351) -/
  | tick (at_ : Nat)
deriving DecidableEq, Repr

/-- The operands that a spawn captures at issue (13 R321; 14 R336): the target, a payload for each record, the interval of a range
record, and the join word with JSP. -/
structure SpawnOps where
  target : Nat
  pays : List (List W32)
  range : Option (Nat × Nat)
  join : Option (Nat × Bool)
deriving DecidableEq, Repr

/-- What a path is doing. -/
inductive Phase where
  /-- no wave is resident in the slot, or the path does not exist -/
  | idle
  /-- ready for its next clause (01 R23) -/
  | ready
  /-- holds its pipe and issues the slot at `slot` next (01 R21) -/
  | issuing
  /-- was parked inside a clause, its condition holds, needs its pipe again (18 R373) -/
  | resume
  /-- waits for a named condition (01 R11) -/
  | parked (why : Park)
  /-- arrived at the JOIN of a topmost fork; `auto` for the path FORK created already arrived (02 R80, R81) -/
  | arrived (target : Nat) (auto : Bool)
  /-- executed END: waits for owed values, and for its peer in a fork (02 R56) -/
  | ending
deriving DecidableEq, Repr

/-- One path of a wave (02 R47, R78; 18 R374-R376). `pend` holds delivered faults not yet taken (04 R101), `replay` the slot ERET
resumes at (02 R63), `waited` that the wait of the slot in progress is over, `passed`, `skip`, `starts` the counters of the eligible
set, `defer` the pipe of YIELD 1, `inTrap` that the path runs the handler, `denied` the pages (ASID and 64 KiB page) whose miss the
pager rejected for the slot or clause the path tries next (08 R194), `waitId` the count of ids at which the slot in progress began
to wait (10 R264), `held` the operands that a spawn in the slot captured at issue (14 R336), and `unfenced` the tiles (2 × key + 1)
and scratchpad bytes (2 × key) that the path has written since its last MFENCE.OP (10 R245). -/
structure PathSt where
  pc : Nat
  clause : Option Clause
  slot : Nat
  phase : Phase
  base : Mask
  stack : List PEntry
  clkhi : W32
  refhi : W32
  pend : List TrapRec
  replay : Option Nat
  waited : Bool
  elig : Bool
  skip : List Nat
  starts : Nat
  passed : Nat
  readyAt : Nat
  defer : Option Nat
  inTrap : Bool
  denied : List (Nat × Nat)
  waitId : Nat := 0
  unfenced : SMap Unit := []
  held : Option SpawnOps := none
deriving DecidableEq, Repr

/-- A path that does not exist. -/
def PathSt.absent : PathSt :=
  { pc := 0, clause := Option.none, slot := 0, phase := .idle, base := 0xFFFFFFFF#32, stack := [], clkhi := 0, refhi := 0,
    pend := [], replay := Option.none, waited := false, elig := false, skip := [0, 0, 0], starts := 0, passed := 0, readyAt := 0
    defer := Option.none, inTrap := false, denied := [] }

/-- What a topmost FORK saves for the JOIN (02 R80). -/
structure ForkRec where
  base : Mask
  stack : List PEntry
  depth : Nat
deriving DecidableEq, Repr

/-- A poisoned byte (04 R109): its class code (0 v by physical register, 1 s, 2 e; from 3 on what else a bank holds, see `poisonP`),
register, lane, byte. -/
structure PoisonAt where
  cls : Nat
  reg : Nat
  lane : Nat
  byte : Nat
deriving DecidableEq, Repr

/-- A spilled segment: its spill-area offset, its registers and the poison that went with them (03 R84, 04 R110). -/
structure Spill where
  off : Nat
  regs : Nat
  poison : List PoisonAt
deriving DecidableEq, Repr

/-- Residence of a wave (04 R105-R108, 18 R382). -/
inductive Resid where
  /-- no wave: the contents of a free slot -/
  | free
  /-- in the active bank of its core -/
  | active
  /-- in the shadow bank of its core -/
  | shadow
  /-- in a context-save area -/
  | saved
  /-- in the future area of its die -/
  | future
deriving DecidableEq, Repr

/-- The tensor-train sequencer of a wave (10 R266-R273). -/
structure Seqr where
  prog : List W32
  buf : Option (Nat × Nat)
  step : Nat
  half : Bool
  f : Nat
  d : Nat
  bnd : Bool
  ovf : Bool
  need : Nat
deriving DecidableEq, Repr

/-- A task reservation: records reserved, records drawn, and the ids of the records written (13 R323, R324). -/
structure Resv where
  total : Nat
  used : Nat
  written : List Nat
deriving DecidableEq, Repr

/-- What a task wave serves (13 R319, R322): its target, the records it was started with or serves, whether it is a range
wave, and whether its first TNEXT is still to come. -/
structure TaskServe where
  target : Nat
  recs : List Nat
  range : Bool
  first : Bool
  sliceNo : Nat
deriving DecidableEq, Repr

/-- A wave (04 R92 and the chapters it names). The seeds name the undefined contents of register files (log 1, 4): `vseed` of every
vector register, `vundef` of the registers a later event made undefined, `wseed` and `eseed` of w and e. `openScope` the widest
completion scope of the open set and `batchScope` those of its batches (09 R225). -/
structure Wave where
  uid : Nat
  core : Nat
  slot : Nat
  resid : Resid
  launch : Nat
  block : Nat
  widx : Nat
  startAt : Nat
  sregs : SMap W32
  vregs : SMap W32
  vseed : Option Nat
  vundef : SMap Nat
  pflags : SMap Mask
  wregs : SMap W32
  wseed : Option Nat
  eregs : SMap W32
  eseed : Option Nat
  hregs : SMap (BitVec 512)
  dregs : SMap W32
  wbase : Nat
  wsize : Nat
  links : List (Nat × W32)
  spills : List Spill
  wsr : W32
  tcause : W32
  tclause : W32
  tslot : W32
  taddrlo : W32
  taddrhi : W32
  tdata : W32
  tlanes : W32
  heldTrap : Option (TrapRec × Nat × Nat)
  fork : Option ForkRec
  second : Bool
  pa : PathSt
  pb : PathSt
  tbase : Nat
  seqr : Seqr
  resv : Option Resv
  task : Option TaskServe
  poison : List PoisonAt
  openScope : Nat
  batchScope : SMap Nat
deriving DecidableEq, Repr

/-- The contents of a free slot (04 R92, 02 R60; log 3, 4). -/
def Wave.free : Wave :=
  { uid := 0, core := 0, slot := 0, resid := .free, launch := 0, block := 0, widx := 0, startAt := 0,
    sregs := [], vregs := [], vseed := none, vundef := [], pflags := [], wregs := [], wseed := none, eregs := [], eseed := none,
    hregs := [], dregs := [], wbase := 0, wsize := 64, links := [], spills := [], wsr := 0, tcause := 0, tclause := 0,
    tslot := 0, taddrlo := 0, taddrhi := 0, tdata := 0, tlanes := 0, heldTrap := none, fork := none, second := false,
    pa := PathSt.absent, pb := PathSt.absent, tbase := 0,
    seqr := { prog := [], buf := none, step := 0, half := false, f := 1, d := 1, bnd := false, ovf := false, need := 0 },
    resv := none, task := none, poison := [], openScope := 0, batchScope := [] }

/-- The launch record (04 R87, 18 R361, R363), field by field. -/
structure LRec where
  codebase : Nat
  codesize : Nat
  entry : Nat
  trapentry : Nat
  argsize : Nat
  argptr : Nat
  gridx : Nat
  gridy : Nat
  gridz : Nat
  threads : Nat
  stackregs : Nat
  wincap : Nat
  rm : Nat
  ftz : Bool
  wpk : Bool
  debug : Bool
  privbytes : Nat
  spillbytes : Nat
  prvbase : Nat
  rectab : Nat
  reccount : Nat
  circcount : Nat
  asid : Nat
  circtab : Nat
  statusptr : Nat
  slots : List Nat
  spdbytes : Nat
  tiles : Nat
  acckib : Nat
  queue : Nat
  prio : Nat
  place : Nat
  dies : Nat
  stagger : Nat
  gang : Bool
  prank : Nat
  gpkgs : Nat
  gid : Nat
  deps : List Nat
  ctxsave : Nat
deriving DecidableEq, Repr

/-- The record read for a wave that belongs to no launch (log 3): no code, no handler, the largest window. -/
def LRec.unset : LRec :=
  { codebase := 0, codesize := 0, entry := 0, trapentry := 0xFFFFFFFF, argsize := 0, argptr := 0, gridx := 1, gridy := 1,
    gridz := 1, threads := 32, stackregs := 256, wincap := 64, rm := 0, ftz := false, wpk := false, debug := false, privbytes := 0,
    spillbytes := 0, prvbase := 0, rectab := 0, reccount := 0, circcount := 0, asid := 0, circtab := 0, statusptr := 0, slots := [],
    spdbytes := 0, tiles := 0, acckib := 0, queue := 0, prio := 0, place := 0, dies := 0, stagger := 0, gang := false, prank := 0,
    gpkgs := 0, gid := 0, deps := [], ctxsave := 0 }

/-- The first error of a launch (04 R89). -/
structure LErrRec where
  cause : Nat
  block : Nat
  wave : Nat
  clause : Nat
  slot : Nat
deriving DecidableEq, Repr

/-- An accepted launch (18 R360-R371). `waiting` is the ref tick since which its next block has waited for room, `preempts` that it
now pre-empts (18 R383), `silent` that no status is written (20 R418), `statusless` that its record could not be read (18 R362),
`gangAsked` that it has asked for its gang's turn (18 R371), `starts` the clk of the last block start on each die (18 R369). -/
structure Launch where
  id : Nat
  rec_ : LRec
  queue : Nat
  recAddr : Nat
  prio : Nat
  args : List Byte
  recs : List Nat
  circles : List Nat
  depsMet : List Bool
  ordinal : Nat
  placed : Nat
  exited : Nat
  lerr : Nat
  err : Option LErrRec
  aborted : Bool
  cancelled : Nat
  joinLost : Nat
  ptpSteps : Nat
  silent : Bool
  statusless : Bool
  gangAsked : Bool
  waiting : Option Nat
  preempts : Bool
  starts : List (Nat × Nat)
deriving DecidableEq, Repr

/-- One circle barrier of a block (05 R145): the generation, the members arrived in it with the values a `BAR` gave, and the
values of the last completed generation. -/
structure Circle where
  gen : W32
  arrived : List (Nat × Option W32)
  prev : List (Option W32)
deriving DecidableEq, Repr

/-- Where a block stands. -/
inductive BPhase where
  /-- placed; waits for its stagger delay -/
  | placed
  /-- its waves run -/
  | running
  /-- its waves have all ended; waits for the exit rule (10 R275, 13 R329) -/
  | exiting
deriving DecidableEq, Repr

/-- A block, or the one-wave block a task wave stands for (13 R319). `slots` holds core × 96 + slot of each wave, `cores` the
cores it occupies in ascending position, `banks` the bank of each that holds its waves (04 R105), and `before` the accesses that its
arrival at the moot releases (17 R356). -/
structure Block where
  id : Nat
  launch : Nat
  index : Nat
  isTask : Bool
  cores : List Nat
  slots : List Nat
  banks : List Bool
  saved : Bool
  phase : BPhase
  nwaves : Nat
  ended : List Nat
  circles : SMap Circle
  attached : Bool
  arriving : Bool
  detached : Bool
  before : List Nat := []
deriving DecidableEq, Repr

/-- A gang as its pool node keeps it (13 R328-R330, 18 R370, R371): `gid` is GID × 64 + GPKGS, `size` members, `pkgs` packages, the
`blocks` and the scratchpad bytes `spd` of each share, the package ranks that have `asked` and `reserved`, the `owners` as (PRANK,
PKGID), the asks that came after the turn and are of a `late` gang (19 R408), the member ranks in each state, and the packages of
the gang whose loss the nodes have `noted` in the group slots (17 R357). -/
structure Gang where
  gid : Nat
  size : Nat
  pkgs : Nat
  blocks : Nat
  spd : Nat
  asked : List Nat
  firstAsk : Nat
  lastAsk : Nat
  turn : Bool
  reserved : List Nat
  arrived : List Nat
  attached : List Nat
  detached : List Nat
  departed : List Nat
  owners : List (Nat × Nat) := []
  noted : List Nat := []
  late : List (Nat × Nat × Nat × Nat) := []
deriving DecidableEq, Repr

/-- The banks of a core: the active one, whether they are to exchange, and the launch that a swap has given the core to (04
R105-R107). -/
structure CoreSt where
  bank : Bool
  swapping : Bool
  guest : Option Nat
deriving DecidableEq, Repr

/-- The banks of a core after reset (04 R105). -/
def CoreSt.reset : CoreSt := { bank := false, swapping := false, guest := none }

/-- A launch queue (18 R360, 20 R416). `taking` is the accepted launch that is being checked, `got` what acceptance and check have
read so far, once each: the record, then its tables (18 R362). -/
structure Queue where
  pending : List Nat
  got : List (List Byte)
  taking : Option Nat
  ceil : Nat
  en : Bool
  fn : Nat
  stfault : Bool
deriving DecidableEq, Repr

/-- A queue after reset (20 R416). -/
def Queue.reset : Queue := { pending := [], got := [], taking := none, ceil := 0, en := false, fn := 0, stfault := false }

/-- The kinds of synchronous access (05, 13). Sizes are in bytes; `regs` counts destination registers. -/
inductive AKind where
  /-- load of `n` bytes, sign-extended where `sx` -/
  | load (n : Nat) (sx : Bool)
  /-- load of `count` elements through record `r` (08 R202-R204) -/
  | recLoad (r count : Nat)
  /-- store of `n` bytes -/
  | store (n : Nat)
  /-- store of `count` elements through record `r` (08 R205) -/
  | recStore (r count : Nat)
  /-- atomic or reduction: operation code of 05 R122, bytes, and whether the old value returns -/
  | rmw (op n : Nat) (ret : Bool)
  /-- FILMADD (13 R318) -/
  | film
  /-- HLD and HST (05 R131) -/
  | hload
  | hstore
  /-- RBOX and RTRI (13 R299, R300) -/
  | rbox
  | rtri (cull : Nat)
  /-- the read of a memory-word condition of a WAIT through the fabric; `k` names the condition (05 R155; 19 R399, R400) -/
  | waitRead (k : Nat)
  /-- SXL and SXLG (13 R316, R317); `g` for SXLG -/
  | sxl (g : Bool)
  /-- LDRED (13 R327): group and input encoding -/
  | ldred (group enc : Nat)
  /-- a join word's subtraction by the device (13 R320) -/
  | joinSub
  /-- a fence, which is no access but orders the accesses of its path (05 R126) -/
  | fence (kind : Nat)
deriving DecidableEq, Repr

/-- One piece of an access: a lane (and half of a b128 access), its address, its data, and how it stands. -/
structure Piece where
  lane : Nat
  part : Nat
  addr : Nat
  data : Nat
  done : Bool
  result : List W32
  miss : Bool
  fault : Option TrapRec
deriving DecidableEq, Repr

/-- A sector of 128 bytes: its canonical name, which memory holds it (0 HBM, 1 host, 2 pool) and the address of its first
byte there (08 R184, R188; 19 R390). -/
structure Home where
  pool : Bool
  asid : Nat
  line : Nat
  kind : Nat
  addr : Nat
deriving DecidableEq, Repr

/-- Where bytes of an access lie. -/
inductive Loc where
  /-- a cached space -/
  | sec (h : Home) (off : Nat)
  /-- scratchpad, by key -/
  | spd (key : Nat)
  /-- granary, by key -/
  | gran (key : Nat)
  /-- the scratchpad of a member on another package -/
  | peer (key : Nat)
deriving DecidableEq, Repr

/-- An outstanding synchronous access or fence of a path, with what it captured at issue (04 R101, 05 R116, 01 R61). `both` marks
one issued before a topmost FORK, which precedes both paths (02 R80); `since` is the ref tick of issue (19 R399), `sent` the
requests made of a remote access, each by its first piece, with the ref tick of the last copy or notice (19 R394, R398), and `via`
the place of a block access's block, which is translated once (05 R118). -/
structure Access where
  id : Nat
  uid : Nat
  second : Bool
  both : Bool
  core : Nat
  launch : Nat
  block : Nat
  kind : AKind
  space : Nat
  scope : Nat
  order : Nat
  cache : Nat
  asid : Nat
  word : Nat
  rm : Nat
  ftz : Bool
  wpk : Bool
  scalar : Bool
  dst : List (Cls × Nat)
  extra : List (List W32)
  pieces : List Piece
  since : Nat
  sent : List (Nat × Nat)
  via : Option Loc := none
deriving DecidableEq, Repr

/-- The kinds of asynchronous operation (05 R133, 10, 13 R305). -/
inductive OKind where
  | copy | copyc | cpfill
  | tld | tldc | tst | tzero | tmov | azero
  | mma | mmas | mmap | mdrain | mdrainP
  | mact | mdtab | ttprog | ttbuf | ttstep | ttrun
  | nmwalk
deriving DecidableEq, Repr

/-- A ray of a near-memory walk (13 R306, 16 R341): its eight words, the nodes still to test with the level of each, the entries
found so far as (tnear, pointer word), the words of the node under test as first read (16 R343), and the nodes tested. -/
structure WalkRay where
  ray : Nat
  words : List W32
  todo : List (Nat × Nat)
  hits : List (W32 × Nat)
  got : Option Nat
  seen : List Nat
deriving DecidableEq, Repr

/-- An asynchronous operation with its captured operands (05 R133, R142-R144; 10; 12 R281). `word` is the offset of its word,
`batch` the batch it was closed into, `fctl` the follower's captured control word, `ha` and `hb` the numbers of its shape registers,
`shapes` the captured ones, `args` captured scalars, `names` block tile and fragment numbers, `ctl` captured tile control words,
`bonds` captured bond registers. A copy keeps the elements landed, for COPYC the patterns read for them, the units counted to its
barrier, the segments that did not verify, and the elements whose destination overlaps its source or another copy in flight (05
R135, R138, R140); the sequencer keeps in `landed` what it has done, the walker in `walk` and the descriptor's words in `ctl`.
`missed` lists the pages it waits for and `denied` those whose miss the pager rejected (08 R194); `since` is the ref tick of issue
(19 R399), `heard` that of the last request, response or notice (19 R394, R398), and `spans` the scratchpad bytes an engine
operation reads, as (key, bytes) (10 R245); a sequencer's operation that moves no boundary lists what it reads first, then the
halves (10 R274). -/
structure AOp where
  id : Nat
  kind : OKind
  uid : Nat
  second : Bool
  core : Nat
  launch : Nat
  block : Nat
  word : Nat
  batch : Option Nat
  done : Bool
  fault : Option TrapRec
  started : Bool
  fctl : Nat
  ha : Nat
  hb : Nat
  flags : Nat
  slotDesc : Nat
  rm : Nat
  ftz : Bool
  shapes : List (BitVec 512)
  args : List W32
  names : List Nat
  ctl : List Nat
  bonds : List W32
  landed : List Nat
  read : List Nat
  counted : Nat
  bad : List Nat
  spoil : List Nat
  walk : List WalkRay
  missed : List (Nat × Nat)
  denied : List (Nat × Nat)
  since : Nat
  heard : Nat
  spans : List (Nat × Nat)
deriving DecidableEq, Repr

/-- An operation that has written a tile or, as a pair operation, a fragment: the wave that issued it and the batch it was closed
into; the threads that its completion is `known` to, by an observation of the batch or from one that knew, those `fenced` by an
MFENCE.OP since, those whose release fence is to `relay` it, those that have `read` it by a strong load, for an acquire fence; and
the `places` where a release has left it (09 R210-R212, R225; 10 R244, R245, R252). -/
structure Written where
  op : Nat
  uid : Nat
  batch : Option Nat
  known : List Nat
  fenced : List Nat
  relay : List Nat
  read : List Nat
  places : List (Nat × Nat × Nat)
deriving DecidableEq, Repr

/-- A task record (13 R319-R321, 18 R378). -/
structure TaskRec where
  id : Nat
  launch : Nat
  die : Nat
  core : Nat
  target : Nat
  payload : List W32
  join : Option (Nat × Bool)
  range : Option (Nat × Nat)
  published : Bool
  served : Bool
  since : Nat
deriving DecidableEq, Repr

/-- A page miss of a 64 KiB page: `kind` 0 load, 1 store, 2 fetch, 3 engine, and the die that asked first; `posted` once its
record is in the pager ring (08 R194, 20 R422). -/
structure Miss where
  token : Nat
  asid : Nat
  page : Nat
  kind : Nat
  die : Nat
  posted : Bool
deriving DecidableEq, Repr

/-- A cached sector: 128 bytes of a line named by (ASID, virtual or pool address / 128), with a dirty bit a byte (08 R184); `own`
where its die held its grant when the L2 was filled (09 R219). -/
structure Sector where
  owner : Nat
  pool : Bool
  asid : Nat
  line : Nat
  data : BitVec 1024
  dirty : BitVec 128
  launch : Nat
  own : Bool := false
deriving DecidableEq, Repr

/-- A cached translation (08 R195): the agent, the page named, and the leaf found; `hid` while accesses are given the tables'
translation instead. -/
structure TlbEnt where
  die : Nat
  asid : Nat
  va : Nat
  size : Nat
  pa : Nat
  perms : Nat
  casid : Nat
  cva : Nat
  hid : Bool
deriving DecidableEq, Repr

/-- A remap-filter entry of a die (08 R197). -/
structure FilterEnt where
  asid : Nat
  page : Nat
  size : Nat
  casid : Nat
  cpage : Nat
deriving DecidableEq, Repr

/-- A trigger entry (16 R348). -/
structure Trigger where
  time : Nat
  period : Nat
  queue : Nat
  en : Bool
  lrec : Nat
  fired : Nat
  missed : Nat
deriving DecidableEq, Repr

/-- A frame stream (16 R350-R352): its registers, the sequences committed and pending in `pend`, the held sequence, the time
steps seen at its last record, the ref tick of its last deadline step, the sequences between which commits that broke 16 R354 have
passed others over, and the records published whose write waits on a page: sequence, ASID, address and the 32 bytes. -/
structure Stream where
  en : Bool
  cfgerr : Bool
  fault : Bool
  nbuf : Nat
  ringn : Nat
  msiv : Nat
  msie : Bool
  asid : Nat
  epoch : Nat
  period : Nat
  seq0 : Nat
  bufbase : Nat
  bufsize : Nat
  ringbase : Nat
  lastseq : Nat
  pubcnt : Nat
  nextseq : Nat
  subcnt : Nat
  latecnt : Nat
  pend : List Nat
  src : Nat
  have_ : Bool
  steps : Nat
  stepAt : Option Nat
  spoils : List (Nat × Nat)
  due : List (Nat × Nat × Nat × Nat)
deriving DecidableEq, Repr

/-- A stream after reset (16 R350). -/
def Stream.reset : Stream :=
  { en := false, cfgerr := false, fault := false, nbuf := 0, ringn := 0, msiv := 0, msie := false, asid := 0, epoch := 0, period := 0,
    seq0 := 0, bufbase := 0, bufsize := 0, ringbase := 0, lastseq := 0, pubcnt := 0, nextseq := 0, subcnt := 0, latecnt := 0,
    pend := [], src := 0, have_ := false, steps := 0, stepAt := none, spoils := [], due := [] }

/-- What an event-log entry says (20 R426): a kind and its words. -/
structure LogEnt where
  kind : Nat
  time : Nat
  words : List Nat
deriving DecidableEq, Repr

/-- Firmware slots of the steward, the slot booted, the one the next reset boots, the one committed last, the fused minimum SVN, and
whether the steward has booted since the last reset (20 R415, R419, R427). -/
structure Firmware where
  slotA : List Byte
  slotB : List Byte
  staging : List Byte
  bootedB : Bool
  nextB : Bool
  newerB : Bool
  svnMin : Nat
  up : Bool
deriving DecidableEq, Repr

/-- A group entry of a pool node (19 R403): the window extent, the ASID allowed, and for each slot its offset in the node, the
rank that owns it and whether it is present. -/
structure PoolGroup where
  extent : Nat
  asid : Nat
  slots : List (Nat × Nat × Bool)
deriving DecidableEq, Repr

/-- What acts next, or what arrives from outside (log 2). -/
inductive Turn where
  /-- an event of the opcode table -/
  | event (i : Instr)
  /-- a path that holds its pipe issues its next slot -/
  | issue (uid : Nat) (second : Bool)
  /-- both paths of a fork issue in one clk (04 R104) -/
  | both (uid : Nat)
  /-- one clk of the core clock on every core -/
  | clk
  /-- one ref tick -/
  | tick
  /-- the steward submits a record to a queue in this ref tick (18 R360) -/
  | steward (queue addr : Nat)
  /-- a cache drops sector `n` of its list, writing dirty bytes back first (08 R184) -/
  | evict (n : Nat)
  /-- a translating agent drops cached translation `n` (08 R195) -/
  | dropTlb (n : Nat)
deriving DecidableEq, Repr

/-- The machine. -/
structure State where
  /-- the order of the agents and the inputs to come (log 2) -/
  agenda : List Turn
  /-- counter of free values (log 1) -/
  fresh : Nat
  /-- counter that names waves, blocks, launches, accesses and operations (log 2) -/
  nextId : Nat
  /-- the wave in focus (log 3) -/
  cw : Wave
  /-- every other wave, by uid -/
  waves : SMap Wave
  powered : Bool
  clk : Nat
  ref : Nat
  /-- clk of the last ref tick, in hundredths (00 R4) -/
  tickClk : Nat
  /-- the clk count of each core, which stands while its clock is gated (02 R59, 20 R431) -/
  coreClk : SMap Nat
  launches : SMap Launch
  blocks : SMap Block
  queues : SMap Queue
  gangs : SMap Gang
  accepted : Nat
  /-- the next cluster of a launch's rotation on a die, keyed launch × 4 + die (18 R369) -/
  rotation : SMap Nat
  hbm : SMap Byte
  host : SMap Byte
  /-- ranges of HBM and of host memory that hold undefined bytes: host, first address, length, and the seed of their free bytes (log
  1) -/
  undef : List (Bool × Nat × Nat × Nat)
  pool : SMap Byte
  peers : SMap Byte
  spd : SMap Byte
  gran : SMap Byte
  tiles : SMap Byte
  accm : SMap W32
  banks : SMap W32
  acts : SMap W32
  tctl : SMap W64
  absent : SMap Unit
  /-- bytes of scratchpad, by key, that keep a store's value where a copy in flight lands (05 R121) -/
  crossed : SMap Unit
  badWords : List (Nat × Nat)
  sectors : List Sector
  grants : List (Nat × Nat × Nat)
  /-- keys of the byte barriers that BCNT has made (05 R149, R151) -/
  barriers : List Nat
  /-- the operation that last issued to write each accumulator fragment, by the fragment's key (10 R264) -/
  fragWriters : SMap Nat
  /-- the operation that last wrote each tile (10 R244), and the pair operation that last wrote each fragment of a follower (10
  R252) -/
  tileWrites : SMap Written
  pairWrites : SMap Written
  tlb : List TlbEnt
  filters : SMap (List FilterEnt)
  accs : List Access
  ops : List AOp
  misses : List Miss
  /-- pages (ASID and 64 KiB page) that the device's own reads and status writes wait for, and those the pager rejected -/
  devMissed : List (Nat × Nat)
  devDenied : List (Nat × Nat)
  tasks : List TaskRec
  /-- per core: clk of the last task-wave start, and of the lists going from empty to holding a record (18 R379) -/
  gather : SMap (Nat × Nat)
  /-- per core: bank 1 is the active one, and an exchange of banks is coming (04 R105, R106) -/
  coreSt : SMap CoreSt
  ptp : Nat
  ptpLocked : Bool
  ptpHoldover : Bool
  ptpSteps : Nat
  /-- a step of the time that the next tick takes (16 R347) -/
  ptpStepBy : Int
  /-- nanoseconds still to slew, and the ref tick of the last slewed tick (16 R347) -/
  ptpSlew : Int
  ptpSlewAt : Nat
  ptpOffset : Int
  triggers : SMap Trigger
  /-- one more than the ref tick at which the trigger table was last evaluated (16 R349); 0 before -/
  trigAt : Nat
  /-- what the steward submits in this ref tick, after the doorbells: queue and address (18 R360) -/
  stewardSubs : List (Nat × Nat)
  /-- a launch has completed, and the dependences are to be read (18 R363) -/
  depsDue : Bool
  streams : SMap Stream
  /-- one more than the ref tick at which software last cleared the snapshot's BUSY; 0 before (20 R429) -/
  snapClear : Nat
  /-- registers of BAR0 that hold a plain value, by byte offset (20 R413-R432) -/
  bar : SMap Nat
  mbdata : SMap Byte
  /-- the mailbox command that runs: its opcode and LEN, and that MBDATA was written meanwhile (20 R425) -/
  mbCmd : Option (Nat × Nat × Bool)
  /-- the seed of the granaries' undefined contents (20 R418, log 1) -/
  granSeed : Nat
  evlog : List LogEnt
  logPersisted : Nat
  fw : Firmware
  meas : SMap (List Byte)
  msi : List Nat
  seqSeen : SMap Unit
  /-- packets that wait for a granule of a scratchpad: key, kind, gang, address, bytes and data (19 R404) -/
  heldPackets : List (Nat × Nat × Nat × Nat × Nat × Nat)
  /-- group entries of the pool nodes, keyed node × 256 + group (19 R403) -/
  poolGroups : SMap PoolGroup
  /-- words that entries of the group directory have held: group, word and the ref tick at which it was replaced (19 R402, R411) -/
  dirOld : List (Nat × Nat × Nat)
deriving DecidableEq, Repr

/-- The machine right after power-on reset (20 R418; logs 1 to 7, 15). -/
def State.reset : State :=
  { agenda := [], fresh := Config.seedFirst, nextId := 1, cw := Wave.free, waves := [], powered := true, clk := 0, ref := 0, tickClk := 0
    coreClk := [], launches := [], blocks := [], queues := [], gangs := [], accepted := 0, rotation := [], hbm := [], host := [], undef := []
    pool := [], peers := [], spd := [], gran := [], tiles := [], accm := [], banks := [], acts := [], tctl := [], absent := [], crossed := []
    badWords := [], sectors := [], grants := [], tlb := [], barriers := [], fragWriters := [], tileWrites := [], pairWrites := [], filters := [], accs := [], ops := []
    misses := [], devMissed := [], devDenied := [], tasks := [], gather := [], coreSt := [], ptp := 0, ptpLocked := false
    ptpHoldover := false, ptpSteps := 0, ptpStepBy := 0, ptpSlew := 0, ptpSlewAt := 0, ptpOffset := 0, triggers := [], trigAt := 0
    stewardSubs := [], depsDue := false, streams := [], snapClear := 0, bar := [], mbdata := [], mbCmd := none
    granSeed := Config.seedGran, evlog := [], logPersisted := 0
    fw := { slotA := [], slotB := [], staging := [], bootedB := false, nextB := false, newerB := false, svnMin := 0, up := false }, meas := []
    msi := [], seqSeen := [], heldPackets := [], poolGroups := [], dirOld := [] }

end Sys2Proof.Machine
end

