-- ==== Sys2Proof/Machine/Operands.lean ====
section
/-! DEFINITION. The registers of the wave in focus: operands read and written (01 R33-R36, R41; 04 R90-R95), lane masks
(02 R78), the status register (02 R60), and the state of the launch and block a wave belongs to. -/

namespace Sys2Proof.Machine

open Sys2Proof (Operand W32 W64 Byte Mask SMap SMap.get? SMap.set SMap.getD SMap.modify SMap.del)

/-- What a step answers. -/
abbrev Res := Host.Outcome State Fault Refusal

/-- The inline constants (01 R36). -/
def constVal (i : Nat) : W32 :=
  if i < 0x40 then BitVec.ofNat 32 i
  else if i < 0x50 then BitVec.ofInt 32 (-((i - 0x40 : Nat) : Int) - 1)
  else if i < 0x60 then BitVec.ofNat 32 (2 ^ (6 + (i - 0x50)))
  else (([0x000000FF, 0x0000FFFF, 0x00FFFFFF, 0x7FFFFFFF, 0x80000000, 0xFFFF0000, 0x0000000F, 0x0F0F0F0F,
    0x3F000000, 0x3F800000, 0x40000000, 0x40800000, 0xBF000000, 0xBF800000, 0xC0000000, 0xC0800000,
    0x3E800000, 0x41000000, 0x40490FDB, 0x40C90FDB, 0x3EA2F983, 0x3F317218, 0x3FB8AA3B, 0x3B808081,
    0x437F0000, 0x7F800000, 0xFF800000, 0x7FC00000, 0x7F7FFFFF, 0x00800000, 0x40400000, 0x3DCCCCCD] : List W32)[i - 0x60]?).getD 0

/-- An inline constant extended to `n` words: entries 0x40 to 0x4F sign-extended, the others zero-extended (01 R36). -/
def constWords (i n : Nat) : List W32 :=
  constVal i :: List.replicate (n - 1) (if 0x40 ≤ i && i < 0x50 then 0xFFFFFFFF#32 else 0#32)

/-- The launch record of the wave in focus. -/
def State.lrec (s : State) : LRec :=
  match SMap.get? s.launches s.cw.launch with
  | some l => l.rec_
  | none => LRec.unset

/-- The launch record of a launch. -/
def State.lrecOf (s : State) (launch : Nat) : LRec :=
  match SMap.get? s.launches launch with
  | some l => l.rec_
  | none => LRec.unset

/-- The block of the wave in focus. -/
def State.blk (s : State) : Option Block := SMap.get? s.blocks s.cw.block

/-- Waves in the block of the wave in focus (04 R90); 1 for a wave without a block. -/
def State.nwaves (s : State) : Nat :=
  match s.blk with
  | some b => b.nwaves
  | none => 1

/-- A block's coordinate (01 R34); a task wave reads 0xFFFF_FFFF (13 R319). -/
def State.blkCoord (s : State) (axis : Nat) : W32 :=
  match s.blk with
  | none => 0
  | some b =>
    if b.isTask then 0xFFFFFFFF#32
    else
      let r := s.lrec
      match axis with
      | 0 => BitVec.ofNat 32 (b.index % r.gridx)
      | 1 => BitVec.ofNat 32 (b.index / r.gridx % r.gridy)
      | _ => BitVec.ofNat 32 (b.index / r.gridx / r.gridy)

/-- The value of a special that is the same for every lane (01 R34). -/
def State.special (s : State) (i : Nat) : W32 :=
  match i with
  | 0 => 0
  | 1 => 0xFFFFFFFF#32
  | 3 => BitVec.ofNat 32 s.cw.widx
  | 4 => s.blkCoord 0
  | 5 => s.blkCoord 1
  | 6 => s.blkCoord 2
  | 7 => BitVec.ofNat 32 s.nwaves
  | 8 => BitVec.ofNat 32 s.cw.core
  | 9 => if s.cw.second then 1 else 0
  | 10 => BitVec.ofNat 32 s.cw.slot
  | _ => 0

/-- Registers of the wave's register stack, S (04 R87, R95). -/
def State.stackRegs (s : State) : Nat := s.lrec.stackregs

/-- The physical register of a vector name of the current window (04 R95). -/
def State.phys (s : State) (i : Nat) : Nat := (s.cw.wbase + i) % s.stackRegs

/-- Scalar register i. -/
def Wave.sreg (w : Wave) (i : Nat) : W32 := SMap.getD w.sregs i 0

/-- Lane l of physical vector register r; undefined until written (04 R92, log 4). -/
def Wave.vphys (w : Wave) (r l : Nat) : W32 :=
  match SMap.get? w.vregs (r * 32 + l) with
  | some x => x
  | none =>
    match SMap.get? w.vundef r with
    | some n => Config.freeWord n (r * 32 + l)
    | none =>
      match w.vseed with
      | none => 0
      | some n => Config.freeWord n (r * 32 + l)

/-- Physical vector registers become undefined. -/
def Wave.forgetV (w : Wave) (rs : List Nat) (seed : Nat) : Wave :=
  { w with
    vregs := w.vregs.filter fun x => !rs.contains (x.1 / 32)
    vundef := rs.foldl (fun m r => SMap.set m r seed) w.vundef
    poison := w.poison.filter fun p => !(p.cls == 0 && rs.contains p.reg) }

/-- Condition flag register i (02 R78). -/
def Wave.preg (w : Wave) (i : Nat) : Mask := SMap.getD w.pflags i 0

/-- Sample k of lane l of spectral register r (13 R309); undefined until written. -/
def Wave.wsamp (w : Wave) (r l k : Nat) : W32 :=
  match SMap.get? w.wregs ((r * 32 + l) * 8 + k) with
  | some x => x
  | none => match w.wseed with
    | none => 0
    | some n => Config.freeWord n ((r * 32 + l) * 8 + k)

/-- Trap scalar i; undefined until written (04 R92, R103). -/
def Wave.ereg (w : Wave) (i : Nat) : W32 :=
  match SMap.get? w.eregs i with
  | some x => x
  | none => match w.eseed with
    | none => 0
    | some n => Config.freeWord n i

/-- Shape register i (05 R129). -/
def Wave.hreg (w : Wave) (i : Nat) : BitVec 512 := SMap.getD w.hregs i 0

/-- Bond register i (10 R265). -/
def Wave.dreg (w : Wave) (i : Nat) : W32 := SMap.getD w.dregs i 1

/-- Clear the poison of a written register (04 R109). -/
def Wave.clean (w : Wave) (cls reg lane : Nat) : Wave :=
  { w with poison := w.poison.filter fun p => !(p.cls == cls && p.reg == reg && p.lane == lane) }

/-- The classes of poison in the rest of a bank's context (04 R105, R109; DESIGN CHOICE: log 23): condition flag register `reg`,
byte k of which holds lanes 8k to 8k + 7; an execution mask of path `reg`, with `lane` stack entries under it, 0 for the base mask;
system register `reg`, a latch's of path `lane`; the PC or resume slot of path `reg`; the window's base or size; and the window link
with `reg` links under it. -/
abbrev poisonP : Nat := 3
abbrev poisonMask : Nat := 4
abbrev poisonSys : Nat := 5
abbrev poisonPc : Nat := 6
abbrev poisonWindow : Nat := 7
abbrev poisonLink : Nat := 8

/-- The flags of the lanes listed are written: a byte whose eight lanes are all among them is good again (04 R109). -/
def Wave.cleanFlags (w : Wave) (i : Nat) (ls : List Nat) : Wave :=
  { w with poison := w.poison.filter fun p => !(p.cls == poisonP && p.reg == i && (List.range 8).all fun k => ls.contains (8 * p.byte + k)) }

/-- The masks and the PC of a path are written whole (04 R109). -/
def Wave.cleanPath (w : Wave) (second : Bool) : Wave :=
  { w with poison := w.poison.filter fun p => !((p.cls == poisonMask || p.cls == poisonPc) && p.reg == second.toNat) }

/-- The poison that trap entry leaves: it writes the trap registers, e0 to e15, and the PC of the path in focus (04 R103, R109). -/
def Wave.trapPoison (w : Wave) : List PoisonAt :=
  w.poison.filter fun p =>
    !(p.cls == 2 || (p.cls == poisonSys && 1 ≤ p.reg && p.reg ≤ 7) || (p.cls == poisonPc && p.reg == w.second.toNat))

/-- Write a scalar register. -/
def Wave.setS (w : Wave) (i : Nat) (x : W32) : Wave := { w.clean 1 i 0 with sregs := SMap.set w.sregs i x }
/-- Write a lane of a physical vector register. -/
def Wave.setV (w : Wave) (r l : Nat) (x : W32) : Wave := { w.clean 0 r l with vregs := SMap.set w.vregs (r * 32 + l) x }
/-- Write a condition flag register. -/
def Wave.setP (w : Wave) (i : Nat) (m : Mask) : Wave := { w with pflags := SMap.set w.pflags i m }
/-- Write a sample of a spectral register. -/
def Wave.setW (w : Wave) (r l k : Nat) (x : W32) : Wave := { w with wregs := SMap.set w.wregs ((r * 32 + l) * 8 + k) x }
/-- Write a trap scalar. -/
def Wave.setE (w : Wave) (i : Nat) (x : W32) : Wave := { w.clean 2 i 0 with eregs := SMap.set w.eregs i x }
/-- Write a shape register. -/
def Wave.setH (w : Wave) (i : Nat) (x : BitVec 512) : Wave := { w with hregs := SMap.set w.hregs i x }
/-- Write a bond register. -/
def Wave.setD (w : Wave) (i : Nat) (x : W32) : Wave := { w with dregs := SMap.set w.dregs i x }

/-- Change the wave in focus. -/
def State.onWave (s : State) (f : Wave → Wave) : State := { s with cw := f s.cw }

/-- A scalar operand's 32-bit value: a scalar, a special, a constant or a trap scalar (01 R41 `ReadOp`). -/
def State.rdS (s : State) (o : Operand) : W32 :=
  match o with
  | .s i => s.cw.sreg i
  | .sp i => s.special i
  | .c i => constVal i
  | .e i => s.cw.ereg i
  | _ => 0

/-- `ReadOp(f, l)` of 01 R41: the value an operand supplies to lane l. -/
def State.rdL (s : State) (o : Operand) (l : Nat) : W32 :=
  match o with
  | .v i => s.cw.vphys (s.phys i) l
  | .sp i => if i = 2 then BitVec.ofNat 32 l else s.special i
  | _ => s.rdS o

/-- `n` consecutive registers of an operand for lane l, or a constant extended to them (01 R29, R36). -/
def State.rdWords (s : State) (o : Operand) (n l : Nat) : List W32 :=
  match o with
  | .v i => (List.range n).map fun k => s.cw.vphys (s.phys (i + k)) l
  | .s i => (List.range n).map fun k => s.cw.sreg (i + k)
  | .e i => (List.range n).map fun k => s.cw.ereg (i + k)
  | .c i => constWords i n
  | _ => s.rdS o :: List.replicate (n - 1) 0

/-- `ReadOp64` of 01 R41 for lane l. -/
def State.rd64L (s : State) (o : Operand) (l : Nat) : W64 := BitVec.ofNat 64 (ofWords (s.rdWords o 2 l))

/-- `ReadOp64` of a scalar operand. -/
def State.rd64 (s : State) (o : Operand) : W64 := s.rd64L o 0

/-- `WriteOp` of 01 R41 to a scalar destination; `zero` discards. -/
def State.wrS (s : State) (o : Operand) (x : W32) : State :=
  match o with
  | .s i => s.onWave fun w => w.setS i x
  | .e i => s.onWave fun w => w.setE i x
  | _ => s

/-- Write a pair, low half first; `zero` discards. -/
def State.wr64 (s : State) (o : Operand) (x : W64) : State :=
  match o with
  | .s i => s.onWave fun w => (w.setS i (x.setWidth 32)).setS (i + 1) ((x >>> 32).setWidth 32)
  | .e i => s.onWave fun w => (w.setE i (x.setWidth 32)).setE (i + 1) ((x >>> 32).setWidth 32)
  | _ => s

/-- `WriteOp` of 01 R41 to lane l of a vector register. -/
def State.wrL (s : State) (o : Operand) (l : Nat) (x : W32) : State :=
  match o with
  | .v i => s.onWave fun w => w.setV (s.phys i) l x
  | _ => s

/-- Write the lanes listed of a vector register, every value computed from the state before (02 R64). -/
def State.wrLanes (s : State) (o : Operand) (ls : List Nat) (g : Nat → W32) : State :=
  match o with
  | .v i => s.onWave fun w => ls.foldl (fun w l => w.setV (s.phys i) l (g l)) w
  | _ => s

/-- Write the lanes listed of a vector pair (02 R67). -/
def State.wrLanes64 (s : State) (o : Operand) (ls : List Nat) (g : Nat → W64) : State :=
  match o with
  | .v i => s.onWave fun w => ls.foldl (fun w l =>
      (w.setV (s.phys i) l ((g l).setWidth 32)).setV (s.phys (i + 1)) l ((g l >>> 32).setWidth 32)) w
  | _ => s

/-- Set the flags of the lanes listed; the other lanes keep theirs (02 R79). -/
def State.wrFlags (s : State) (o : Operand) (ls : List Nat) (g : Nat → Bool) : State :=
  match o with
  | .p i => s.onWave fun w => (w.cleanFlags i ls).setP i (maskOf fun l => if ls.contains l then g l else (w.preg i).getLsbD l)
  | _ => s

/-- The flag of lane l in a p register. -/
def State.flag (s : State) (o : Operand) (l : Nat) : Bool :=
  match o with
  | .p i => (s.cw.preg i).getLsbD l
  | _ => false

/-- `ExecMask()` (02 R78). -/
def PathSt.execMask (p : PathSt) : Mask :=
  match p.stack with
  | e :: _ => e.mask
  | [] => p.base

/-- `ExecMask()` of the path in focus. -/
def State.execMask (s : State) : Mask := s.cw.pa.execMask

/-- `ActiveLanes()` of 01 R41. -/
def State.active (s : State) (all : Bool) : List Nat := if all then allLanes else lanesOf s.execMask

/-- WSR.RM (02 R60). -/
def Wave.rm (w : Wave) : Nat := w.wsr.toNat % 8
/-- WSR.FTZ (02 R60). -/
def Wave.ftz (w : Wave) : Bool := w.wsr.getLsbD 3
/-- WSR.WPK (02 R60). -/
def Wave.wpk (w : Wave) : Bool := w.wsr.getLsbD 4
/-- WSR.TM, `InTrapMode()` (02 R60, 01 R41). -/
def Wave.tm (w : Wave) : Bool := w.wsr.getLsbD 5
/-- WSR.FORKED, `WaveForked()` (02 R60, R80). -/
def Wave.forked (w : Wave) : Bool := w.wsr.getLsbD 6

/-- A WSR value from its fields (02 R60); the reserved bits are 0. -/
def mkWsr (forked tm wpk ftz : Bool) (rm : Nat) : W32 :=
  BitVec.ofNat 32 (forked.toNat * 64 + tm.toNat * 32 + wpk.toNat * 16 + ftz.toNat * 8 + rm % 8)

/-- Set WSR.TM. -/
def Wave.setTm (w : Wave) (b : Bool) : Wave := { w with wsr := mkWsr w.forked b w.wpk w.ftz w.rm }
/-- Set WSR.FORKED. -/
def Wave.setForked (w : Wave) (b : Bool) : Wave := { w with wsr := mkWsr b w.tm w.wpk w.ftz w.rm }

/-- Samples of a spectral packet, K (13 R309). -/
def Wave.packet (w : Wave) : Nat := if w.wpk then 8 else 4

/-- Write a register named by class and physical index. -/
def Wave.setReg (w : Wave) (r : Cls × Nat) (l : Nat) (x : W32) : Wave :=
  match r.1 with
  | .v => w.setV r.2 l x
  | .s => w.setS r.2 x
  | .e => w.setE r.2 x
  | _ => w

/-- The registers `n` from an operand, by class and physical index. -/
def State.regsOf (s : State) (o : Operand) (n : Nat) : List (Cls × Nat) :=
  match o with
  | .v i => (List.range n).map fun k => (Cls.v, s.phys (i + k))
  | .s i => (List.range n).map fun k => (Cls.s, i + k)
  | .e i => (List.range n).map fun k => (Cls.e, i + k)
  | .w i => (List.range n).map fun k => (Cls.w, i + k)
  | .h i => (List.range n).map fun k => (Cls.h, i + k)
  | .d i => (List.range n).map fun k => (Cls.d, i + k)
  | .p i => (List.range n).map fun k => (Cls.p, i + k)
  | _ => []

/-- Advance the counter of free values and give its old value. -/
def State.draw (s : State) : Nat × State := (s.fresh, { s with fresh := s.fresh + 1 })

/-- A new name for a wave, block, launch, access or operation. -/
def State.newId (s : State) : Nat × State := (s.nextId, { s with nextId := s.nextId + 1 })

end Sys2Proof.Machine
end

