-- ==== Sys2Proof/Machine/Flags.lean ====
section
/-! DEFINITION. Conditions and condition flags: branch conditions (01 R30), the flag operations and the predicate stack
(02 R78, R79), and the lanes a write keeps (02 R48). -/

namespace Sys2Proof.Machine

open Sys2Proof (Operand W32 W64 Byte Mask SMap SMap.get? SMap.set SMap.getD SMap.modify SMap.del)

/-- The branch conditions of 01 R30, for the value of COND and the execution mask. CALL's CC 5 is `.NZ`, the same test. -/
def branchCond (cc : Nat) (x : W32) (m : Mask) : Bool :=
  match cc with
  | 0 => true
  | 1 => x == 0
  | 2 => x != 0
  | 3 => x.slt 0
  | 4 => !x.slt 0
  | 5 => m != 0
  | _ => m == 0

/-- The PSET operations 1 to 7 on two flags (02 R79). -/
def psetOp (op : Nat) (a b : Bool) : Bool :=
  match op with
  | 1 => a && b
  | 2 => a || b
  | 3 => a != b
  | 4 => a && !b
  | 5 => !a
  | 6 => true
  | _ => false

/-- Depth of the predicate stack (02 R78). -/
def PathSt.depth (p : PathSt) : Nat := p.stack.length

/-- The deepest predicate stack (02 R78). -/
abbrev maxDepth : Nat := 16

/-- Push an entry. -/
def PathSt.push (p : PathSt) (e : PEntry) : PathSt := { p with stack := e :: p.stack }

/-- Push an entry on the stack of the path in focus: its bytes are new data (04 R109). -/
def State.pushMask (s : State) (e : PEntry) : State :=
  s.onWave fun w => { (w.clean poisonMask w.second.toNat (w.pa.depth + 1)) with pa := w.pa.push e }

/-- The mask below the top entry: the entry under it, or the base mask (02 R79 PINV). -/
def PathSt.below (p : PathSt) : Mask :=
  match p.stack with
  | _ :: e :: _ => e.mask
  | _ => p.base

/-- The top entry's mask m becomes m' and not m (02 R79 PINV). -/
def PathSt.invert (p : PathSt) : PathSt :=
  match p.stack with
  | e :: t => { p with stack := { e with mask := p.below &&& ~~~e.mask } :: t }
  | [] => p

/-- The flags p7 to p0 of a lane as bits 7 to 0 (02 R79 PPACK). -/
def Wave.flagByte (w : Wave) (l : Nat) : W32 :=
  BitVec.ofNat 32 ((List.range 8).foldl (fun a k => if (w.preg k).getLsbD l then a + 2 ^ k else a) 0)

/-- Set the flags p0 to p7 of the lanes listed from the bits of a byte (02 R79 PUNPK). -/
def Wave.setFlagBytes (w : Wave) (ls : List Nat) (g : Nat → W32) : Wave :=
  (List.range 8).foldl (fun (w : Wave) k =>
    (w.cleanFlags k ls).setP k (maskOf fun l => if ls.contains l then (g l).getLsbD k else (w.preg k).getLsbD l)) w

/-- FORK and the wave's flags: the lanes of the execution mask with the flag set, and the others (02 R80). -/
def forkMasks (m flags : Mask) : Mask × Mask := (m &&& flags, m &&& ~~~flags)

end Sys2Proof.Machine
end

