-- ==== Sys2Proof/Machine/Order.lean ====
section
/-! DEFINITION. Which paths the completion of a tile's or a fragment's writer happens before: observed batches, releases and
acquires, fences, forks and MFENCE.OP (09 R206-R212; 10 R244, R245, R252). -/

namespace Sys2Proof.Machine

open Sys2Proof (SMap SMap.get? SMap.set)

/-- The number of a path as a thread (09 R206). -/
def threadNo (uid : Nat) (second : Bool) : Nat := 2 * uid + second.toNat

/-- The thread of the path in focus. -/
def State.thread (s : State) : Nat := threadNo s.cw.uid s.cw.second

/-- Where a release leaves order: memory and bytes, as pieces name them, or one of the kinds below. -/
abbrev Place3 := Nat × Nat × Nat

/-- A generation of a circle (05 R146; 09 R211). -/
def circlePlace (block circ gen : Nat) : Place3 := (10, block * 256 + circ, gen)
/-- A byte barrier, by its key (05 R148; 09 R211). -/
def barrPlace (key : Nat) : Place3 := (3, key, 16)
/-- The attach of a gang (17 R356). -/
def mootPlace (gid : Nat) : Place3 := (11, gid, 0)
/-- A task record (13 R320, R322). -/
def taskPlace (id : Nat) : Place3 := (12, id, 0)
/-- What an access that has not been performed will leave: an order its path had as the access issued. -/
def accPlace (id : Nat) : Place3 := (20, id, 0)

/-- A thread comes to know that the operation has completed. -/
def Written.learn (t : Nat) (w : Written) : Written := { w with known := insertNat t w.known }

/-- A release of a thread leaves at a place what it knows (09 R210). -/
def Written.put (t : Nat) (p : Place3) (w : Written) : Written :=
  if w.known.contains t && !w.places.contains p then { w with places := p :: w.places } else w

/-- An acquire of a thread takes what a place holds (09 R211). -/
def Written.take (t : Nat) (p : Place3) (w : Written) : Written := if w.places.contains p then w.learn t else w

/-- The batch of the operation is observed by a path of its wave (09 R225). -/
def Written.observe (uid n t : Nat) (w : Written) : Written := if w.uid = uid && w.batch == some n then w.learn t else w

/-- MFENCE.OP of a thread: engine operations that it issues after may read what it knows to be written (10 R245). -/
def Written.ready (t : Nat) (w : Written) : Written := if w.known.contains t then { w with fenced := insertNat t w.fenced } else w

/-- A release fence of a thread: its later strong stores leave what it knows now (09 R210). -/
def Written.relFence (t : Nat) (w : Written) : Written := if w.known.contains t then { w with relay := insertNat t w.relay } else w

/-- An acquire fence of a thread: what its earlier strong loads read is known (09 R210). -/
def Written.acqFence (t : Nat) (w : Written) : Written := if w.read.contains t then w.learn t else w

/-- A FORK or a JOIN: what holds for thread `a` holds for thread `b` too (09 R211). -/
def Written.share (a b : Nat) (w : Written) : Written :=
  let both (l : List Nat) : List Nat := if l.contains a then insertNat b l else l
  { w with known := both w.known, fenced := both w.fenced, relay := both w.relay, read := both w.read }

/-- Do two places share a byte of memory? -/
def placesMeet (p q : Place3) : Bool := p.1 == q.1 && decide (p.2.1 < q.2.1 + q.2.2 && q.2.1 < p.2.1 + p.2.2)

/-- A store of another kind than a read-modify-write ends what the bytes carried (09 R211). -/
def Written.overwrite (ps : List Place3) (w : Written) : Written :=
  { w with places := w.places.filter fun q => !ps.any fun p => placesMeet p q }

/-- Change what is kept of every writer. -/
def State.modOrder (s : State) (f : Written → Written) : State :=
  { s with tileWrites := s.tileWrites.map fun x => (x.1, f x.2), pairWrites := s.pairWrites.map fun x => (x.1, f x.2) }

/-- The path in focus releases at a place. -/
def State.putOrder (s : State) (p : Place3) : State := s.modOrder (Written.put s.thread p)

/-- The path in focus acquires from a place. -/
def State.takeOrder (s : State) (p : Place3) : State := s.modOrder (Written.take s.thread p)

end Sys2Proof.Machine
end

