-- ==== Sys2Proof/WellFormed.lean ====
section
/-! DEFINITION. Well-formed instructions: the ones whose fields an encoding can hold without a reserved-field or
illegal-operand trap (01 R8, R9, R27, R28, R32-R35). What depends on the wave (trap mode, the window, the clause) is
checked by the decoder. -/

namespace Sys2Proof

open Sys2Proof.Machine (Chk chkOf Pos.legal)

/-- No reserved field is used and no field holds an unassigned value. -/
def Instr.fieldsOk (i : Instr) : Bool := !(chkOf i).res

/-- Every operand is of a class its position accepts, aligned, and inside its register file. -/
def Instr.operandsOk (i : Instr) : Bool := !(chkOf i).ill && (chkOf i).pos.all Pos.legal

/-- The instruction is one an encoding stands for. -/
def Instr.wellFormed (i : Instr) : Bool := i.fieldsOk && i.operandsOk

end Sys2Proof
end

