-- ==== Sys2Proof/Decode.lean ====
section
/-! DEFINITION. The decoder and the encoder (01 R15-R39): the six formats, the opcode map, the checks of one slot in the
order of 01 R39, and the words of an instruction. -/

namespace Sys2Proof

open Sys2Proof.Machine

/-- The checks of 01 R39, by name. -/
inductive DecodeError where
  /-- the opcode is unassigned -/
  | illegalOpcode
  /-- the opcode is outside the clause's legal set -/
  | classMismatch
  /-- a reserved field is nonzero, or a field or operand value is unassigned -/
  | reservedField
  /-- an operand's class, alignment or trap-mode rule is broken -/
  | illegalOperand
  /-- a vector name at or above the window size, or a CALL window above the launch's cap -/
  | registerWindow
  /-- a control transfer outside the clause's last slot -/
  | branchPlacement
deriving DecidableEq, Repr

/-- A Nat cut to `n` values. -/
def fin (n x : Nat) (h : 0 < n) : Fin n := ⟨x % n, Nat.mod_lt x h⟩

/-- R-format fields of the low 55 bits (01 R26). -/
def RF.ofBits (x : Nat) : Option RF :=
  match ofField (fld x 45 10), ofField (fld x 35 10), ofField (fld x 25 10), ofField (fld x 15 10) with
  | some d, some a, some b, some c =>
    some ⟨d, a, b, c, fin 8 (fld x 12 3) (by decide), fin 64 (fld x 6 6) (by decide), fld x 5 1 == 1,
      fin 32 (fld x 0 5) (by decide)⟩
  | _, _, _, _ => none

/-- The low 55 bits of an R-format instruction. -/
def RF.bits (f : RF) : Nat :=
  toField f.dst * 2 ^ 45 + toField f.a * 2 ^ 35 + toField f.b * 2 ^ 25 + toField f.c * 2 ^ 15 + f.fslot.val * 2 ^ 12 +
    f.mod.val * 2 ^ 6 + f.all.toNat * 2 ^ 5 + f.sub.val

/-- I-format fields (01 R26). -/
def IF.ofBits (x : Nat) : Option IF :=
  match ofField (fld x 45 10), ofField (fld x 35 10) with
  | some d, some a => some ⟨d, a, fin 8 (fld x 32 3) (by decide), BitVec.ofNat 32 x⟩
  | _, _ => none

/-- The low 55 bits of an I-format instruction. -/
def IF.bits (f : IF) : Nat := toField f.dst * 2 ^ 45 + toField f.a * 2 ^ 35 + f.subh.val * 2 ^ 32 + f.imm.toNat

/-- M-format fields (01 R26). -/
def MF.ofBits (x : Nat) : Option MF :=
  match ofField (fld x 45 10), ofField (fld x 35 10) with
  | some d, some a =>
    some ⟨d, a, fin 8 (fld x 32 3) (by decide), fin 8 (fld x 29 3) (by decide), fin 8 (fld x 26 3) (by decide),
      fin 4 (fld x 24 2) (by decide), fin 256 (fld x 16 8) (by decide), BitVec.ofNat 16 x⟩
  | _, _ => none

/-- The low 55 bits of an M-format instruction. -/
def MF.bits (f : MF) : Nat :=
  toField f.data * 2 ^ 45 + toField f.addr * 2 ^ 35 + f.space.val * 2 ^ 32 + f.scope.val * 2 ^ 29 + f.order.val * 2 ^ 26 +
    f.cache.val * 2 ^ 24 + f.rcd.val * 2 ^ 16 + f.off.toNat

/-- B-format fields (01 R26); bits [34:32] are reserved. -/
def BF.ofBits (x : Nat) : Option BF :=
  if fld x 32 3 != 0 then none else
    match ofField (fld x 45 10) with
    | some c => some ⟨c, fin 8 (fld x 42 3) (by decide), fin 128 (fld x 35 7) (by decide), BitVec.ofNat 32 x⟩
    | none => none

/-- The low 55 bits of a B-format instruction. -/
def BF.bits (f : BF) : Nat := toField f.cond * 2 ^ 45 + f.cc.val * 2 ^ 42 + f.w.val * 2 ^ 35 + f.off.toNat

/-- A-format fields (01 R26). -/
def AF.ofBits (x : Nat) : Option AF :=
  match ofField (fld x 37 10), ofField (fld x 27 10) with
  | some a, some b =>
    some ⟨fin 16 (fld x 51 4) (by decide), fin 16 (fld x 47 4) (by decide), a, b, fin 8 (fld x 24 3) (by decide),
      BitVec.ofNat 24 x⟩
  | _, _ => none

/-- The low 55 bits of an A-format instruction. -/
def AF.bits (f : AF) : Nat :=
  f.ha.val * 2 ^ 51 + f.hb.val * 2 ^ 47 + toField f.opa * 2 ^ 37 + toField f.opb * 2 ^ 27 + f.fslot.val * 2 ^ 24 +
    f.flags.toNat

/-- Opcodes of the R format (01 R37). -/
def rOps : List Nat :=
  [0x001, 0x002, 0x003, 0x004, 0x005, 0x006, 0x007, 0x008, 0x009, 0x00A, 0x00B, 0x00C, 0x00D, 0x00E,
   0x00F, 0x010, 0x011, 0x012, 0x013, 0x014, 0x015, 0x040, 0x041, 0x042, 0x043, 0x044, 0x045, 0x046,
   0x047, 0x048, 0x049, 0x04A, 0x04B, 0x04C, 0x060, 0x061, 0x062, 0x063, 0x064, 0x065, 0x066, 0x067,
   0x080, 0x081, 0x082, 0x083, 0x084, 0x085, 0x086, 0x087, 0x088, 0x089, 0x08A, 0x08B, 0x08C, 0x08D,
   0x08E, 0x08F, 0x090, 0x091, 0x092, 0x093, 0x094, 0x095, 0x096, 0x097, 0x0B0, 0x0B1, 0x0B2, 0x0B3,
   0x0C0, 0x0C1, 0x0C2, 0x0C3, 0x0C4, 0x0C5, 0x0C6, 0x0C7, 0x0C8, 0x0C9, 0x0CA, 0x0CB, 0x0CC, 0x0CD,
   0x0CE, 0x0CF, 0x0E0, 0x0E1, 0x0E2, 0x0E3, 0x0E4, 0x0E5, 0x0E6, 0x0E7, 0x0E8, 0x0E9, 0x0EA, 0x0EB,
   0x0EC, 0x0ED, 0x0EE, 0x0EF, 0x134, 0x135, 0x140, 0x144, 0x145, 0x146, 0x150, 0x151, 0x158, 0x180,
   0x181, 0x182, 0x183, 0x184, 0x190, 0x191, 0x192, 0x193, 0x194, 0x195, 0x196, 0x197, 0x198, 0x199,
   0x19A, 0x19B, 0x19C, 0x19D, 0x1A0, 0x1A1, 0x1A2, 0x1A3, 0x1A4, 0x1A5, 0x1E0, 0x1E1, 0x1E8]

/-- Opcodes of the I format (01 R37). -/
def iOps : List Nat :=
  [0x020, 0x021, 0x022, 0x023, 0x024, 0x025, 0x026, 0x027, 0x028, 0x029, 0x02A, 0x02B, 0x02C, 0x02D,
   0x02E, 0x02F, 0x030, 0x031, 0x0A0, 0x0A1, 0x0A2, 0x0A3, 0x0A4, 0x0A5, 0x0A6, 0x0A7, 0x0A8, 0x0A9,
   0x0AA, 0x0AB, 0x0AC, 0x0AD, 0x0AE, 0x0AF, 0x0D0, 0x0D1, 0x0D2, 0x0D3, 0x0D4, 0x0D5, 0x1E2, 0x1E3,
   0x1E4, 0x1E5]

/-- Opcodes of the M format (01 R37). -/
def mOps : List Nat :=
  [0x100, 0x101, 0x102, 0x103, 0x104, 0x105, 0x106, 0x107, 0x108, 0x109, 0x10A, 0x10B, 0x10C, 0x10D,
   0x10E, 0x10F, 0x110, 0x111, 0x112, 0x113, 0x114, 0x115, 0x116, 0x117, 0x118, 0x119, 0x11A, 0x11B,
   0x11C, 0x11D, 0x11E, 0x11F, 0x120, 0x121, 0x122, 0x123, 0x124, 0x125, 0x126, 0x127, 0x128, 0x129,
   0x12A, 0x12B, 0x12C, 0x12D, 0x12F, 0x130, 0x131, 0x132, 0x133, 0x19E, 0x1D0, 0x1D1]

/-- Opcodes of the B format (01 R37). -/
def bOps : List Nat :=
  [0x050, 0x051, 0x052, 0x053, 0x054, 0x055, 0x056, 0x057]

/-- Opcodes of the A format (01 R37). -/
def aOps : List Nat :=
  [0x136, 0x137, 0x138, 0x141, 0x142, 0x143, 0x147, 0x148, 0x149, 0x14A, 0x14B, 0x14E, 0x14F, 0x159,
   0x15A, 0x15B, 0x15C, 0x185]

/-- Opcodes of the S format, and NOP and ERET, whose low 55 bits are all reserved (01 R37, R38, 02 R62). -/
def sOps : List Nat :=
  [0x000, 0x12E, 0x139, 0x13A, 0x13B, 0x13C, 0x13D, 0x13E, 0x13F, 0x14C, 0x14D, 0x1C0,
   0x1C1, 0x1C2, 0x1C3, 0x1C4, 0x1C5, 0x1C6, 0x1C7, 0x1D2, 0x1D3, 0x1D4, 0x1E6, 0x1E9,
   0x1EA]

/-- The fields of an S-format instruction from its low 55 bits; none where a reserved bit is set or an operand value unassigned. -/
def sFields (op x : Nat) : Option Fmt :=
  let o45 := ofField (fld x 45 10)
  let o35 := ofField (fld x 35 10)
  let o25 := ofField (fld x 25 10)
  let n30 := fin 32 (fld x 30 5) (by decide)
  let circ := fin 256 (fld x 24 8) (by decide)
  match op with
  | 0x000 => if x = 0 then some .nul else none
  | 0x1E6 => if x = 0 then some .nul else none
  | 0x12E => if fld x 0 50 = 0 then some (.fence ⟨fin 8 (fld x 52 3) (by decide), fin 4 (fld x 50 2) (by decide)⟩) else none
  | 0x139 =>
    match o45, o35 with
    | some d, some a => if fld x 0 24 = 0 then some (.bar ⟨d, a, fin 8 (fld x 32 3) (by decide), circ⟩) else none
    | _, _ => none
  | 0x13A =>
    match o45 with
    | some d => if fld x 0 24 = 0 && fld x 32 13 = 0 then some (.bara ⟨d, circ⟩) else none
    | none => none
  | 0x13B =>
    match o35 with
    | some a => if fld x 0 24 = 0 && fld x 32 3 = 0 && fld x 45 10 = 0 then some (.barw ⟨a, circ⟩) else none
    | none => none
  | 0x13C =>
    match o35 with
    | some a => if fld x 0 24 = 0 && fld x 32 3 = 0 && fld x 45 10 = 0 then some (.bcnt ⟨a, circ⟩) else none
    | none => none
  | 0x13D =>
    match o45, o35, o25 with
    | some d, some a, some b => if fld x 0 25 = 0 then some (.barx ⟨d, a, b⟩) else none
    | _, _, _ => none
  | 0x13E => if fld x 0 52 = 0 then some (.aclose ⟨fin 8 (fld x 52 3) (by decide)⟩) else none
  | 0x13F =>
    match o45, o35 with
    | some d, some a => some (.wait ⟨d, a, fin 4 (fld x 33 2) (by decide), fld x 32 1 == 1, BitVec.ofNat 32 x⟩)
    | _, _ => none
  | 0x14C => if x = 0 then some .nul else none
  | 0x14D => if fld x 0 39 = 0 then some (.mfenceAcc ⟨BitVec.ofNat 16 (fld x 39 16)⟩) else none
  | 0x1C0 =>
    match o45, o35, ofField (fld x 20 10) with
    | some t, some p, some jn =>
      if fld x 0 18 = 0 then some (.spawn ⟨t, p, n30, jn, fld x 19 1 == 1, fld x 18 1 == 1⟩) else none
    | _, _, _ => none
  | 0x1C1 =>
    match o45, o35 with
    | some t, some p =>
      if fld x 0 18 = 0 && fld x 19 11 = 0 then some (.spawnc ⟨t, p, n30, fld x 18 1 == 1⟩) else none
    | _, _ => none
  | 0x1C2 =>
    match o45, o35, o25, ofField (fld x 15 10) with
    | some t, some r, some jn, some p =>
      if fld x 0 8 = 0 then
        some (.spawnr ⟨t, r, jn, p, fin 32 (fld x 10 5) (by decide), fld x 9 1 == 1, fld x 8 1 == 1⟩)
      else none
    | _, _, _, _ => none
  | 0x1C3 =>
    match o45, o35 with
    | some d, some p => if fld x 0 30 = 0 then some (.tnext ⟨d, p, n30⟩) else none
    | _, _ => none
  | 0x1C4 =>
    match o45, o35 with
    | some d, some n => if fld x 0 35 = 0 then some (.tres ⟨d, n⟩) else none
    | _, _ => none
  | 0x1C5 =>
    match o45 with
    | some d => if fld x 0 45 = 0 then some (.tdst ⟨d⟩) else none
    | none => none
  | 0x1C6 =>
    match o45 with
    | some d => if fld x 0 45 = 0 then some (.tdst ⟨d⟩) else none
    | none => none
  | 0x1C7 => if x = 0 then some .nul else none
  | 0x1D2 =>
    match o45 with
    | some d => if fld x 32 13 = 0 then some (.moota ⟨d, BitVec.ofNat 32 x⟩) else none
    | none => none
  | 0x1D3 => if x = 0 then some .nul else none
  | 0x1D4 =>
    match o45, o35 with
    | some d, some a => if fld x 0 32 = 0 then some (.mootq ⟨d, a, fin 8 (fld x 32 3) (by decide)⟩) else none
    | _, _ => none
  | 0x1E9 =>
    match o45, o35, o25 with
    | some d, some a, some b => if fld x 0 25 = 0 then some (.framec ⟨d, a, b⟩) else none
    | _, _, _ => none
  | 0x1EA =>
    match o45, o35 with
    | some d, some t => if fld x 0 35 = 0 then some (.snap ⟨d, t⟩) else none
    | _, _ => none
  | _ => none

/-- Is the opcode assigned to an instruction (01 R37)? -/
def opAssigned (op : Nat) : Bool :=
  rOps.contains op || iOps.contains op || mOps.contains op || bOps.contains op || aOps.contains op || sOps.contains op

/-- The fields of an assigned opcode's low 55 bits; none where an operand field or a reserved bit that the syntax does not
hold is wrong (a reserved-field trap). -/
def fieldsOf (op x : Nat) : Option Fmt :=
  if rOps.contains op then (RF.ofBits x).map .r
  else if iOps.contains op then (IF.ofBits x).map .i
  else if mOps.contains op then (MF.ofBits x).map .m
  else if bOps.contains op then (BF.ofBits x).map .b
  else if aOps.contains op then (AF.ofBits x).map .a
  else sFields op x

/-- The R-format instructions by opcode (01 R37). -/
noncomputable def instrR (op : Nat) (f : RF) : Option Instr :=
  match op with
  | 0x001 => some (.sadd f)
  | 0x002 => some (.ssub f)
  | 0x003 => some (.smul f)
  | 0x004 => some (.smulh f)
  | 0x005 => some (.sdivu f)
  | 0x006 => some (.sremu f)
  | 0x007 => some (.smin f)
  | 0x008 => some (.smax f)
  | 0x009 => some (.sand f)
  | 0x00A => some (.sor f)
  | 0x00B => some (.sxor f)
  | 0x00C => some (.snot f)
  | 0x00D => some (.sshl f)
  | 0x00E => some (.sshr f)
  | 0x00F => some (.ssra f)
  | 0x010 => some (.sclz f)
  | 0x011 => some (.spopc f)
  | 0x012 => some (.scmp f)
  | 0x013 => some (.ssel f)
  | 0x014 => some (.smov f)
  | 0x015 => some (.sadda f)
  | 0x040 => some (.sadd64 f)
  | 0x041 => some (.ssub64 f)
  | 0x042 => some (.smul64 f)
  | 0x043 => some (.smin64 f)
  | 0x044 => some (.smax64 f)
  | 0x045 => some (.sand64 f)
  | 0x046 => some (.sor64 f)
  | 0x047 => some (.sxor64 f)
  | 0x048 => some (.sshl64 f)
  | 0x049 => some (.sshr64 f)
  | 0x04A => some (.ssra64 f)
  | 0x04B => some (.scmp64 f)
  | 0x04C => some (.smov64 f)
  | 0x060 => some (.ppush f)
  | 0x061 => some (.pinv f)
  | 0x062 => some (.ppop f)
  | 0x063 => some (.pset f)
  | 0x064 => some (.ppack f)
  | 0x065 => some (.punpk f)
  | 0x066 => some (.pany f)
  | 0x067 => some (.pall f)
  | 0x080 => some (.vadd f)
  | 0x081 => some (.vsub f)
  | 0x082 => some (.vmul f)
  | 0x083 => some (.vmulh f)
  | 0x084 => some (.vmad f)
  | 0x085 => some (.vmin f)
  | 0x086 => some (.vmax f)
  | 0x087 => some (.vand f)
  | 0x088 => some (.vor f)
  | 0x089 => some (.vxor f)
  | 0x08A => some (.vnot f)
  | 0x08B => some (.vshl f)
  | 0x08C => some (.vshr f)
  | 0x08D => some (.vsra f)
  | 0x08E => some (.vclz f)
  | 0x08F => some (.vpopc f)
  | 0x090 => some (.vcmp f)
  | 0x091 => some (.vsel f)
  | 0x092 => some (.vmov f)
  | 0x093 => some (.vbcst f)
  | 0x094 => some (.vlane f)
  | 0x095 => some (.vshfl f)
  | 0x096 => some (.vred f)
  | 0x097 => some (.vscan f)
  | 0x0B0 => some (.vadd64 f)
  | 0x0B1 => some (.vshl64 f)
  | 0x0B2 => some (.vredF f)
  | 0x0B3 => some (.vscanF f)
  | 0x0C0 => some (.fadd f)
  | 0x0C1 => some (.fsub f)
  | 0x0C2 => some (.fmul f)
  | 0x0C3 => some (.ffma f)
  | 0x0C4 => some (.fmin f)
  | 0x0C5 => some (.fmax f)
  | 0x0C6 => some (.fcmp f)
  | 0x0C7 => some (.frcp f)
  | 0x0C8 => some (.frsq f)
  | 0x0C9 => some (.fsqrt f)
  | 0x0CA => some (.fexp2 f)
  | 0x0CB => some (.flog2 f)
  | 0x0CC => some (.fsin f)
  | 0x0CD => some (.fcos f)
  | 0x0CE => some (.frnd f)
  | 0x0CF => some (.fcvt f)
  | 0x0E0 => some (.faddH2 f)
  | 0x0E1 => some (.fsubH2 f)
  | 0x0E2 => some (.fmulH2 f)
  | 0x0E3 => some (.ffmaH2 f)
  | 0x0E4 => some (.fminH2 f)
  | 0x0E5 => some (.fmaxH2 f)
  | 0x0E6 => some (.faddB2 f)
  | 0x0E7 => some (.fsubB2 f)
  | 0x0E8 => some (.fmulB2 f)
  | 0x0E9 => some (.ffmaB2 f)
  | 0x0EA => some (.fminB2 f)
  | 0x0EB => some (.fmaxB2 f)
  | 0x0EC => some (.vdot4 f)
  | 0x0ED => some (.vdot8 f)
  | 0x0EE => some (.vpk f)
  | 0x0EF => some (.vupk f)
  | 0x134 => some (.hsetf f)
  | 0x135 => some (.hgetf f)
  | 0x140 => some (.mttc f)
  | 0x144 => some (.tzero f)
  | 0x145 => some (.tmov f)
  | 0x146 => some (.azero f)
  | 0x150 => some (.vcvt f)
  | 0x151 => some (.vcvtAcc f)
  | 0x158 => some (.bdset f)
  | 0x180 => some (.rbox f)
  | 0x181 => some (.rtri f)
  | 0x182 => some (.tsinit f)
  | 0x183 => some (.tspush f)
  | 0x184 => some (.tspop f)
  | 0x190 => some (.wadd f)
  | 0x191 => some (.wsub f)
  | 0x192 => some (.wmul f)
  | 0x193 => some (.wfma f)
  | 0x194 => some (.wmin f)
  | 0x195 => some (.wmax f)
  | 0x196 => some (.wexp f)
  | 0x197 => some (.wspl f)
  | 0x198 => some (.wget f)
  | 0x199 => some (.wset f)
  | 0x19A => some (.wsum f)
  | 0x19B => some (.wmm f)
  | 0x19C => some (.sxl f)
  | 0x19D => some (.sxlg f)
  | 0x1A0 => some (.waddV f)
  | 0x1A1 => some (.wsubV f)
  | 0x1A2 => some (.wmulV f)
  | 0x1A3 => some (.wfmaV f)
  | 0x1A4 => some (.wminV f)
  | 0x1A5 => some (.wmaxV f)
  | 0x1E0 => some (.mfsr f)
  | 0x1E1 => some (.mtsr f)
  | 0x1E8 => some (.ptprd f)
  | _ => none

/-- The I-format instructions by opcode (01 R37). -/
noncomputable def instrI (op : Nat) (f : IF) : Option Instr :=
  match op with
  | 0x020 => some (.saddI f)
  | 0x021 => some (.ssubI f)
  | 0x022 => some (.smulI f)
  | 0x023 => some (.smulhI f)
  | 0x024 => some (.sdivuI f)
  | 0x025 => some (.sremuI f)
  | 0x026 => some (.sminI f)
  | 0x027 => some (.smaxI f)
  | 0x028 => some (.sandI f)
  | 0x029 => some (.sorI f)
  | 0x02A => some (.sxorI f)
  | 0x02B => some (.sshlI f)
  | 0x02C => some (.sshrI f)
  | 0x02D => some (.ssraI f)
  | 0x02E => some (.scmpI f)
  | 0x02F => some (.saddaI f)
  | 0x030 => some (.smovi f)
  | 0x031 => some (.sldk f)
  | 0x0A0 => some (.vaddI f)
  | 0x0A1 => some (.vsubI f)
  | 0x0A2 => some (.vmulI f)
  | 0x0A3 => some (.vminI f)
  | 0x0A4 => some (.vmaxI f)
  | 0x0A5 => some (.vandI f)
  | 0x0A6 => some (.vorI f)
  | 0x0A7 => some (.vxorI f)
  | 0x0A8 => some (.vshlI f)
  | 0x0A9 => some (.vshrI f)
  | 0x0AA => some (.vsraI f)
  | 0x0AB => some (.vcmpI f)
  | 0x0AC => some (.vselI f)
  | 0x0AD => some (.vmovI f)
  | 0x0AE => some (.vlaneI f)
  | 0x0AF => some (.vshflI f)
  | 0x0D0 => some (.faddI f)
  | 0x0D1 => some (.fsubI f)
  | 0x0D2 => some (.fmulI f)
  | 0x0D3 => some (.fminI f)
  | 0x0D4 => some (.fmaxI f)
  | 0x0D5 => some (.fcmpI f)
  | 0x1E2 => some (.mtsrI f)
  | 0x1E3 => some (.srm f)
  | 0x1E4 => some (.trap f)
  | 0x1E5 => some (.bkpt f)
  | _ => none

/-- The M-format instructions by opcode (01 R37). -/
noncomputable def instrM (op : Nat) (f : MF) : Option Instr :=
  match op with
  | 0x100 => some (.ldZx8 f)
  | 0x101 => some (.ldSx8 f)
  | 0x102 => some (.ldZx16 f)
  | 0x103 => some (.ldSx16 f)
  | 0x104 => some (.ldB32 f)
  | 0x105 => some (.ldB64 f)
  | 0x106 => some (.ldB128 f)
  | 0x107 => some (.stB8 f)
  | 0x108 => some (.stB16 f)
  | 0x109 => some (.stB32 f)
  | 0x10A => some (.stB64 f)
  | 0x10B => some (.stB128 f)
  | 0x10C => some (.ldb f)
  | 0x10D => some (.stb f)
  | 0x10E => some (.ldlB32 f)
  | 0x10F => some (.ldlB64 f)
  | 0x110 => some (.ldlB128 f)
  | 0x111 => some (.stlB32 f)
  | 0x112 => some (.stlB64 f)
  | 0x113 => some (.stlB128 f)
  | 0x114 => some (.atomAdd f)
  | 0x115 => some (.atomSmin f)
  | 0x116 => some (.atomSmax f)
  | 0x117 => some (.atomUmin f)
  | 0x118 => some (.atomUmax f)
  | 0x119 => some (.atomAnd f)
  | 0x11A => some (.atomOr f)
  | 0x11B => some (.atomXor f)
  | 0x11C => some (.atomXchg f)
  | 0x11D => some (.atomCas f)
  | 0x11E => some (.atomFadd f)
  | 0x11F => some (.atomAddB64 f)
  | 0x120 => some (.atomUminB64 f)
  | 0x121 => some (.atomUmaxB64 f)
  | 0x122 => some (.atomXchgB64 f)
  | 0x123 => some (.atomCasB64 f)
  | 0x124 => some (.redAdd f)
  | 0x125 => some (.redSmin f)
  | 0x126 => some (.redSmax f)
  | 0x127 => some (.redUmin f)
  | 0x128 => some (.redUmax f)
  | 0x129 => some (.redAnd f)
  | 0x12A => some (.redOr f)
  | 0x12B => some (.redXor f)
  | 0x12C => some (.redFadd f)
  | 0x12D => some (.redAddB64 f)
  | 0x12F => some (.cinv f)
  | 0x130 => some (.cflush f)
  | 0x131 => some (.pref f)
  | 0x132 => some (.hld f)
  | 0x133 => some (.hst f)
  | 0x19E => some (.filmadd f)
  | 0x1D0 => some (.ldred f)
  | 0x1D1 => some (.ldredF32 f)
  | _ => none

/-- The B-format instructions by opcode (01 R37). -/
noncomputable def instrB (op : Nat) (f : BF) : Option Instr :=
  match op with
  | 0x050 => some (.br f)
  | 0x051 => some (.brc f)
  | 0x052 => some (.call f)
  | 0x053 => some (.ret f)
  | 0x054 => some (.bri f)
  | 0x055 => some (.endP f)
  | 0x056 => some (.fork f)
  | 0x057 => some (.join f)
  | _ => none

/-- The A-format instructions by opcode (01 R37). -/
noncomputable def instrA (op : Nat) (f : AF) : Option Instr :=
  match op with
  | 0x136 => some (.copy f)
  | 0x137 => some (.copyc f)
  | 0x138 => some (.cpfill f)
  | 0x141 => some (.tld f)
  | 0x142 => some (.tldc f)
  | 0x143 => some (.tst f)
  | 0x147 => some (.mma f)
  | 0x148 => some (.mmas f)
  | 0x149 => some (.mmap f)
  | 0x14A => some (.mdrain f)
  | 0x14B => some (.mdrainP f)
  | 0x14E => some (.mact f)
  | 0x14F => some (.mdtab f)
  | 0x159 => some (.ttprog f)
  | 0x15A => some (.ttbuf f)
  | 0x15B => some (.ttstep f)
  | 0x15C => some (.ttrun f)
  | 0x185 => some (.nmwalk f)
  | _ => none

/-- The instruction of an opcode and its fields (01 R37). -/
noncomputable def instrOf (op : Nat) : Fmt → Option Instr
  | .r f => instrR op f
  | .i f => instrI op f
  | .m f => instrM op f
  | .b f => instrB op f
  | .a f => instrA op f
  | .fence f => if op = 0x12E then some (.fence f) else none
  | .bar f => if op = 0x139 then some (.bar f) else none
  | .bara f => if op = 0x13A then some (.bara f) else none
  | .barw f => if op = 0x13B then some (.barw f) else none
  | .bcnt f => if op = 0x13C then some (.bcnt f) else none
  | .barx f => if op = 0x13D then some (.barx f) else none
  | .aclose f => if op = 0x13E then some (.aclose f) else none
  | .wait f => if op = 0x13F then some (.wait f) else none
  | .mfenceAcc f => if op = 0x14D then some (.mfenceAcc f) else none
  | .spawn f => if op = 0x1C0 then some (.spawn f) else none
  | .spawnc f => if op = 0x1C1 then some (.spawnc f) else none
  | .spawnr f => if op = 0x1C2 then some (.spawnr f) else none
  | .tnext f => if op = 0x1C3 then some (.tnext f) else none
  | .tres f => if op = 0x1C4 then some (.tres f) else none
  | .tdst f =>
    match op with
    | 0x1C5 => some (.tcommit f)
    | 0x1C6 => some (.tcancel f)
    | _ => none
  | .moota f => if op = 0x1D2 then some (.moota f) else none
  | .mootq f => if op = 0x1D4 then some (.mootq f) else none
  | .framec f => if op = 0x1E9 then some (.framec f) else none
  | .snap f => if op = 0x1EA then some (.snap f) else none
  | .nul =>
    match op with
    | 0x000 => some .nop
    | 0x14C => some .mfenceOp
    | 0x1C7 => some .tend
    | 0x1D3 => some .mootd
    | 0x1E6 => some .eret
    | _ => none

/-- What the decoder knows besides the word (01 R39, R41): the clause's class, trap mode, the window size, the launch's
window cap, and whether the slot is the clause's last. -/
structure DecodeCtx where
  cls : Nat
  trapMode : Bool
  window : Nat
  wincap : Nat
  last : Bool
deriving DecidableEq, Repr

/-- The opcodes legal in a clause of a class (01 R21). -/
def classLegal (cls op : Nat) : Bool :=
  op < 0x80 ||
    match cls with
    | 0 => decide (op < 0x100)
    | 1 => decide (0x100 ≤ op) && decide (op < 0x140)
    | 2 => decide (0x140 ≤ op) && decide (op < 0x180)
    | 3 => decide (0x180 ≤ op) && decide (op < 0x1C0)
    | 4 => decide (0x1C0 ≤ op) && decide (op < 0x1E0)
    | 5 => decide (0x1E0 ≤ op) && decide (op < 0x1FF)
    | _ => false

/-- The class of the clause an opcode needs; class 0 for the opcodes legal in any (01 R21). -/
def classOfOp (op : Nat) : Nat :=
  if op < 0x100 then 0 else if op < 0x140 then 1 else if op < 0x180 then 2 else if op < 0x1C0 then 3
  else if op < 0x1E0 then 4 else 5

/-- The control transfers (01 R22). -/
def isControl (op : Nat) : Bool := (0x50 ≤ op && op ≤ 0x57) || op == 0x1E6 || op == 0x1C7

/-- The opcode of an instruction word (01 R15). -/
def opcodeOf (w : Nat) : Nat := fld w 55 9

/-- A trap scalar named outside trap mode, or an instruction outside the mode it is legal in (01 R35, 02 R59, R62). -/
def modeIllegal (k : Chk) (trapMode : Bool) : Bool :=
  if trapMode then k.noTm else k.tm || k.pos.any fun p => clsOf p.op == .e

/-- A vector register of a run lies at or above the window size (01 R35, 13 R295). -/
def outsideWindow (k : Chk) (window : Nat) : Bool :=
  k.pos.any fun p => clsOf p.op == .v && decide (idxOf p.op + p.n > window)

/-- CALL names a window above the launch's cap (02 R57). -/
def aboveCap (f : Fmt) (op wincap : Nat) : Bool :=
  match f with
  | .b f => op == 0x52 && decide (f.w.val > wincap)
  | _ => false

/-- The checks of one slot that do not depend on the wave (01 R39 checks 1, 3 and 4). -/
noncomputable def decodeWord (w : Nat) : Except DecodeError Instr :=
  if !opAssigned (opcodeOf w) then .error .illegalOpcode
  else
    match (fieldsOf (opcodeOf w) (fld w 0 55)).bind (instrOf (opcodeOf w)) with
    | none => .error .reservedField
    | some i =>
      if !i.fieldsOk then .error .reservedField
      else if !i.operandsOk then .error .illegalOperand
      else .ok i

/-- One slot of a clause, all six checks in the order of 01 R39: the fields, or the first check that fails. -/
def slotFields (c : DecodeCtx) (w : Nat) : Except DecodeError Fmt :=
  if !opAssigned (opcodeOf w) then .error .illegalOpcode
  else if !classLegal c.cls (opcodeOf w) then .error .classMismatch
  else
    match fieldsOf (opcodeOf w) (fld w 0 55) with
    | none => .error .reservedField
    | some f =>
      let k := chkFmt (opcodeOf w) f
      if k.res then .error .reservedField
      else if k.ill || !k.pos.all Pos.legal || modeIllegal k c.trapMode then .error .illegalOperand
      else if outsideWindow k c.window || aboveCap f (opcodeOf w) c.wincap then .error .registerWindow
      else if isControl (opcodeOf w) && !c.last then .error .branchPlacement
      else .ok f

/-- The instruction of one slot of a clause (01 R39). -/
noncomputable def decodeSlot (c : DecodeCtx) (w : Nat) : Except DecodeError Instr :=
  match slotFields c w with
  | .error e => .error e
  | .ok f =>
    match instrOf (opcodeOf w) f with
    | some i => .ok i
    | none => .error .illegalOpcode

/-- The decoder over the bits of an opcode-table row (bit 0 the least significant bit of the word's first byte). -/
noncomputable def decodeTableWord (_nbits w : Nat) : Option Instr :=
  match decodeWord (w % 2 ^ 64) with
  | .ok i => some i
  | .error _ => none

/-- The header word of a clause (01 R15), from its fields. -/
def headerWord (cls count bwait yld : Nat) : Nat :=
  0x1FF * 2 ^ 55 + cls * 2 ^ 52 + (count - 1) * 2 ^ 48 + bwait * 2 ^ 40 + yld * 2 ^ 38

/-- The low 55 bits of an instruction from its fields (01 R26). -/
def Fmt.bits : Fmt → Nat
  | .r f => f.bits
  | .i f => f.bits
  | .m f => f.bits
  | .b f => f.bits
  | .a f => f.bits
  | .fence f =>
    f.scope.val * 2 ^ 52 + f.kind.val * 2 ^ 50
  | .bar f =>
    toField f.dst * 2 ^ 45 + toField f.a * 2 ^ 35 + f.op.val * 2 ^ 32 + f.circle.val * 2 ^ 24
  | .bara f =>
    toField f.dst * 2 ^ 45 + f.circle.val * 2 ^ 24
  | .barw f =>
    toField f.a * 2 ^ 35 + f.circle.val * 2 ^ 24
  | .bcnt f =>
    toField f.addr * 2 ^ 35 + f.circle.val * 2 ^ 24
  | .barx f =>
    toField f.dst * 2 ^ 45 + toField f.addr * 2 ^ 35 + toField f.bytes * 2 ^ 25
  | .aclose f =>
    f.n.val * 2 ^ 52
  | .wait f =>
    toField f.dst * 2 ^ 45 + toField f.desc * 2 ^ 35 + f.n.val * 2 ^ 33 + f.all.toNat * 2 ^ 32 + f.timeout.toNat
  | .mfenceAcc f =>
    f.mask.toNat * 2 ^ 39
  | .spawn f =>
    toField f.tgt * 2 ^ 45 + toField f.pay * 2 ^ 35 + f.n.val * 2 ^ 30 + toField f.join * 2 ^ 20 +
      f.jsp.toNat * 2 ^ 19 + f.rsv.toNat * 2 ^ 18
  | .spawnc f =>
    toField f.tgt * 2 ^ 45 + toField f.pay * 2 ^ 35 + f.n.val * 2 ^ 30 + f.rsv.toNat * 2 ^ 18
  | .spawnr f =>
    toField f.tgt * 2 ^ 45 + toField f.rng * 2 ^ 35 + toField f.join * 2 ^ 25 + toField f.pay * 2 ^ 15 +
      f.n.val * 2 ^ 10 + f.jsp.toNat * 2 ^ 9 + f.rsv.toNat * 2 ^ 8
  | .tnext f =>
    toField f.dst * 2 ^ 45 + toField f.pay * 2 ^ 35 + f.n.val * 2 ^ 30
  | .tres f =>
    toField f.dst * 2 ^ 45 + toField f.n * 2 ^ 35
  | .tdst f =>
    toField f.dst * 2 ^ 45
  | .moota f =>
    toField f.dst * 2 ^ 45 + f.timeout.toNat
  | .mootq f =>
    toField f.dst * 2 ^ 45 + toField f.a * 2 ^ 35 + f.sel.val * 2 ^ 32
  | .framec f =>
    toField f.dst * 2 ^ 45 + toField f.stream * 2 ^ 35 + toField f.seq * 2 ^ 25
  | .snap f =>
    toField f.dst * 2 ^ 45 + toField f.tag * 2 ^ 35
  | .nul => 0

/-- The 64-bit word of an instruction (01 R15, R26); none for an event. -/
def encode (i : Instr) : Option Nat := (partsOf i).map fun p => p.1 * 2 ^ 55 + p.2.bits

/-- The events of the opcode table: constructors that no instruction word encodes. -/
def Instr.isEvent (i : Instr) : Bool := (partsOf i).isNone

end Sys2Proof
end

