-- ==== Sys2Proof/Machine/Xlate.lean ====
section
/-! DEFINITION. Byte memories, the registers of BAR0 the machine itself reads, and the translation walk with aliases
(08 R176, R189-R197; 20 R413-R424). -/

namespace Sys2Proof.Machine

open Sys2Proof (Operand W32 W64 Byte Mask SMap SMap.get? SMap.set SMap.getD SMap.modify SMap.del)

/-- A byte of HBM; 0 where nothing is listed (20 R418). -/
def hbmByte (m : SMap Byte) (a : Nat) : Byte := SMap.getD m a 0

/-- Write a byte of HBM, keeping the canonical form: a byte that reads as an unlisted one is not listed. -/
def hbmPut (m : SMap Byte) (a : Nat) (b : Byte) : SMap Byte := if b = 0 then SMap.del m a else SMap.set m a b

/-- A byte of a memory that starts undefined: the free byte of its seed where nothing has been written (log 1). -/
def undefByte (seed : Nat) (m : SMap Byte) (a : Nat) : Byte :=
  match SMap.get? m a with
  | some b => b
  | none => Config.freeByte seed a

/-- The seed of the free bytes where a home address holds an undefined byte. -/
def undefSeed (l : List (Bool × Nat × Nat × Nat)) (host : Bool) (a : Nat) : Option Nat :=
  (l.find? fun u => u.1 == host && decide (u.2.1 ≤ a && a < u.2.1 + u.2.2.1)).map fun u => u.2.2.2

/-- Take the `n` addresses from `a` out of the undefined ranges. -/
def cutUndef (host : Bool) (a n : Nat) (l : List (Bool × Nat × Nat × Nat)) : List (Bool × Nat × Nat × Nat) :=
  l.flatMap fun u =>
    let e := u.2.1 + u.2.2.1
    if u.1 != host || e ≤ a || a + n ≤ u.2.1 then [u]
    else [(host, u.2.1, a - u.2.1, u.2.2.2), (host, a + n, e - (a + n), u.2.2.2)].filter fun v => v.2.2.1 != 0

/-- A byte of HBM or of host memory by its location (08 R176); `va` bit 55 chose the side when it was translated. -/
def State.homeByte (s : State) (isHost : Bool) (pa : Nat) : Byte :=
  match undefSeed s.undef isHost pa with
  | some d => Config.freeByte d pa
  | none => if isHost then undefByte Config.seedHost s.host pa else hbmByte s.hbm pa

/-- Write a byte of HBM or of host memory. -/
def State.homePut (s : State) (isHost : Bool) (pa : Nat) (b : Byte) : State :=
  let u := cutUndef isHost pa 1 s.undef
  if isHost then { s with host := SMap.set s.host pa b, undef := u } else { s with hbm := hbmPut s.hbm pa b, undef := u }

/-- The `n` home bytes from `a` become undefined (log 1): those of an area, too, that the device writes for its own use in a form the
spec does not give (18 R382, 04 R108). -/
def State.undefRange (s : State) (host : Bool) (a n : Nat) : State :=
  let d := s.draw
  { d.2 with undef := (host, a, n, d.1) :: cutUndef host a n d.2.undef }

/-- `n` little-endian bytes of HBM at a physical address (00 R5). -/
def State.hbmRead (s : State) (a n : Nat) : Nat := ofBytes ((List.range n).map fun i => (s.homeByte false (a + i)).toNat)

/-- Byte offsets of registers in the PF's BAR0 (20 R414-R432, 19 R410). -/
abbrev barTR : Nat := 0x20000
abbrev barPQBASE : Nat := 0x20040
abbrev barPQLOG : Nat := 0x20048
abbrev barPQHEAD : Nat := 0x20050
abbrev barPQTAIL : Nat := 0x20058
abbrev barPQMSI : Nat := 0x20068
abbrev barGrant : Nat := 0x20100
abbrev barFuture : Nat := 0x20300
abbrev barGran : Nat := 0x30000
abbrev barFn : Nat := 0x11000
abbrev barSnap : Nat := 0x50000
abbrev barPLIMIT : Nat := 0x50040
abbrev barPSTAT : Nat := 0x50048
abbrev barPTPCFG : Nat := 0x60000
abbrev barGroup : Nat := 0x301000

/-- A stored 64-bit register word of BAR0, or what it reads after reset: 0 but for function 0 (20 R417), PLIMIT and
PSTAT (20 R431) and the PTP configuration (20 R432, log 15). -/
def State.barWord (s : State) (off : Nat) : Nat :=
  match SMap.get? s.bar off with
  | some x => x
  | none =>
    if off = barFn then 0x1FFFF0000
    else if off = barPLIMIT then 1200
    else if off = barPSTAT then 2000
    else if off = barPTPCFG then 65536
    else 0

/-- Store a register word. -/
def State.setBar (s : State) (off x : Nat) : State := { s with bar := SMap.set s.bar off (x % 2 ^ 64) }

/-- READY: bring-up is complete (20 R415, R419). -/
def State.isReady (s : State) : Bool := bit (s.barWord 0x08) 0

/-- TRV: launches are accepted (20 R419, R420). -/
def State.trv (s : State) : Bool := bit (s.barWord barTR) 0

/-- TRBASE, the physical address of the ASID root table (08 R189, 20 R420). -/
def State.trbase (s : State) : Nat := fld (s.barWord barTR) 16 40 * 65536

/-- A translation: the page's address (HBM physical, or PCIe bus address where bit 55 of the virtual address is 1), its
size, its permissions (bit 0 RD, 1 WR, 2 EX, 3 AT) and the canonical name (08 R191, R196). -/
structure Leaf where
  pa : Nat
  size : Nat
  perms : Nat
  casid : Nat
  cva : Nat
deriving DecidableEq, Repr

/-- What a walk ends in (08 R191, R194). -/
inductive Walk where
  | leaf (l : Leaf)
  /-- a leaf that names another page (08 R196), before its canonical walk: its permissions, size and canonical name -/
  | renamed (perms size casid cva : Nat)
  /-- an entry with V = 0 and PAGER = 1 -/
  | miss
  /-- no translation -/
  | fault
deriving DecidableEq, Repr

/-- RD, WR, EX and AT of an entry as permission bits (08 R191). -/
def permsOf (e : Nat) : Nat := fld e 2 4

/-- log2 of the page a leaf at a level maps (08 R190). -/
def pageBits (level : Nat) : Nat := match level with | 1 => 30 | 2 => 21 | _ => 16

/-- The VA bits a level indexes: low bit and count (08 R190). -/
def levelIdx (level va : Nat) : Nat :=
  match level with
  | 0 => fld va 43 13
  | 1 => fld va 30 13
  | 2 => fld va 21 9
  | _ => fld va 16 5

/-- One leaf entry's meaning (08 R191, R196). -/
def leafOf (va level e : Nat) : Walk :=
  let size := 2 ^ pageBits level
  if bit e 6 then
    let cva := fld e 8 40 * 65536
    if bit e 7 || cva % size != 0 then .fault else .renamed (permsOf e) size (fld e 48 16) (cva + va % size)
  else
    let pa := fld e 8 48 * 256
    if fld e 56 8 != 0 || pa % size != 0 then .fault
    else .leaf { pa := pa, size := size, perms := permsOf e, casid := 0, cva := 0 }

/-- The walk from the table at `tab` (08 R190, R191); `fuel` counts the levels left. The spec says that a table is aligned to its own
size and not what an entry does whose address is not: the index is added to the address as given (DESIGN CHOICE: log 22). -/
def State.walkFrom (s : State) (va : Nat) : Nat → Nat → Nat → Walk
  | 0, _, _ => .fault
  | fuel + 1, level, tab =>
    if tab ≥ 2 ^ 40 then .fault
    else
      let e := s.hbmRead (tab + 8 * levelIdx level va) 8
      if !bit e 0 then (if bit e 7 then .miss else .fault)
      else if bit e 1 then (if level = 0 then .fault else leafOf va level e)
      else if level = 3 || bit e 6 || bit e 7 || fld e 2 4 != 0 || fld e 56 8 != 0 then .fault
      else s.walkFrom va fuel (level + 1) (fld e 8 48 * 256)

/-- The walk of one name, without following aliases (08 R189). A root entry with V = 0 gives the translation fault 0x23, as 08 R189
says, where the row of 0x24 in 01 R434 speaks of a root entry that refuses (DESIGN CHOICE: log 22). -/
def State.walk1 (s : State) (asid va : Nat) : Walk :=
  let r := s.hbmRead (s.trbase + 8 * asid) 8
  if !bit r 0 || fld r 56 8 != 0 || fld r 1 15 != 0 then .fault else s.walkFrom va 4 0 (fld r 16 40 * 65536)

/-- The addresses of the entries that the walk from the table at `tab` reads (08 R190). -/
def State.walkTail (s : State) (va : Nat) : Nat → Nat → Nat → List Nat
  | 0, _, _ => []
  | fuel + 1, level, tab =>
    if tab ≥ 2 ^ 40 then []
    else
      let a := tab + 8 * levelIdx level va
      let e := s.hbmRead a 8
      if bit e 0 && !bit e 1 then a :: s.walkTail va fuel (level + 1) (fld e 8 48 * 256) else [a]

/-- The addresses of the entries that the walk of one name reads, the root entry first (08 R189, R190). -/
def State.walkReads (s : State) (asid va : Nat) : List Nat :=
  let root := s.trbase + 8 * asid
  let r := s.hbmRead root 8
  root :: if bit r 0 then s.walkTail va 4 0 (fld r 16 40 * 65536) else []

/-- The whole walk: aliases take their canonical leaf, of the same size, with both permissions (08 R196). A canonical walk that fails
is reported before the alias leaf's refusal (DEDUCED: log 22). -/
def State.walk (s : State) (asid va : Nat) : Walk :=
  match s.walk1 asid va with
  | .leaf l => .leaf { l with casid := asid, cva := va / l.size * l.size }
  | .renamed p size ca cv =>
    match s.walk1 ca cv with
    | .leaf l =>
      if l.size = size then .leaf { l with perms := Nat.land p l.perms, casid := ca, cva := cv / size * size } else .fault
    | _ => .fault
  | w => w

/-- The rights an access needs (08 R192): permission bits 0 RD, 1 WR, 2 EX, 3 AT. -/
abbrev needRD : Nat := 1
abbrev needWR : Nat := 2
abbrev needEX : Nat := 4
abbrev needAT : Nat := 11

/-- The cached translation of a name at a die's agents, where the next access is given it (08 R195). -/
def State.tlbFind (s : State) (die asid va : Nat) : Option TlbEnt :=
  s.tlb.find? fun e => !e.hid && e.die == die && e.asid == asid && e.va ≤ va && va < e.va + e.size

/-- The answer of a translating agent for one access. -/
inductive Xlat where
  /-- the location: HBM physical or host bus address, and the canonical name -/
  | ok (pa casid cva : Nat)
  | miss
  /-- the fault code: 0x23 translation, 0x24 permission -/
  | fault (code : Nat)
deriving DecidableEq, Repr

/-- Apply the checks of 08 R191 and R192 to a leaf found: a page beyond the 1 TiB of HBM has no translation, which does not
hold for a POOL name (19 R390). -/
def grantLeaf (pool : Bool) (need va pa size perms casid cva : Nat) : Xlat :=
  if !pool && !bit cva 55 && pa + size > 2 ^ 40 then .fault 0x23
  else if Nat.land perms need = need then .ok (pa + va % size) casid (cva + va % size) else .fault 0x24

/-- Translate a 56-bit virtual address for an access from a die (08 R188-R196, 19 R390): a cached entry, else the walk. A page miss
is of a DEV or PRV access; a POOL access takes the translation fault there (08 R194, 19 R390). -/
def State.xlateG (s : State) (pool : Bool) (die asid va need : Nat) : Xlat :=
  match s.tlbFind die asid va with
  | some e => grantLeaf pool need va e.pa e.size e.perms e.casid e.cva
  | none =>
    match s.walk asid va with
    | .leaf l => grantLeaf pool need va l.pa l.size l.perms l.casid l.cva
    | .miss => if pool then .fault 0x23 else .miss
    | _ => .fault 0x23

/-- Translate a device virtual address (08 R188-R196). -/
def State.xlate (s : State) (die asid va need : Nat) : Xlat := s.xlateG false die asid va need

/-- Did the pager reject this page's miss for the slot or clause the path in focus tries next (08 R194)? -/
def State.deniedHere (s : State) (asid va : Nat) : Bool := s.cw.pa.denied.contains (asid, va / 65536)

/-- Translate for the path in focus: a miss that the pager rejected is the translation fault (08 R194). -/
def State.xlateHere (s : State) (die asid va need : Nat) : Xlat :=
  match s.xlate die asid va need with
  | .miss => if s.deniedHere asid va then .fault 0x23 else .miss
  | x => x

/-- A cached translation is added, or given to accesses again. -/
def addTlb (l : List TlbEnt) (e : TlbEnt) : List TlbEnt :=
  if l.any fun x => { x with hid := false } == e then l.map fun x => if { x with hid := false } == e then e else x else e :: l

/-- A translation that was walked is cached (08 R195). -/
def State.tlbFill (s : State) (die asid va : Nat) : State :=
  match s.tlbFind die asid va with
  | some _ => s
  | none =>
    match s.walk asid va with
    | .leaf l =>
      { s with tlb := addTlb s.tlb { die := die, asid := asid, va := va / l.size * l.size, size := l.size, pa := l.pa,
                                     perms := l.perms, casid := l.casid, cva := l.cva, hid := false } }
    | _ => s

/-- What an instruction fetch of a word finds (01 R434). -/
inductive Fetch where
  | word (w : Nat)
  | miss (asid va : Nat)
  /-- TDATA of the instruction-fetch fault -/
  | bad (reason : Nat)
deriving DecidableEq, Repr

/-- Fetch the 64-bit word at an offset of a launch's code segment, for a core (01 R25, R434). 01 R25 leaves open which of the old
and the new value each word fetched after a store yields: the model takes what the home memory holds at the fetch, so that
the words of one sector written back change together (DESIGN CHOICE: log 20). -/
def State.fetchWord (s : State) (core : Nat) (r : LRec) (off : Nat) : Fetch :=
  if off + 8 > r.codesize then .bad 0
  else
    let va := (r.codebase + off) % 2 ^ 56
    match s.xlateHere (Config.dieOf core) r.asid va needEX with
    | .ok pa _ cva => .word (ofBytes ((List.range 8).map fun i => (s.homeByte (bit cva 55) (pa + i)).toNat))
    | .miss => .miss r.asid va
    | .fault c => .bad c

end Sys2Proof.Machine
end

