-- ==== Sys2Proof/Machine/Sched.lean ====
section
/-! DEFINITION. Waves and paths by name, the eligible set of a partition, and the end of a slot and of a clause
(01 R17, R20-R24; 18 R373-R377). -/

namespace Sys2Proof.Machine

open Sys2Proof (Operand W32 W64 Byte Mask SMap SMap.get? SMap.set SMap.getD SMap.modify SMap.del)
open Sys2Proof (DecodeCtx slotFields opcodeOf fieldsOf Fmt)
open Sys2Proof.Config (dieOf partOf)

/-- Add to the event counters of a block of counters at `base`, `cnt` of them, whose SRC is `src` (20 R430). -/
def State.countAt (s : State) (base cnt src part n : Nat) : State :=
  (List.range cnt).foldl (fun (s : State) k =>
    let off := base + 0x20 * k
    let r := s.barWord off
    if fld r 0 8 = src && bit r 8 && (fld r 16 8 = 0 || part ≥ 8 || bit r (16 + part)) then s.setBar (off + 8) (s.barWord (off + 8) + n)
    else s) s

/-- Count an event of a core (20 R430); `part` is 8 where the source is not a partition's. -/
def State.countCore (s : State) (core src part n : Nat) : State :=
  if s.bar.isEmpty then s else s.countAt (0x100000 + 0x200 * core) 16 src part n

/-- Count an event of a die (20 R430). -/
def State.countDie (s : State) (die src n : Nat) : State :=
  if s.bar.isEmpty then s else s.countAt (0x140000 + 0x800 * die) 64 src 8 n

/-- Count `n` bytes of HBM read (source 3) or written (source 4): one for each 64 bytes of the memory that they touch, at the die of
the stack (08 R193; 20 R430, log 53). -/
def State.countHbm (s : State) (src a n : Nat) : State :=
  if s.bar.isEmpty then s
  else (List.range ((a % 64 + n + 63) / 64)).foldl (fun (s : State) i => s.countDie ((a / 64 + i) / 4096 % 4) src 1) s

/-- Count one walk of a name, with the table entries it reads (20 R430). -/
def State.countWalk1 (s : State) (die asid va : Nat) : State :=
  (s.walkReads asid va).foldl (fun (s : State) a => s.countHbm 3 a 8) (s.countDie die 5 1)

/-- Count the walks that a translation at a die takes, that of a canonical name among them; a cached translation takes none (08 R195,
R196; 20 R430). -/
def State.countWalk (s : State) (die asid va : Nat) : State :=
  if s.bar.isEmpty || (s.tlbFind die asid va).isSome then s
  else
    match s.walk1 asid va with
    | .renamed _ _ ca cv => (s.countWalk1 die asid va).countWalk1 die ca cv
    | _ => s.countWalk1 die asid va

/-- Count the walks of an access that ended in a translation or permission fault (08 R192, R194; 20 R430). -/
def State.countFault (s : State) (die asid va code : Nat) : State :=
  if code = 0x23 || code = 0x24 then s.countWalk die asid va else s

/-- Count bytes of an area that the device keeps in a form of its own: how many the spec does not say (18 R382; 04 R108; log 53). -/
def State.countArea (s : State) (src : Nat) : State :=
  (List.range Config.dies).foldl (fun (s : State) d => s.countDie d src (Config.freeWord s.fresh (2 ^ 42 + 4 * src + d)).toNat) s

/-- The instruction word at an offset of the code segment has been fetched for the wave in focus: its translation is cached, and the
walk and the bytes of HBM are counted, those of the words of one fetch once for each 64 bytes (08 R195; 20 R430). -/
def State.noteFetch (s : State) (off : Nat) (first : Bool := true) : State :=
  let die := dieOf s.cw.core
  let va := (s.lrec.codebase + off) % 2 ^ 56
  let s1 := (s.countWalk die s.lrec.asid va).tlbFill die s.lrec.asid va
  match s1.tlbFind die s.lrec.asid va with
  | some e => if bit e.cva 55 || !(first || va % 64 == 0) then s1 else s1.countHbm 3 (e.pa + va % e.size) 8
  | none => s1

/-- The bank of a core that is active: false for bank 0 (04 R105). -/
def State.bankOf (s : State) (core : Nat) : Bool := (SMap.getD s.coreSt core CoreSt.reset).bank

/-- Is an exchange of a core's banks coming (04 R106)? -/
def State.swapping (s : State) (core : Nat) : Bool := (SMap.getD s.coreSt core CoreSt.reset).swapping

/-- Turn a wave so that path `second` is the one in `pa`. -/
def Wave.face (w : Wave) (second : Bool) : Wave :=
  if w.second == second then w else { w with second := second, pa := w.pb, pb := w.pa }

/-- A path of a wave. -/
def Wave.path (w : Wave) (second : Bool) : PathSt := if w.second == second then w.pa else w.pb

/-- Change a path of a wave. -/
def Wave.onPath (w : Wave) (second : Bool) (f : PathSt → PathSt) : Wave :=
  if w.second == second then { w with pa := f w.pa } else { w with pb := f w.pb }

/-- A wave by uid. -/
def State.waveOf (s : State) (uid : Nat) : Option Wave :=
  if s.cw.uid == uid then some s.cw else SMap.get? s.waves uid

/-- Change a wave. -/
def State.modWave (s : State) (uid : Nat) (f : Wave → Wave) : State :=
  if s.cw.uid == uid then { s with cw := f s.cw } else { s with waves := SMap.modify s.waves uid f }

/-- Change a path. -/
def State.updPath (s : State) (uid : Nat) (second : Bool) (f : PathSt → PathSt) : State :=
  s.modWave uid fun w => w.onPath second f

/-- Change the path in focus. -/
def State.onPa (s : State) (f : PathSt → PathSt) : State := s.onWave fun w => { w with pa := f w.pa }

/-- Every wave. -/
def State.allWaves (s : State) : List Wave := s.cw :: s.waves.map (·.2)

/-- Is the slot of a wave free and nothing left of the wave: no operation of it that still uses its state (10 R275)? -/
def State.gone (s : State) (w : Wave) : Bool :=
  w.resid == .free && w.pa.phase == .idle && w.pb.phase == .idle && w.resv.isNone && !s.ops.any fun o => o.uid == w.uid && !o.done

/-- Put path `second` of wave `uid` in focus; a state without that wave stays. -/
def State.focus (s : State) (uid : Nat) (second : Bool) : State :=
  if s.cw.uid == uid then { s with cw := s.cw.face second }
  else
    match SMap.get? s.waves uid with
    | none => s
    | some w =>
      let rest := SMap.del s.waves uid
      { s with cw := w.face second, waves := if s.gone s.cw then rest else SMap.set rest s.cw.uid s.cw }

/-- The launch of an id. -/
def State.launchOf (s : State) (id : Nat) : Option Launch := SMap.get? s.launches id

/-- The priority of a launch (18 R361). -/
def State.prioOf (s : State) (id : Nat) : Nat :=
  match s.launchOf id with
  | some l => l.prio
  | none => 0

/-- The launch has been aborted (18 R366). -/
def State.abortedL (s : State) (id : Nat) : Bool :=
  match s.launchOf id with
  | some l => l.aborted
  | none => false

/-- The pipe of a class: 0 compute, 1 memory, 2 async (01 R21). -/
def pipeOf (cls : Nat) : Nat := match cls with | 0 => 0 | 1 => 1 | 3 => 1 | _ => 2

/-- The paths of a partition whose waves are in the active bank. -/
def State.partPaths (s : State) (core part : Nat) : List (Wave × Bool) :=
  (s.allWaves.filter fun w => w.resid == .active && w.core == core && partOf w.slot == part).flatMap fun w =>
    [(w, false), (w, true)].filter fun x => (w.path x.2).phase != .idle

/-- Lexicographic order of keys. -/
def keyLt : List Nat → List Nat → Bool
  | [], _ => false
  | _, [] => false
  | a :: s, b :: t => decide (a < b) || (a == b && keyLt s t)

/-- The element of the least key. -/
def leastBy {α : Type} (key : α → List Nat) : List α → Option α
  | [] => none
  | x :: t =>
    match leastBy key t with
    | none => some x
    | some y => if keyLt (key y) (key x) then some y else some x

/-- Is the path ready for a pipe: at a clause start, or inside a clause whose park has ended? -/
def PathSt.wants (p : PathSt) : Bool := p.phase == .ready || p.phase == .resume

/-- The ready pool of a partition: ready paths outside the eligible set (18 R374). -/
def State.pool_ (s : State) (core part : Nat) : List (Wave × Bool) :=
  (s.partPaths core part).filter fun x => (x.1.path x.2).wants && !(x.1.path x.2).elig

/-- The order of the pick that refills a place (18 R376). -/
def State.refillKey (s : State) (x : Wave × Bool) : List Nat :=
  let p := x.1.path x.2
  [if p.passed ≥ 8 then 0 else 1, 3 - s.prioOf x.1.launch, p.readyAt, x.1.startAt, x.2.toNat, x.1.slot]

/-- A path enters the eligible set (18 R376). -/
def PathSt.enter (p : PathSt) : PathSt := { p with elig := true, skip := [0, 0, 0], starts := 0, passed := 0 }

/-- Fill one free place of the eligible set, which holds at most four paths (18 R374, R376). -/
def State.refillOne (s : State) (core part : Nat) : State :=
  if (s.partPaths core part).countP (fun x => (x.1.path x.2).elig) ≥ 4 then s
  else
    let pool := s.pool_ core part
    match leastBy s.refillKey pool with
    | none => s
    | some x =>
      let s1 := pool.foldl (fun s y => s.updPath y.1.uid y.2 fun p => { p with passed := p.passed + 1 }) s
      s1.updPath x.1.uid x.2 PathSt.enter

/-- Fill each free place of the eligible set (18 R376). -/
def State.refill (s : State) (core part : Nat) : State := (List.range 4).foldl (fun (s : State) _ => s.refillOne core part) s

/-- Refill the partition of a wave. -/
def State.refillOf (s : State) (w : Wave) : State := if w.resid == .active then s.refill w.core (partOf w.slot) else s

/-- Does an outstanding access belong to a path, or precede its fork (02 R80)? -/
def Access.ofPath (a : Access) (uid : Nat) (second : Bool) : Bool := a.uid == uid && (a.second == second || a.both)

/-- The registers that a path's outstanding accesses owe (01 R24). -/
def State.owed (s : State) (uid : Nat) (second : Bool) : List (Cls × Nat) :=
  (s.accs.filter fun a => a.ofPath uid second).flatMap (·.dst)

/-- The registers that the outstanding accesses of either path of a wave owe (01 R24; 04 R97, R103). -/
def State.owedWave (s : State) (uid : Nat) : List (Cls × Nat) := (s.accs.filter fun a => a.uid == uid).flatMap (·.dst)

/-- Number of instruction words of a clause from its header (01 R15). -/
def countOf (header : Nat) : Nat := fld header 48 4 + 1

/-- The registers that positions of an instruction name. -/
def State.posRegs (s : State) (ps : List Pos) : List (Cls × Nat) := ps.flatMap fun p => s.regsOf p.op p.n

/-- Positions that read. -/
def Chk.reads (k : Chk) : List Pos := k.pos.filter fun p => p.role == .rd || p.role == .rw
/-- Positions that write. -/
def Chk.writes (k : Chk) : List Pos := k.pos.filter fun p => p.role == .wr || p.role == .rw

/-- What the decoder knows of the path in focus (01 R39, R41). -/
def State.decodeCtx (s : State) (cls : Nat) (last : Bool) : DecodeCtx :=
  { cls := cls, trapMode := s.cw.tm, window := s.cw.wsize, wincap := s.lrec.wincap, last := last }

/-- Fetch `n` words from an offset: the words, or the first that does not come (01 R434). -/
def State.fetchWords (s : State) : Nat → Nat → List Nat → Fetch × List Nat × Nat
  | 0, off, ws => (.word 0, ws.reverse, off)
  | n + 1, off, ws =>
    match s.fetchWord s.cw.core s.lrec off with
    | .word w => s.fetchWords n (off + 8) (w :: ws)
    | f => (f, [], off)

/-- The first slot of a clause that decode refuses, and why (01 R39). -/
def State.decodeErr (s : State) (cls n : Nat) : Nat → List Nat → Option (DecodeError × Nat)
  | _, [] => none
  | j, w :: ws =>
    match slotFields (s.decodeCtx cls (j + 1 = n)) w with
    | .error e => some (e, j)
    | .ok _ => s.decodeErr cls n (j + 1) ws

/-- The input set of a clause: registers a slot reads before an earlier slot writes them (01 R23). -/
def State.inputSet (s : State) : List Nat → List (Cls × Nat) → List (Cls × Nat)
  | [], _ => []
  | w :: ws, written =>
    match fieldsOf (opcodeOf w) (fld w 0 55) with
    | none => []
    | some f =>
      let k := chkFmt (opcodeOf w) f
      ((s.posRegs k.reads).filter fun r => !written.contains r) ++ s.inputSet ws (s.posRegs k.writes ++ written)

/-- Operations of a wave in a batch (05 R142, R143). -/
def State.batchOps (s : State) (uid n : Nat) : List AOp := s.ops.filter fun o => o.uid == uid && o.batch == some n

/-- Is batch n of a wave complete (05 R144)? -/
def State.batchDone (s : State) (uid n : Nat) : Bool := (s.batchOps uid n).all (·.done)

/-- The batches BWAIT names (01 R15). -/
def bwaitSet (b : Nat) : List Nat := (List.range 8).filter fun i => bit b i

/-- What the next clause of the path in focus, at a clause start, waits for outside the set: inputs that its accesses owe, then
batches that its header names (01 R19, R23, 18 R374). -/
def State.startWaits (s : State) : Option Park :=
  match s.fetchWord s.cw.core s.lrec s.cw.pa.pc with
  | .word h =>
    match s.fetchWords (countOf h) (s.cw.pa.pc + 8) [] with
    | (.word _, ws, _) =>
      if opcodeOf h ≠ 0x1FF || fld h 52 3 ≥ 6 || fld h 38 2 = 3 || fld h 0 38 ≠ 0 ||
          (s.decodeErr (fld h 52 3) (countOf h) 0 ws).isSome then none
      else if (s.inputSet (ws.drop (s.cw.pa.replay.getD 0)) []).any (s.owed s.cw.uid s.cw.second).contains then some .inputs
      else if s.cw.pa.replay.isNone && (bwaitSet (fld h 40 8)).any fun i => !s.batchDone s.cw.uid i then some .bwait
      else none
    | _ => none
  | _ => none

/-- The path in focus is ready, or waits outside the set for what its next clause needs (18 R374). -/
def State.readyNow (s : State) : State :=
  s.onPa fun p => { p with phase := if p.clause.isSome then .resume else match s.startWaits with | some why => .parked why | none => .ready }

/-- A path whose park has ended, or that starts, becomes ready; it enters the set at once where a place is free. -/
def State.makeReady (s : State) (uid : Nat) (second : Bool) : State :=
  let was := (s.cw.uid, s.cw.second)
  let s0 := s.updPath uid second fun p => { p with readyAt := s.clk, elig := false }
  let s1 := ((s0.focus uid second).readyNow).focus was.1 was.2
  match s1.waveOf uid with
  | some w => s1.refillOf w
  | none => s1

/-- Bytes of a wave of a launch in the future area (18 R382). -/
def LRec.futureSize (r : LRec) : Nat := 128 * r.stackregs + 2048

/-- Base and size of a die's future area (20 R423). -/
def State.futureArea (s : State) (die : Nat) : Nat × Nat :=
  (fld (s.barWord (barFuture + 16 * die)) 16 40 * 65536, s.barWord (barFuture + 16 * die + 8) * 65536)

/-- May a wave that meets a page miss become a future (18 R382)? -/
def State.mayFuture (s : State) (w : Wave) : Bool :=
  let area := (s.futureArea (dieOf w.core)).2
  let used := ((s.allWaves.filter fun (x : Wave) => x.resid == .future && dieOf x.core == dieOf w.core).map
    fun x => (s.lrecOf x.launch).futureSize).foldl (· + ·) 0
  w.task.isSome && w.resid == .active && !w.wsr.getLsbD 6 && w.resv.isNone &&
    !s.ops.any (fun (o : AOp) => o.uid == w.uid && !o.done) && decide (used + (s.lrecOf w.launch).futureSize ≤ area)

/-- A wave whose path parks on a page miss becomes a future where it may: its slot is free (18 R382). -/
def State.toFuture (s : State) (uid : Nat) : State :=
  match s.waveOf uid with
  | none => s
  | some w =>
    if s.mayFuture w then
      let a := s.futureArea (dieOf w.core)
      (((s.modWave uid fun w => { w with resid := .future }).undefRange false a.1 a.2).countDie (dieOf w.core) 14 1).countArea 4
    else s

/-- A park on a page miss (08 R194; 01 R434). -/
def Park.onMiss : Park → Bool
  | .miss => true
  | .fetch _ _ => true
  | .slotMiss _ _ => true
  | _ => false

/-- A path parks and leaves the eligible set (01 R11, 18 R376); a page miss may turn a task wave into a future (18 R382). -/
def State.parkPath (s : State) (uid : Nat) (second : Bool) (why : Park) : State :=
  let s1 := s.updPath uid second fun p => { p with phase := .parked why, elig := false }
  let s2 := if why.onMiss then s1.toFuture uid else s1
  match s1.waveOf uid with
  | some w => s2.refillOf w
  | none => s2

/-- The path in focus parks. -/
def State.park (s : State) (why : Park) : State := s.parkPath s.cw.uid s.cw.second why

/-- The path in focus gives up its place: to the ready pool, or to wait for what its next clause needs (18 R374, R376). -/
def State.leave (s : State) : State :=
  let s1 := s.onPa fun p => { p with elig := false, readyAt := s.clk }
  let s2 := if s1.cw.pa.phase == .ready then s1.readyNow else s1
  s2.refillOf s2.cw

/-- Offset of the clause in progress, and of its successor (01 R17). -/
def PathSt.here (p : PathSt) : Nat :=
  match p.clause with
  | some c => c.off
  | none => p.pc

/-- Offset of the clause after the one in progress (01 R17). -/
def PathSt.seqPc (p : PathSt) : Nat :=
  match p.clause with
  | some c => (c.off + 8 * (c.words.length + 1)) % 2 ^ 32
  | none => (p.pc + 8) % 2 ^ 32

/-- The path is at the last slot of its clause. -/
def PathSt.lastSlot (p : PathSt) : Bool :=
  match p.clause with
  | some c => decide (p.slot + 1 ≥ c.words.length)
  | none => true

/-- The path in focus, at a clause start, parks where its next clause must wait (18 R374). -/
def State.parkStart (s : State) : State :=
  match s.startWaits with
  | some .inputs => s.park .inputs
  | some _ => s.park .bwait
  | none => s

/-- The path in focus stands at a clause start after a clause with YIELD `y`: it gives up its place after YIELD 2, without one, or
after 32 starts where another waits, and parks where its next clause must wait (01 R20, 18 R374, R376). -/
def State.atBoundary (s : State) (y : Nat) : State :=
  if y = 2 || !s.cw.pa.elig || (s.cw.pa.starts ≥ 32 && !(s.pool_ s.cw.core (partOf s.cw.slot)).isEmpty) then s.leave
  else s.parkStart

/-- The clause in progress is over and the path continues at `next`, an ERET at a slot of it (01 R17, 02 R63); an aborted launch's
path ends (18 R366). -/
def State.endClauseAt (s : State) (next : Nat) (replay : Option Nat) : State :=
  let y := match s.cw.pa.clause with | some c => c.yld | none => 0
  let pipe := match s.cw.pa.clause with | some c => pipeOf c.cls | none => 0
  let ab := s.abortedL s.cw.launch
  let s1 := s.onPa fun p =>
    { p with pc := next % 2 ^ 32, clause := none, slot := 0, waited := false, held := none, replay := replay, denied := [],
             phase := if ab then .ending else .ready, readyAt := s.clk, defer := if y = 1 then some pipe else none }
  if ab then s1.leave else s1.atBoundary y

/-- The clause in progress is over and the path continues at the start of `next` (01 R17). -/
def State.endClause (s : State) (next : Nat) : State := s.endClauseAt next none

/-- The slot in progress is complete: on to the next slot, or to the successor clause (01 R17, R21). -/
def State.slotDone (s : State) : State :=
  if s.cw.pa.lastSlot then s.endClause s.cw.pa.seqPc
  else s.onPa fun p => { p with slot := p.slot + 1, waited := false, held := none, denied := [] }

/-- A parked slot is complete: as `slotDone`, and the path needs its pipe again (18 R373). -/
def State.finishSlot (s : State) : State :=
  let s1 := s.slotDone
  if s1.cw.pa.phase == .ending then s1 else s1.makeReady s1.cw.uid s1.cw.second

/-- Has a piece been performed, or has it faulted? -/
def Piece.settled (p : Piece) : Bool := p.done || p.fault.isSome

/-- An access whose pieces are all settled; it stays listed only while a fault of it waits to be taken (04 R101, R102). -/
def Access.settled (a : Access) : Bool := (match a.kind with | .fence _ => false | _ => true) && a.pieces.all Piece.settled

/-- Is it the read of a word that a WAIT waits for? -/
def AKind.ofWait : AKind → Bool
  | .waitRead _ => true
  | _ => false

/-- A fault of the path has been taken: its settled accesses hold nothing back any more, and a WAIT that it ends reads no further
words (04 R102, 05 R155). -/
def State.dropHeld (s : State) (uid : Nat) (second : Bool) : State :=
  { s with accs := s.accs.filter fun a => !(a.ofPath uid second && (a.settled || a.kind.ofWait)) }

/-- An access of the path meets a page miss that the pager has not settled (04 R101). -/
def State.missing (s : State) (uid : Nat) (second : Bool) : Bool :=
  s.accs.any fun a => a.ofPath uid second && a.kind != .joinSub && a.pieces.any (·.miss)

end Sys2Proof.Machine
end

