-- ==== Sys2Proof/Machine/Ops.lean ====
section
/-! DEFINITION. The shared operations over waves: the end of a wave and of a launch's work (02 R56, 04 R103, 18 R366), circle
generations (05 R145), branch targets (01 R31), taking a trap (04 R99-R104) and the return from one (02 R63). -/

namespace Sys2Proof.Machine

open Sys2Proof (Operand W32 W64 Byte Mask SMap SMap.get? SMap.set SMap.getD SMap.modify SMap.del)
open Sys2Proof.Config (dieOf partOf)

/-- The trap causes (04 R99). -/
abbrev cIllegalOpcode : Nat := 0x01
abbrev cClassMismatch : Nat := 0x02
abbrev cReservedField : Nat := 0x03
abbrev cIllegalOperand : Nat := 0x04
abbrev cRegisterWindow : Nat := 0x05
abbrev cBranchPlacement : Nat := 0x06
abbrev cBranchTarget : Nat := 0x08
abbrev cFetch : Nat := 0x09
abbrev cSoftware : Nat := 0x0A
abbrev cBreakpoint : Nat := 0x0B
abbrev cCallInFork : Nat := 0x10
abbrev cAllInFork : Nat := 0x11
abbrev cPredStack : Nat := 0x12
abbrev cCallDepth : Nat := 0x13
abbrev cArgRange : Nat := 0x14
abbrev cFormat : Nat := 0x15
abbrev cStackLimit : Nat := 0x18
abbrev cAlign : Nat := 0x20
abbrev cRange : Nat := 0x21
abbrev cSpace : Nat := 0x22
abbrev cTranslation : Nat := 0x23
abbrev cPermission : Nat := 0x24
abbrev cEncoding : Nat := 0x25
abbrev cShape : Nat := 0x26
abbrev cDescriptor : Nat := 0x27
abbrev cBarFork : Nat := 0x28
abbrev cCircle : Nat := 0x29
abbrev cRemote : Nat := 0x2A
abbrev cDeparted : Nat := 0x2B
abbrev cTask : Nat := 0x2C
abbrev cEngine : Nat := 0x30
abbrev cBoundary : Nat := 0x31
abbrev cRegError : Nat := 0x38
abbrev cMemError : Nat := 0x39

/-- A cause with no further record. -/
def plainRec (cause : Nat) : TrapRec := ⟨cause, 0, 0, 0⟩

/-- A cause with TDATA. -/
def dataRec (cause data : Nat) : TrapRec := ⟨cause, 0, data, 0⟩

/-- The cause of a failed decode check (01 R39, 04 R99). -/
def decodeCause : DecodeError → Nat
  | .illegalOpcode => cIllegalOpcode
  | .classMismatch => cClassMismatch
  | .reservedField => cReservedField
  | .illegalOperand => cIllegalOperand
  | .registerWindow => cRegisterWindow
  | .branchPlacement => cBranchPlacement

/-- Change a launch. -/
def State.modLaunch (s : State) (id : Nat) (f : Launch → Launch) : State := { s with launches := SMap.modify s.launches id f }

/-- Change a block. -/
def State.modBlock (s : State) (id : Nat) (f : Block → Block) : State := { s with blocks := SMap.modify s.blocks id f }

/-- Record the first error of a launch: LERR and, for a wave error, the E fields (04 R89, R103). -/
def State.setErr (s : State) (launch code : Nat) (e : Option LErrRec) : State :=
  s.modLaunch launch fun l =>
    { l with lerr := if l.lerr = 0 then code else l.lerr, err := if l.err.isNone then e else l.err }

/-- The E fields of a trap of the wave in focus (04 R89). -/
def State.errRec (s : State) (r : TrapRec) (clause slot : Nat) : LErrRec :=
  let g := s.lrec
  { cause := r.cause
    block := ((s.blkCoord 0).toNat + g.gridx * ((s.blkCoord 1).toNat + g.gridy * (s.blkCoord 2).toNat)) % 2 ^ 24
    wave := s.cw.widx, clause := clause, slot := slot }

/-- The members of a circle of a block (04 R93). -/
def State.members (s : State) (b : Block) (circ : Nat) : List Nat :=
  if circ = 0 then List.range b.nwaves
  else
    match (s.launchOf b.launch).bind fun l => l.circles[circ - 1]? with
    | some m => (List.range b.nwaves).filter fun i => bit m i
    | none => []

/-- A circle of a block as it stands. -/
def Block.circle (b : Block) (circ : Nat) : Circle := SMap.getD b.circles circ { gen := 0, arrived := [], prev := [] }

/-- Has every member that has not ended arrived, in a generation that has begun (05 R145)? -/
def circleFull (members ended : List Nat) (c : Circle) : Bool :=
  !c.arrived.isEmpty && members.all fun m => ended.contains m || (c.arrived.lookup m).isSome

/-- Complete a generation (05 R145). -/
def Circle.complete (c : Circle) : Circle := { gen := c.gen + 1, arrived := [], prev := c.arrived.map (·.2) }

/-- Complete the pending generation of a circle where its last member has arrived (05 R145). -/
def State.circleCheck (s : State) (block circ : Nat) : State :=
  match SMap.get? s.blocks block with
  | none => s
  | some b =>
    let c := b.circle circ
    if circleFull (s.members b circ) b.ended c then
      s.modBlock block fun b => { b with circles := SMap.set b.circles circ c.complete }
    else s

/-- The generation of a circle of a block. -/
def State.genOf (s : State) (block circ : Nat) : W32 := match SMap.get? s.blocks block with | some b => (b.circle circ).gen | none => 0

/-- A wave arrives in a circle, which is a release (05 R145, R146; 09 R211). -/
def State.circleArrive (s : State) (block circ wave : Nat) (x : Option W32) : State :=
  ((s.putOrder (circlePlace block circ (s.genOf block circ).toNat)).modBlock block fun b =>
    let c := b.circle circ
    { b with circles := SMap.set b.circles circ { c with arrived := c.arrived ++ [(wave, x)] } }).circleCheck block circ

/-- Add a join word's subtraction to the accesses in flight: an atomic by the device, a release at DEVICE scope, ordered
after the accesses of the path that retires the record (13 R320). -/
def State.joinSub (s : State) (w : Wave) (addr : Nat) (gran : Bool) : State :=
  let n := s.newId
  let piece : Piece :=
    { lane := 0, part := 0, addr := addr, data := 0xFFFFFFFF, done := false, result := [], miss := false, fault := none }
  let a : Access :=
    { id := n.1, uid := w.uid, second := w.second, both := true, core := w.core, launch := w.launch, block := w.block,
      kind := .joinSub, space := if gran then spGRN else spDEV, scope := 3, order := 3, cache := 0,
      asid := (s.lrecOf w.launch).asid, word := 0, rm := 0, ftz := false, wpk := false, scalar := true, dst := [], extra := [],
      pieces := [piece], since := s.ref, sent := [] }
  { n.2.modOrder fun x => (x.put (threadNo w.uid false) (accPlace n.1)).put (threadNo w.uid true) (accPlace n.1) with accs := n.2.accs ++ [a] }

/-- A record leaves the task store; its join word is decremented (13 R320). -/
def State.retire (s : State) (w : Wave) (id : Nat) : State :=
  match s.tasks.find? fun t => t.id == id with
  | none => s
  | some t =>
    let s1 := { s with tasks := s.tasks.filter fun t => t.id != id }
    match t.join with
    | some (a, g) => s1.joinSub w a g
    | none => s1

/-- Cancel a wave's open reservation as TCANCEL does (13 R324); the records written are discarded. -/
def State.cancelResv (s : State) (w : Wave) : State :=
  match w.resv with
  | none => s
  | some r => r.written.foldl (fun (s : State) id => s.retire w id) s

/-- An exit that finds a reservation open cancels it and counts it (13 R326). -/
def State.exitResv (s : State) (w : Wave) : State :=
  match w.resv with
  | none => s
  | some r => ((s.cancelResv w).modLaunch w.launch fun l => { l with cancelled := l.cancelled + r.total }).modWave w.uid
      fun w => { w with resv := none }

/-- The wave has ended (02 R56): it leaves its slot and every circle of its block (05 R145); a task wave retires its records
and cancels its reservation (13 R325, R326); the block of a last wave goes on to its exit. -/
def State.finishWave (s : State) (w : Wave) : State :=
  let s0 := { s with accs := s.accs.filter fun (a : Access) => a.uid != w.uid || a.kind == AKind.joinSub }
  let s1 := s0.modWave w.uid fun w => { w with resid := .free, pa := PathSt.absent, pb := PathSt.absent, fork := none, poison := [] }
  let s2 := match w.task with
    | some t => (t.recs.foldl (fun (s : State) id => s.retire w id) s1).exitResv w
    | none => s1
  let s3 := s2.modBlock w.block fun b => { b with ended := insertNat w.widx b.ended }
  let s4 := match SMap.get? s3.blocks w.block with
    | none => s3
    | some b => b.circles.foldl (fun (s : State) (c : Nat × Circle) => s.circleCheck w.block c.1) s3
  let s5 := s4.modBlock w.block fun b => if b.ended.length ≥ b.nwaves then { b with phase := .exiting } else b
  if w.resid == .active then s5.refill w.core (partOf w.slot) else s5

/-- Is a path at its end: END executed, or created already arrived (02 R56, R80), or absent? -/
def PathSt.over (p : PathSt) : Bool :=
  match p.phase with
  | .ending => true
  | .idle => true
  | .arrived _ auto => auto
  | _ => false

/-- Have both paths of a wave ended (02 R56, 04 R104)? A future resumes first (18 R382). -/
def Wave.ended (w : Wave) : Bool :=
  w.resid != .free && w.resid != .future && w.pa.over && w.pb.over && (w.pa.phase == .ending || w.pb.phase == .ending)

/-- Does a wave's end wait for an access of this kind: not for fences, nor for the device's own join updates? -/
def AKind.ofWave : AKind → Bool
  | .fence _ => false
  | .joinSub => false
  | _ => true

/-- End the wave where both its paths have ended and nothing is owed to it any more (02 R56). In trap mode the faults of its
accesses are not taken: END ends the wave with its trap record (03 R86, 04 R104). -/
def State.tryFinish (s : State) (uid : Nat) : State :=
  match s.waveOf uid with
  | none => s
  | some w =>
    if w.ended && (w.tm || (w.pa.pend.isEmpty && w.pb.pend.isEmpty)) &&
        !s.accs.any (fun a => a.uid == uid && a.kind.ofWave && !(w.tm && a.settled)) then
      s.finishWave w
    else s

/-- A park that waits on a condition, which an abort ends at once (18 R366); the others wait on an access or a miss. -/
def Park.onCondition : Park → Bool
  | .inputs => false
  | .owed => false
  | .accesses _ => false
  | .miss => false
  | .fetch _ _ => false
  | .slotMiss _ _ => false
  | .snap _ _ _ => false
  | _ => true

/-- The phase of a path of a launch that is aborted (18 R366). -/
def Phase.aborted (p : Phase) : Phase :=
  match p with
  | .ready => .ending
  | .arrived _ _ => .ending
  | .parked why => if why.onCondition then .ending else p
  | p => p

/-- A path of a launch that is aborted takes no fault; one that ends leaves its place (18 R366, R376). -/
def PathSt.abort (p : PathSt) : PathSt :=
  { p with phase := p.phase.aborted, elig := p.elig && p.phase.aborted != .ending, pend := [] }

/-- A wave of a launch that is aborted. -/
def Wave.abort (w : Wave) : Wave := { w with pa := w.pa.abort, pb := w.pb.abort }

/-- The settled accesses of a wave hold nothing back any more: their faults are not taken (03 R86; 04 R103; 18 R366). -/
def State.dropFaults (s : State) (uid : Nat) : State := { s with accs := s.accs.filter fun a => !(a.uid == uid && a.settled) }

/-- The waves of aborted launches: a path ends at its clause boundary or JOIN, and the wave with its last path (18 R366). -/
def State.reap (s : State) : State :=
  if s.launches.any fun l => l.2.aborted then
    (s.allWaves.filter fun w => w.resid != .free && s.abortedL w.launch).foldl
      (fun (s : State) w => (((s.modWave w.uid Wave.abort).dropFaults w.uid).tryFinish w.uid).refillOf w) s
  else s

/-- Has no TNEXT delivered a record yet: it is queued, or its wave has not come to its first TNEXT (13 R320, R322)? -/
def State.undelivered (s : State) (t : TaskRec) : Bool :=
  t.published && (!t.served || s.allWaves.any fun w => w.resid != .free && (match w.task with | some v => v.first && v.recs.contains t.id | none => false))

/-- Abort a launch (18 R366): records not delivered are discarded. -/
def State.abortLaunch (s : State) (id : Nat) : State :=
  let lost := s.tasks.countP fun t => t.launch == id && s.undelivered t
  let s1 := { s with
    tasks := s.tasks.filter fun t => !(t.launch == id && s.undelivered t)
    blocks := s.blocks.filter fun (b : Nat × Block) => !(b.2.launch == id && b.2.phase == BPhase.placed) }
  (s1.modLaunch id fun l => { l with aborted := true, joinLost := l.joinLost + lost }).reap

/-- EndWave of 04 R103: the wave in focus ends with an error of its launch, which aborts the launch (18 R366). -/
def State.endWave (s : State) (code : Nat) (r : TrapRec) (clause slot : Nat) : State :=
  let e := s.errRec r clause slot
  let s1 := s.onWave fun w =>
    { w with pa := { w.pa with phase := .ending, elig := false, pend := [] }
             pb := if w.pb.phase == .idle then w.pb else { w.pb with phase := .ending, elig := false, pend := [] } }
  ((((s1.setErr s1.cw.launch code (some e)).abortLaunch s1.cw.launch).dropFaults s1.cw.uid).tryFinish s1.cw.uid).refillOf s1.cw

/-- The other path of a fork stops at its slot boundary (04 R103). -/
def PathSt.stop (p : PathSt) : PathSt :=
  if p.wants || p.phase == .issuing then { p with phase := .parked .trapStop, elig := false } else p

/-- The record of a trap in the system registers (04 R99, R103); e0 to e15 are undefined at entry. -/
def Wave.enterTrap (w : Wave) (entry seed : Nat) (r : TrapRec) (clause slot : Nat) : Wave :=
  { (w.setTm true) with
    tcause := BitVec.ofNat 32 r.cause, tclause := BitVec.ofNat 32 clause, tslot := BitVec.ofNat 32 slot,
    taddrlo := BitVec.ofNat 32 r.addr, taddrhi := BitVec.ofNat 32 (r.addr / 4294967296), tdata := BitVec.ofNat 32 r.data,
    tlanes := r.lanes, eregs := [], eseed := some seed, poison := w.trapPoison,
    pa := { w.pa with pc := entry, clause := none, slot := 0, phase := .ready, waited := false, held := none, replay := none, inTrap := true, denied := [] },
    pb := w.pb.stop }

/-- Trap entry for the path in focus (04 R103): cause and record `r`, TCLAUSE and TSLOT as given; a path with a place parks where
the handler's first clause must wait (18 R374). -/
def State.trap (s : State) (r : TrapRec) (clause slot : Nat) : State :=
  if s.cw.tm then s.endWave 5 r clause slot
  else if s.lrec.trapentry = 0xFFFFFFFF then s.endWave 4 r clause slot
  else
    let d := s.draw
    let s1 := d.2.onWave fun w => w.enterTrap s.lrec.trapentry d.1 r clause slot
    if s1.cw.pa.elig then
      let s2 := s1.parkStart
      if s.cw.pb.elig then s2.refillOf s2.cw else s2
    else s1.makeReady s1.cw.uid s1.cw.second

/-- A trap raised at issue of the slot in progress (04 R100). -/
def State.trapHere (s : State) (r : TrapRec) : State := s.trap r s.cw.pa.here s.cw.pa.slot

/-- TRAP and BKPT: TSLOT is the next slot, 17 after the last (02 R62). -/
def State.trapNext (s : State) (r : TrapRec) : State :=
  s.trap r s.cw.pa.here (if s.cw.pa.lastSlot then 17 else s.cw.pa.slot + 1)

/-- What the check of a branch target answers (01 R31). -/
inductive Target where
  | ok (header : Nat)
  | trap (r : TrapRec)
  | miss (asid va : Nat)
deriving DecidableEq, Repr

/-- CheckTarget (01 R31, R434). -/
def State.checkTarget (s : State) (t : Nat) : Target :=
  if t % 8 ≠ 0 then .trap ⟨cBranchTarget, t, 0, 0⟩
  else
    match s.fetchWord s.cw.core s.lrec t with
    | .bad why => .trap ⟨cFetch, t, why, 0⟩
    | .miss a v => .miss a v
    | .word w => if opcodeOf w = 0x1FF then .ok w else .trap ⟨cBranchTarget, t, 0, 0⟩

/-- An instruction fetch that ends in a fault is counted (20 R430). -/
def State.noteFetchFault (s : State) (r : TrapRec) : State :=
  if r.cause = cFetch then s.countFault (dieOf s.cw.core) s.lrec.asid ((s.lrec.codebase + r.addr) % 2 ^ 56) r.data else s

/-- Is the pager ring full (20 R422)? -/
def State.ringFull (s : State) : Bool :=
  decide ((s.barWord barPQHEAD + 2 ^ 32 - s.barWord barPQTAIL) % 2 ^ 32 ≥ 2 ^ s.barWord barPQLOG)

/-- The 32-byte record of a miss (20 R422). -/
def Miss.record (m : Miss) : Nat :=
  (m.page * 65536) % 2 ^ 56 / 65536 * 65536 + m.asid % 65536 + 2 ^ 64 * (m.kind + 256 * m.die) + 2 ^ 96 * (m.token % 2 ^ 32)

/-- The home controller writes the record of a waiting miss where the ring has room (20 R422). -/
def State.postMiss (s : State) (m : Miss) : State :=
  if m.posted || s.ringFull then s
  else
    let head := s.barWord barPQHEAD
    let base := s.barWord barPQBASE
    let at_ := base % 2 ^ 55 + 32 * (head % 2 ^ s.barWord barPQLOG)
    let s0 := if bit base 55 then s else s.countHbm 4 at_ 32
    let s1 := (List.range 32).foldl (fun (s : State) i => s.homePut (bit base 55) (at_ + i) (BitVec.ofNat 8 (m.record / 256 ^ i))) s0
    let s2 := (s1.setBar barPQHEAD ((head + 1) % 2 ^ 32)).countDie m.die 6 1
    let s3 := { s2 with misses := s2.misses.map fun (x : Miss) => if x.token == m.token then { x with posted := true } else x }
    if bit (s.barWord barPQMSI) 11 then { s3 with msi := s3.msi ++ [fld (s.barWord barPQMSI) 0 11] } else s3

/-- Records that wait for room in the ring are written, the oldest first (20 R422). -/
def State.postMisses (s : State) : State := s.misses.foldl State.postMiss s

/-- A page that an access of `core` missed is posted to the pager once (08 R194, 20 R422); `kind` as the record holds it. -/
def State.addMiss (s : State) (asid va kind core : Nat) : State :=
  let page := va % 2 ^ 56 / 65536
  if s.misses.any fun (m : Miss) => m.asid == asid && m.page == page then s
  else
    let s := s.countWalk (dieOf core) asid (va % 2 ^ 56)
    let n := s.newId
    let m : Miss := { token := n.1, asid := asid, page := page, kind := kind, die := dieOf core, posted := false }
    { n.2 with misses := n.2.misses ++ [m] }.postMisses

/-- The slot waits for the pager and is then tried again (01 R434, 08 R194). -/
def State.parkMiss (s : State) (asid va kind : Nat) : State := (s.addMiss asid va kind s.cw.core).park (.slotMiss asid va)

/-- Check a target before any effect of a control transfer, then go on (01 R31). -/
def State.withTarget (s : State) (t : Nat) (k : Nat → State → State) : State :=
  match s.checkTarget t with
  | .ok h => k h (s.noteFetch t)
  | .trap r => (s.noteFetchFault r).trapHere r
  | .miss a v => s.parkMiss a v 2

/-- BranchTo after its check (01 R31). -/
def State.branch (s : State) (t : Nat) : State := s.withTarget t fun _ s => s.endClause t

/-- The other path of a fork goes on after ERET (04 R104). -/
def State.releaseOther (s : State) : State :=
  if s.cw.pb.phase == .parked .trapStop then s.makeReady s.cw.uid (!s.cw.second) else s

/-- Leave trap mode and go on at clause `c` (02 R63, 04 R104). -/
def State.leaveTrap (s : State) (c : Nat) (replay : Option Nat) : State :=
  ((s.onWave fun w => { (w.setTm false) with pa := { w.pa with inTrap := false } }).endClauseAt c replay).releaseOther

/-- ERET (02 R63): leave trap mode and resume at TCLAUSE, TSLOT; a TCLAUSE that holds no header is a trap in trap mode. A header
whose fetch fails is reported against that header where ERET resumes there (01 R434). -/
def State.eret (s : State) : State :=
  let c := s.cw.tclause.toNat
  let k := s.cw.tslot.toNat
  match s.checkTarget c with
  | .ok h =>
    let n := countOf h
    let s1 := s.noteFetch c
    if k = 16 then s1.leaveTrap c none
    else if k < n then s1.leaveTrap c (some k)
    else s1.leaveTrap ((c + 8 * (n + 1)) % 2 ^ 32) none
  | .trap r =>
    if r.cause != cFetch then s.trapHere r
    else if k = 16 then s.leaveTrap c none
    else if r.data = 0 then s.trapHere ⟨cBranchTarget, c, 0, 0⟩
    else (s.noteFetchFault r).trapHere r
  | .miss a v => s.parkMiss a v 2

/-- Take a trap on the other path of the wave in focus, which stays in focus (04 R104). -/
def State.trapOther (s : State) (r : TrapRec) (clause slot : Nat) : State :=
  let b := s.cw.second
  let s1 := (s.onWave fun w => w.face (!b)).trap r clause slot
  s1.onWave fun w => w.face b

/-- The path in focus ends (02 R56): its peer at a JOIN it reached itself takes sub-code 5; the wave ends with its last path,
or at once in trap mode (02 R86, 04 R104). -/
def State.endPath (s : State) : State :=
  let tm := s.cw.tm
  let s1 := s.onWave fun w =>
    { w with pa := { w.pa with phase := .ending, elig := false }
             pb := if tm && w.pb.phase != .idle then { w.pb with phase := .ending, elig := false } else w.pb }
  let s2 := match s1.cw.pb.phase with
    | .arrived _ false => s1.trapOther (dataRec cPredStack 5) s1.cw.pb.here s1.cw.pb.slot
    | _ => s1
  ((if tm then s2.dropFaults s.cw.uid else s2).tryFinish s.cw.uid).refillOf s.cw

end Sys2Proof.Machine
end

