-- ==== Sys2Proof/Machine/Cache.lean ====
section
/-! DEFINITION. The home memories behind the caches, the sectors of the L1s and L2s, the sector grants, the remap filters and
the places where an access is performed (08 R176, R183-R199; 09 R218-R220; 19 R390, R404). -/

namespace Sys2Proof.Machine

open Sys2Proof (Operand W32 W64 Byte Mask SMap SMap.get? SMap.set SMap.getD SMap.modify SMap.del)
open Sys2Proof.Config (dieOf posOf)

/-- A home sector from a translation. -/
def Home.of (pool : Bool) (pa casid cva : Nat) : Home :=
  if pool then { pool := true, asid := casid, line := cva / 128, kind := 2, addr := pa / 2 ^ 44 % 4096 * 2 ^ 56 + pa % 2 ^ 44 / 128 * 128 }
  else { pool := false, asid := casid, line := cva / 128, kind := (bit cva 55).toNat, addr := pa / 128 * 128 }

/-- Byte i of a home sector. -/
def State.homeAt (s : State) (h : Home) (i : Nat) : Byte :=
  match h.kind with
  | 0 => s.homeByte false (h.addr + i)
  | 1 => s.homeByte true (h.addr + i)
  | _ => undefByte Config.seedPool s.pool (h.addr + i)

/-- Write byte i of a home sector. -/
def State.homeSet (s : State) (h : Home) (i : Nat) (b : Byte) : State :=
  match h.kind with
  | 0 => s.homePut false (h.addr + i) b
  | 1 => s.homePut true (h.addr + i) b
  | _ => { s with pool := SMap.set s.pool (h.addr + i) b }

/-- Byte i of a sector's data. -/
def byteOf (d : BitVec 1024) (i : Nat) : Byte := BitVec.ofNat 8 (d.toNat / 256 ^ i)

/-- A home sector's data. -/
def State.homeData (s : State) (h : Home) : BitVec 1024 :=
  BitVec.ofNat 1024 (ofBytes ((List.range 128).map fun i => (s.homeAt h i).toNat))

/-- The bits of the bytes a byte mask names. -/
def bitMask (m : BitVec 128) : BitVec 1024 :=
  BitVec.ofNat 1024 ((List.range 128).foldl (fun a i => if m.getLsbD i then a + 255 * 256 ^ i else a) 0)

/-- Replace the bytes a mask names. -/
def mergeData (old new : BitVec 1024) (m : BitVec 128) : BitVec 1024 :=
  let k := bitMask m
  (old &&& ~~~k) ||| (new &&& k)

/-- Write the bytes of a home sector that a mask names; an uncorrectable word of HBM that is written whole is good again
(log 1). -/
def State.homeMerge (s : State) (h : Home) (d : BitVec 1024) (m : BitVec 128) : State :=
  let whole (w : Nat × Nat) : Bool :=
    w.1 == 7 && decide (h.addr ≤ 4 * w.2 && 4 * w.2 < h.addr + 128) && fld m.toNat (4 * w.2 - h.addr) 4 == 15
  let s1 := if h.kind = 0 then { s with badWords := s.badWords.filter fun w => !whole w } else s
  (List.range 128).foldl (fun (s : State) i => if m.getLsbD i then s.homeSet h i (byteOf d i) else s) s1

/-- Count bytes over the fabric, in units of 64: the spec gives a packet no size, so that the counts are free values (20 R430, log
53). -/
def State.countFab (s : State) (die a : Nat) : State :=
  (s.countDie die 8 (Config.freeWord s.fresh (2 ^ 40 + a)).toNat).countDie die 9 (Config.freeWord s.fresh (2 ^ 41 + a)).toNat

/-- Count the bytes of a sector read (source 3) or written (source 4) at its home: at the die of the stack for HBM (08 R193), at the
die that asks for the fabric (20 R430, log 53). -/
def State.countHome (s : State) (die src : Nat) (h : Home) : State :=
  if h.kind = 0 then s.countDie (h.addr / 2 ^ 18 % 4) src 2 else if h.pool then s.countFab die h.addr else s

/-- The caches by owner: an L1 by its core, an L2 by 448 + die. -/
def l2Of (die : Nat) : Nat := 448 + die

/-- Is the sector the one of this name in this cache? -/
def Sector.isAt (x : Sector) (owner : Nat) (h : Home) : Bool :=
  x.owner == owner && x.pool == h.pool && x.asid == h.asid && x.line == h.line

/-- The copy a cache holds of a sector. -/
def State.sect? (s : State) (owner : Nat) (h : Home) : Option Sector := s.sectors.find? fun x => x.isAt owner h

/-- A cache drops its copy. -/
def State.dropSect (s : State) (owner : Nat) (h : Home) : State :=
  { s with sectors := s.sectors.filter fun x => !x.isAt owner h }

/-- Change the copy a cache holds. -/
def State.mapSect (s : State) (owner : Nat) (h : Home) (f : Sector → Sector) : State :=
  { s with sectors := s.sectors.map fun x => if x.isAt owner h then f x else x }

/-- A cache allocates a clean copy. -/
def State.addSect (s : State) (owner launch : Nat) (h : Home) (d : BitVec 1024) (own : Bool := false) : State :=
  { s with
    sectors := s.sectors ++ [{ owner := owner, pool := h.pool, asid := h.asid, line := h.line, data := d, dirty := 0, launch := launch, own := own }] }

/-- The die that holds a sector's grant (09 R219). -/
def State.grantee (s : State) (h : Home) : Option Nat :=
  (s.grants.find? fun g => g.1 == h.kind && g.2.1 == h.addr).map fun g => g.2.2

/-- Write the dirty bytes of an L2's copy to its home; the copy stays, clean. -/
def State.l2Home (s : State) (die : Nat) (h : Home) : State :=
  match s.sect? (l2Of die) h with
  | none => s
  | some x =>
    if x.dirty = 0 then s
    else
      ((s.countHome die 4 h).homeMerge h x.data x.dirty).mapSect (l2Of die) h fun x => { x with dirty := 0 }

/-- The home controller recalls a grant: the holder writes back the sector and drops it (09 R219). -/
def State.recall (s : State) (h : Home) : State :=
  match s.grantee h with
  | none => s
  | some d =>
    let s1 := (s.l2Home d h).dropSect (l2Of d) h
    { s1 with grants := s1.grants.filter fun g => !(g.1 == h.kind && g.2.1 == h.addr) }

/-- Recall a grant that another die holds. -/
def State.recallFor (s : State) (die : Nat) (h : Home) : State := if s.grantee h == some die then s else s.recall h

/-- The event-log codes the model uses: the spec gives none (20 R426, log 15). -/
abbrev logDropped : Nat := 1
abbrev logUncorrectable : Nat := 2
abbrev logFrame : Nat := 3
abbrev logThermal : Nat := 4
abbrev logFirmware : Nat := 5
abbrev logStatus : Nat := 6

/-- Log an event (20 R426); the ring keeps 2048 entries. -/
def State.logEvent (s : State) (kind : Nat) (words : List Nat) : State :=
  { s with evlog := (s.evlog ++ [{ kind := kind, time := s.ptp, words := words }]) }

/-- The home of a cached sector by its canonical name; none where no translation is left. -/
def State.homeOf (s : State) (die : Nat) (x : Sector) : Option Home :=
  match s.xlateG x.pool die x.asid (x.line * 128) needWR with
  | .ok pa ca cv => some (Home.of x.pool pa ca cv)
  | _ => none

/-- The die of a cache. -/
def dieOfOwner (o : Nat) : Nat := if o < 448 then dieOf o else o - 448

/-- A cached copy takes the undefined bytes of its home, clean, at the `n` home addresses from `a`. -/
def State.forgetCopy (s : State) (host : Bool) (a n : Nat) (x : Sector) : Sector :=
  match s.homeOf (dieOfOwner x.owner) x with
  | none => x
  | some h =>
    if h.kind ≠ host.toNat || h.addr + 128 ≤ a || a + n ≤ h.addr then x
    else
      let m := BitVec.ofNat 128 ((List.range 128).foldl (fun k i => if a ≤ h.addr + i && h.addr + i < a + n then k + 2 ^ i else k) 0)
      { x with data := mergeData x.data (s.homeData h) m, dirty := x.dirty &&& ~~~m }

/-- The `n` home bytes from `a`, and every copy of them, become undefined (log 1). -/
def State.undefHome (s : State) (host : Bool) (a n : Nat) : State :=
  let t := s.undefRange host a n
  { t with sectors := t.sectors.map (t.forgetCopy host a n) }

/-- The `n` bytes of an address space from `va` become undefined, where its pages are mapped with the rights `need`. -/
def State.undefVa (s : State) (asid va n need : Nat) : State :=
  (List.range ((va % 65536 + n + 65535) / 65536)).foldl (fun (s : State) k =>
    let lo := max va ((va / 65536 + k) * 65536)
    match s.xlate 0 asid (lo % 2 ^ 56) need with
    | .ok pa _ cv => s.undefHome (bit cv 55) pa (min (va + n) ((va / 65536 + k + 1) * 65536) - lo)
    | _ => s) s

/-- A write-back that finds no translation is dropped and logged (20 R421). -/
def State.dropDirty (s : State) (x : Sector) : State :=
  (s.logEvent logDropped [x.asid, x.line]).mapSect x.owner { pool := x.pool, asid := x.asid, line := x.line, kind := 0, addr := 0 }
    fun y => { y with dirty := 0 }

/-- An L2 writes the dirty bytes of its copy out (08 R184; 09 R219; 20 R421). -/
def State.outL2 (s : State) (x : Sector) : State :=
  let die := dieOfOwner x.owner
  if x.dirty = 0 then s
  else
    match s.homeOf die x with
    | none => s.dropDirty x
    | some h =>
      let h := { h with asid := x.asid, line := x.line }
      if s.grantee h == some die then s.l2Home die h else (s.recall h).l2Home die h

/-- A cache drops its copy of a sector by name. -/
def State.dropCopy (s : State) (x : Sector) : State :=
  s.dropSect x.owner { pool := x.pool, asid := x.asid, line := x.line, kind := 0, addr := 0 }

/-- Is it a sector of the 512-byte line of another? -/
def Sector.sameLine (x y : Sector) : Bool := x.owner == y.owner && x.pool == y.pool && x.asid == y.asid && x.line / 4 == y.line / 4

/-- One sector of each line a cache holds. -/
def linesOf (l : List Sector) : List Sector :=
  l.foldl (fun (r : List Sector) x => if r.any x.sameLine then r else r ++ [x]) []

/-- The line a cache of `cap` lines gives up to take the line of a sector: none where there is room; the choice among the lines
is open (08 R184). -/
def State.victim (s : State) (cap owner : Nat) (h : Home) : Option Sector :=
  let held := s.sectors.filter fun x => x.owner == owner
  if held.length < cap || held.any (fun x => x.pool == h.pool && x.asid == h.asid && x.line / 4 == h.line / 4) then none
  else
    let ls := linesOf held
    if ls.length < cap then none else ls[(Config.freeWord s.fresh (2 ^ 80 + 512 * h.line + owner)).toNat % ls.length]?

/-- Make room in an L2 for the line of a sector (08 R184). -/
def State.roomL2 (s : State) (die : Nat) (h : Home) : State :=
  match s.victim Config.l2Lines (l2Of die) h with
  | none => s
  | some v => (s.sectors.filter v.sameLine).foldl (fun (s : State) x => (s.outL2 x).dropCopy x) s

/-- Fill an L2 with a sector; `quiet` where a request already made finds it there (08 R184, R185, R187). -/
def State.fillL2 (s : State) (die launch : Nat) (h : Home) (quiet : Bool := false) : State :=
  match s.sect? (l2Of die) h with
  | some _ => if quiet then s else s.countDie die 1 1
  | none =>
    let s1 := (((s.recallFor die h).countDie die 2 1).countHome die 3 h).roomL2 die h
    s1.addSect (l2Of die) launch h (s1.homeData h) (s.grantee h == some die)

/-- The name of a cached line whose page has no translation any more: it has no home (08 R195). -/
def Home.lost (asid va : Nat) (pool : Bool) : Home :=
  { pool := pool, asid := asid, line := va / 128, kind := 9, addr := (2 * asid + pool.toNat) * 2 ^ 56 + va / 128 * 128 }

/-- Take a sector's grant for a die (09 R219); a line without a home is served under the grant its die holds (08 R195). -/
def State.takeGrant (s : State) (die : Nat) (h : Home) : State :=
  if h.kind = 9 || s.grantee h == some die then s
  else
    let s1 := (s.recall h).l2Home die h
    let s2 := s1.dropSect (l2Of die) h
    { s2 with grants := (h.kind, h.addr, die) :: s2.grants }

/-- Write the dirty bytes of an L1's copy to the die's L2; the copy stays, clean. -/
def State.l1ToL2 (s : State) (core : Nat) (h : Home) : State :=
  match s.sect? core h with
  | none => s
  | some x =>
    if x.dirty = 0 then s
    else
      let s1 := s.fillL2 (dieOf core) x.launch h
      let s2 := s1.mapSect (l2Of (dieOf core)) h fun y => { y with data := mergeData y.data x.data x.dirty, dirty := y.dirty ||| x.dirty }
      s2.mapSect core h fun y => { y with dirty := 0 }

/-- An L1 writes the dirty bytes of its copy out (08 R184, 20 R421). -/
def State.outL1 (s : State) (x : Sector) : State :=
  if x.dirty = 0 then s
  else
    match s.homeOf (dieOfOwner x.owner) x with
    | none => s.dropDirty x
    | some h => s.l1ToL2 x.owner { h with asid := x.asid, line := x.line }

/-- Make room in an L1 for the line of a sector (08 R184). -/
def State.roomL1 (s : State) (core : Nat) (h : Home) : State :=
  match s.victim Config.l1Lines core h with
  | none => s
  | some v => (s.sectors.filter v.sameLine).foldl (fun (s : State) x => (s.outL1 x).dropCopy x) s

/-- Where an access is performed (09 R218). -/
inductive Pt where
  | l1 | l2 | grant | home
deriving DecidableEq, Repr

/-- The point of coherence of a load or store (09 R218); `multi` where the block spans cores. -/
def ptOf (h : Home) (strong multi : Bool) (scope : Nat) : Pt :=
  if !strong then .l1
  else
    match scope with
    | 0 => .l1
    | 1 => if multi then .l2 else .l1
    | 2 => .l2
    | 3 => if h.pool then .home else .grant
    | _ => if h.pool || h.kind = 1 then .home else .grant

/-- Where an atomic or reduction is performed: never in an L1 (09 R218). -/
def ptAtomic (h : Home) (scope : Nat) : Pt :=
  if h.pool then .home
  else if scope ≤ 2 then .l2
  else if scope ≤ 3 || h.kind = 0 then .grant
  else .home

/-- What asks for a sector: the core, its launch, and the CACHE hint 2, which allocates in the L2 only (01 R28); `again` names the
sectors whose request the access or other lanes of the instruction have made already (08 R187), and `gran` tells that the access has
been counted at the granary (20 R430). -/
structure Asker where
  core : Nat
  launch : Nat
  l2Only : Bool
  again : List (Bool × Nat × Nat) := []
  gran : Bool := false
deriving DecidableEq, Repr

/-- Has the request for a sector been made already? -/
def Asker.shares (q : Asker) (h : Home) : Bool := q.again.contains (h.pool, h.asid, h.line)

/-- What asks, after it has asked for a place: it asks for its sector once (08 R187). -/
def Asker.after (q : Asker) (l : Loc) : Asker :=
  match l with
  | .sec h _ => if q.shares h then q else { q with again := (h.pool, h.asid, h.line) :: q.again }
  | .gran _ => { q with gran := true }
  | _ => q

/-- Count an access to the granary once (20 R430). -/
def State.countGran (s : State) (q : Asker) : State := if q.gran then s else s.countDie (dieOf q.core) 12 1

/-- Bring a sector to where it is performed, dirty copies inside that point written out (09 R218, R219). -/
def State.bring (s : State) (q : Asker) (h : Home) (p : Pt) : State :=
  let die := dieOf q.core
  match p with
  | .l1 =>
    match s.sect? q.core h with
    | some _ => if q.shares h then s else s.countCore q.core 5 8 1
    | none =>
      let s1 := (if q.shares h then s else s.countCore q.core 6 8 1).fillL2 die q.launch h (q.shares h)
      if q.l2Only then s1
      else
        match s1.sect? (l2Of die) h with
        | some x => (s1.roomL1 q.core h).addSect q.core q.launch h x.data
        | none => s1
  | .l2 => (s.l1ToL2 q.core h).fillL2 die q.launch h (q.shares h)
  | .grant => ((s.l1ToL2 q.core h).takeGrant die h).fillL2 die q.launch h (q.shares h)
  | .home =>
    let s1 := ((s.l1ToL2 q.core h).recall h).l2Home die h
    if h.pool && !q.shares h then s1.countFab die h.addr else s1

/-- The data a sector has at the point it was brought to. -/
def State.dataAt (s : State) (q : Asker) (h : Home) (p : Pt) : BitVec 1024 :=
  match p with
  | .l1 =>
    match s.sect? q.core h, s.sect? (l2Of (dieOf q.core)) h with
    | some x, _ => x.data
    | none, some x => x.data
    | none, none => s.homeData h
  | .home => s.homeData h
  | _ =>
    match s.sect? (l2Of (dieOf q.core)) h with
    | some x => x.data
    | none => s.homeData h

/-- A copy takes written bytes; `dirty` where the copy is the place of the write. -/
def Sector.take (x : Sector) (launch : Nat) (d : BitVec 1024) (m : BitVec 128) (dirty : Bool) : Sector :=
  { x with data := mergeData x.data d m, dirty := if dirty then x.dirty ||| m else x.dirty, launch := if dirty then launch else x.launch }

/-- Write bytes of a sector at the point it was brought to; copies in front of it are updated (09 R219). -/
def State.putAt (s : State) (q : Asker) (h : Home) (p : Pt) (d : BitVec 1024) (m : BitVec 128) : State :=
  let l2 := l2Of (dieOf q.core)
  let up (s : State) (owner : Nat) (dirty : Bool) : State := s.mapSect owner h fun x => x.take q.launch d m dirty
  match p with
  | .l1 => if (s.sect? q.core h).isSome then up s q.core true else up s l2 true
  | .home => up (up (s.homeMerge h d m) l2 false) q.core false
  | _ => up (up s l2 true) q.core false

/-- Before an atomic the issuing L1 drops its copy, whose dirty bytes have been written out (09 R218). -/
def State.dropFront (s : State) (q : Asker) (h : Home) (p : Pt) : State :=
  let s1 := s.dropSect q.core h
  if p == .home then s1.dropSect (l2Of (dieOf q.core)) h else s1

/-- `n` bytes of a sector's data from byte `i`. -/
def sliceData (d : BitVec 1024) (i n : Nat) : Nat := d.toNat / 256 ^ i % 256 ^ n

/-- A cache writes its dirty bytes one level out, and drops the copy where asked (05 R127). -/
def State.writeBack (s : State) (x : Sector) (drop : Bool) : State :=
  let s1 := if x.owner < 448 then s.outL1 x else s.outL2 x
  if drop then s1.dropCopy x else s1

/-- Write back (and drop) every sector a test selects, the L1s before the L2s. -/
def State.writeBackAll (s : State) (drop : Bool) (sel : Sector → Bool) : State :=
  let step (s : State) (l1 : Bool) : State :=
    (s.sectors.filter fun x => decide (x.owner < 448) == l1 && sel x).foldl (fun (s : State) x => s.writeBack x drop) s
  step (step s true) false

/-- Enter a translation through aliases in the remap filter; a full filter evicts its oldest entry, whose page the die
writes back (08 R197, R198). -/
def State.enterFilter (s : State) (die : Nat) (e : FilterEnt) : State :=
  let l := SMap.getD s.filters die []
  if l.contains e then s
  else if l.length < 8192 then { s with filters := SMap.set s.filters die (l ++ [e]) }
  else
    match l with
    | [] => s
    | o :: rest =>
      let s1 := s.writeBackAll false fun x => dieOfOwner x.owner == die && !x.pool && x.asid == o.casid && x.line * 128 / o.size == o.cpage
      { (s1.countDie die 7 1) with filters := SMap.set s1.filters die (rest ++ [e]) }

/-- What finding the place of an access answers. -/
inductive Found where
  | at (l : Loc)
  | miss (asid va : Nat)
  | fault (code data : Nat)
deriving DecidableEq, Repr

/-- An uncorrectable word of HBM lies in the bytes (20 R426). -/
def State.locBad (s : State) (l : Loc) (n : Nat) : Bool :=
  match l with
  | .sec h i => h.kind == 0 && s.badWords.any fun w => w.1 == 7 && decide (4 * w.2 < h.addr + i + n && h.addr + i < 4 * w.2 + 4)
  | _ => false

/-- The rights of a granary access (08 R183, 20 R424). -/
def State.granOk (s : State) (core asid a need : Nat) (bank : Bool) : Bool :=
  if a ≥ 0x01F00000 then
    let own := 0x01F00000 + 0x2000 * (core % 112) + 0x1000 * bank.toNat
    need % 4 < 2 || (own ≤ a && a < own + 0x1000)
  else
    (List.range 16).any fun e =>
      let w0 := s.barWord (barGran + 0x100 * dieOf core + 16 * e)
      let w1 := s.barWord (barGran + 0x100 * dieOf core + 16 * e + 8)
      let g := w0 + 2 ^ 64 * w1
      bit g 63 && fld g 32 16 == asid && fld g 0 9 ≤ a / 65536 && decide (a / 65536 < fld g 16 9) &&
        (need % 2 == 0 || bit g 48) && (need / 2 % 2 == 0 || bit g 49)

/-- The sharing grant of a record whose ASID is not the launch's (08 R201, 20 R423). -/
def State.sharedOk (s : State) (owner guest need : Nat) : Bool :=
  (List.range 64).any fun i =>
    let g := s.barWord (barGrant + 8 * i)
    bit g 63 && fld g 0 16 == owner && fld g 16 16 == guest && (need % 2 == 0 || bit g 32) && (need / 2 % 2 == 0 || bit g 33)

/-- The scratchpad key of a block's byte on a core. -/
def spdKey (block core off : Nat) : Nat := (block * 8 + posOf core) * 2 ^ 20 + off

/-- A gang of which the pool has heard nothing. -/
def Gang.absent (gid : Nat) : Gang :=
  { gid := gid, size := 0, pkgs := 0, blocks := 0, spd := 0, asked := [], firstAsk := 0, lastAsk := 0, turn := false, reserved := []
    arrived := [], attached := [], detached := [], departed := [] }

/-- The number of a launch's gang: gangs are told apart by GID and GPKGS (18 R370). -/
def LRec.gangKey (r : LRec) : Nat := r.gid * 64 + r.gpkgs

/-- A gang by its number. -/
def State.gangOf (s : State) (gid : Nat) : Gang := SMap.getD s.gangs gid (Gang.absent gid)

/-- Is a package lost to a gang: a rank of it departed (17 R357, 19 R406)? -/
def Gang.lost (g : Gang) (pkg : Nat) : Bool := g.owners.any fun o => o.2 == pkg && g.departed.any fun r => decide (0 < g.blocks) && r / g.blocks == o.1

/-- The scratchpad key of a MOOT address, or a peer's (19 R404, 18 R370). -/
def State.mootLoc (s : State) (launch addr : Nat) : Found :=
  let r := s.lrecOf launch
  let rank := addr / 2 ^ 20
  let n := r.gridx * r.gridy * r.gridz
  if (s.gangOf r.gangKey).departed.contains rank then .fault 0x2B rank
  else if rank / n == r.prank then
    match (s.blocks.map (·.2)).find? fun b => b.launch == launch && !b.isTask && b.index == rank % n with
    | some b => .at (.spd (spdKey b.id (b.cores.headD 0) (addr % 2 ^ 20)))
    | none => .at (.peer addr)
  else .at (.peer addr)

/-- The bank of a core that holds a block's waves (04 R105). -/
def Block.bankOn (b : Block) (core : Nat) : Bool := (((b.cores.zip b.banks).find? fun x => x.1 == core).map (·.2)).getD false

/-- Find the place of an access of `core`, of a block and launch, under an ASID (08 R176-R199; 19 R390, R404). -/
def State.find (s : State) (core launch block asid space addr need : Nat) : Found :=
  match space with
  | 2 => .at (.spd (spdKey block core addr))
  | 3 => .at (.spd ((block * 8 + addr / 2 ^ 20 % 8) * 2 ^ 20 + addr % 2 ^ 20))
  | 4 =>
    let bank := match SMap.get? s.blocks block with | some b => b.bankOn core | none => s.bankOf core
    if s.granOk core asid addr need bank then .at (.gran (dieOf core * 2 ^ 25 + addr)) else .fault 0x24 0
  | 6 => s.mootLoc launch addr
  | _ =>
    let pool := space == 5
    if asid ≠ (s.lrecOf launch).asid && !s.sharedOk asid (s.lrecOf launch).asid need then .fault 0x24 0
    else
      match s.xlateG pool (dieOf core) asid addr need with
      | .ok pa ca cv => .at (.sec (Home.of pool pa ca cv) (cv % 128))
      | .miss => .miss asid addr
      | .fault c => .fault c 0

/-- What finding answers for the path in focus: a miss that the pager rejected is the translation fault (08 R194). -/
def State.orDenied (s : State) (f : Found) : Found :=
  match f with
  | .miss a v => if s.deniedHere a v then .fault 0x23 0 else f
  | _ => f

/-- The translation an access used is cached, and aliases enter the filter (08 R195, R197). -/
def State.noteXlat (s : State) (core asid addr space : Nat) : State :=
  if space ≠ 0 && space ≠ 5 then s
  else
    let die := dieOf core
    let s1 := (s.countWalk die asid addr).tlbFill die asid addr
    match s1.tlbFind die asid addr with
    | some e =>
      if space = 0 && (e.casid ≠ asid || e.cva ≠ e.va) then
        s1.enterFilter die { asid := asid, page := e.va / e.size, size := e.size, casid := e.casid, cpage := e.cva / e.size }
      else s1
    | none => s1

/-- Presence granules a scratchpad range touches are all present (05 R121). -/
def State.presentAt (s : State) (key n : Nat) : Bool :=
  (List.range ((key % 128 + n + 127) / 128)).all fun i =>
    (SMap.get? s.absent (key / 2 ^ 20 * 8192 + key % 2 ^ 20 / 128 + i)).isNone

/-- The data of `n` bytes of a local memory. -/
def localRead (seed : Nat) (m : SMap Byte) (key n : Nat) : Nat :=
  ofBytes ((List.range n).map fun i => (undefByte seed m (key + i)).toNat)

/-- Write the masked bytes of a local memory. -/
def localWrite (m : SMap Byte) (key n x mask : Nat) : SMap Byte :=
  (List.range n).foldl (fun m i => if bit mask i then SMap.set m (key + i) (BitVec.ofNat 8 (x / 256 ^ i)) else m) m

/-- Is an access to a location strong, where it spans cores, and is it an atomic: the attributes that pick its place. -/
structure How where
  strong : Bool
  atomic : Bool
  scope : Nat
  multi : Bool
deriving DecidableEq, Repr

/-- The point an access is performed at. -/
def How.pt (w : How) (h : Home) : Pt := if w.atomic then ptAtomic h w.scope else ptOf h w.strong w.multi w.scope

/-- A line that a cache holds under the name of a page that has no translation any more stays valid until it is purged (08 R195): the
copy, for an access performed in the core's L1 or its die's L2, and under a grant where the L2 took the line under it (DEDUCED: log
10). -/
def State.heldLine (s : State) (w : How) (core asid va : Nat) (pool : Bool) : Option Found :=
  let h := Home.lost asid va pool
  let l2 := s.sect? (l2Of (dieOf core)) h
  let held : Bool := match w.pt h with
    | .l1 => (s.sect? core h).isSome || l2.isSome
    | .l2 => l2.isSome
    | .grant => l2.any (·.own)
    | .home => false
  if held then some (.at (.sec h (va % 128))) else none

/-- Find the place of an access, of a line still cached where its page has no translation any more (08 R195). -/
def State.findHeld (s : State) (w : How) (core launch block asid space addr need : Nat) : Found :=
  let f := s.find core launch block asid space addr need
  if space = 0 || space = 5 then
    match f with
    | .at _ => f
    | .fault 0x24 _ => f
    | _ => (s.heldLine w core asid addr (space == 5)).getD f
  else f

/-- Read `n` bytes of a location; the caches change as the access makes them: one performed beyond the L1 misses the copies in
front of its point, which are dropped, so that no later access of the thread reads an older store (09 R213, R218, R219). -/
def State.readLoc (s : State) (q : Asker) (w : How) (l : Loc) (n : Nat) : State × Nat :=
  match l with
  | .spd k => (s, localRead Config.seedSpd s.spd k n)
  | .gran k => (s.countGran q, localRead s.granSeed s.gran k n)
  | .peer k => (s.countFab (dieOf q.core) k, localRead Config.seedPeer s.peers k n)
  | .sec h i =>
    let p := w.pt h
    let s1 := s.bring q h p
    (if p == .l1 then s1 else s1.dropFront q h p, sliceData (s1.dataAt q h p) i n)

/-- A write over the 16 bytes of a byte barrier leaves every field of it undefined; they stay a barrier's, so that each further piece
of the same violation, or a later one, does so again (05 R151; DEDUCED: log 33). -/
def State.breakBarrier (s : State) (key : Nat) : State :=
  let d := s.draw
  { d.2 with
    spd := localWrite d.2.spd key 16 (ofWords ((List.range 4).map fun i => Config.freeWord d.1 i)) (2 ^ 16 - 1) }

/-- The byte barriers that a write of `n` bytes at a key changes. -/
def State.barriersIn (s : State) (key n mask : Nat) : List Nat :=
  s.barriers.filter fun b => (List.range n).any fun i => bit mask i && decide (b ≤ key + i && key + i < b + 16)

/-- The marks, among the conflicts an operation notes: that everything it writes is undefined, a race with it (09 R228); that the
boundary of the sequencer it holds up is undefined (10 R274); and, above `byteMark`, the scratchpad bytes written without order that
a step of a contraction may read. -/
abbrev raceMark : Nat := 2 ^ 60
abbrev boundMark : Nat := 2 ^ 60 + 1
abbrev byteMark : Nat := 2 ^ 61

/-- Is everything that the operation writes undefined? -/
def AOp.raced (o : AOp) : Bool := o.spoil.contains raceMark

/-- Contraction steps, which hold the array step by step (12 R292). -/
def OKind.steps : OKind → Bool
  | .ttstep => true
  | .ttrun => true
  | _ => false

/-- Operations of the sequencer's program and steps (10 R244). -/
def OKind.train : OKind → Bool
  | .ttprog => true
  | .ttbuf => true
  | .ttstep => true
  | .ttrun => true
  | _ => false

/-- Does an operation of the sequencer read no boundary: TTPROG and TTBUF? -/
def OKind.setsUp (k : OKind) : Bool := k.train && !k.steps

/-- The scratchpad bytes an operation reads, and the halves that only stand under it (10 R245, R274). -/
def AOp.ownSpans (o : AOp) : List (Nat × Nat) := if o.kind.setsUp then o.spans.take 1 else o.spans
def AOp.halfSpans (o : AOp) : List (Nat × Nat) := if o.kind.setsUp then o.spans.drop 1 else []

/-- The index table of a contraction: each INDEX step reads two bytes of a row (10 R270). -/
def AOp.indexSpan (o : AOp) : Nat × Nat :=
  if o.kind.steps then (spdKey o.block o.core ((o.args[1]?).getD 0).toNat, 32 * ((o.args[0]?).getD 0).toNat) else (0, 0)

/-- Do two ranges of keys share a byte? -/
def spansMeet (x y : Nat × Nat) : Bool := decide (max x.1 y.1 < min (x.1 + x.2) (y.1 + y.2))

/-- An operation in flight notes a write of `n` bytes at a key: over bytes it reads, over the boundary, or over index bytes that no
step has read yet (09 R228; 10 R245, R270, R274). -/
def AOp.noteWrite (o : AOp) (key n : Nat) : AOp :=
  if o.done then o
  else if o.ownSpans.any (spansMeet (key, n)) || (o.kind.steps && (List.range n).any fun i => o.read.contains (key + i)) then
    { o with spoil := raceMark :: o.spoil }
  else if o.halfSpans.any (spansMeet (key, n)) then { o with spoil := boundMark :: o.spoil }
  else if spansMeet (key, n) o.indexSpan then { o with spoil := (List.range n).map (byteMark + key + ·) ++ o.spoil }
  else o

/-- A write to scratchpad races with the engine operations in flight that read those bytes: their results are undefined (09 R228,
10 R245, 12 R286); `kept` tells the operations that are ordered with it. -/
def State.raceSpd (s : State) (key n : Nat) (kept : AOp → Bool := fun _ => false) : State :=
  if s.ops.all fun o => o.spans.isEmpty && !o.kind.steps then s
  else { s with ops := s.ops.map fun (o : AOp) => if kept o then o else o.noteWrite key n }

/-- Write bytes of scratchpad: operations in flight that read them race, and byte barriers among them are undefined (05 R151; 09
R228). -/
def State.putSpd (s : State) (k n x mask : Nat) (kept : AOp → Bool := fun _ => false) : State :=
  (s.barriersIn k n mask).foldl State.breakBarrier { s.raceSpd k n kept with spd := localWrite s.spd k n x mask }

/-- Write the bytes of a location that a mask of `n` bits names. -/
def State.writeLoc (s : State) (q : Asker) (w : How) (l : Loc) (n x mask : Nat) : State :=
  match l with
  | .spd k => s.putSpd k n x mask
  | .gran k => { (s.countGran q) with gran := localWrite s.gran k n x mask }
  | .peer k => { (s.countFab (dieOf q.core) k) with peers := localWrite s.peers k n x mask }
  | .sec h i =>
    let p := w.pt h
    let s1 := s.bring q h p
    let s2 := if w.atomic then s1.dropFront q h p else s1
    s2.putAt q h p (BitVec.ofNat 1024 (x * 256 ^ i)) (BitVec.ofNat 128 (mask % 2 ^ n * 2 ^ i))

/-- Does a sector belong to a launch: its ASID's, or touched by it through aliases (09 R220)? -/
def Sector.ofLaunch (x : Sector) (asid launch : Nat) : Bool := x.asid == asid || x.launch == launch

/-- The caches inside the point of a scope, for a core (09 R220). -/
def insidePt (core scope : Nat) (multi : Bool) (x : Sector) : Bool :=
  match scope with
  | 0 => false
  | 1 => multi && x.owner == core
  | 2 => x.owner == core
  | _ => x.owner == core || x.owner == l2Of (dieOf core)

/-- Is the sector in an L2 that holds its grant? -/
def State.granted (s : State) (x : Sector) : Bool :=
  decide (x.owner ≥ 448) && match s.homeOf (dieOfOwner x.owner) x with
    | some h => s.grantee { h with asid := x.asid, line := x.line } == some (dieOfOwner x.owner)
    | none => false

/-- Is the sector left alone by a release or acquire at a scope: held under a grant, but for host memory at GANG or SYSTEM scope,
whose point is the memory itself (09 R218, R220, R225)? -/
def State.exempt (s : State) (scope : Nat) (x : Sector) : Bool :=
  s.granted x && !(decide (scope ≥ 4) && match s.homeOf (dieOfOwner x.owner) x with | some h => h.kind == 1 | none => false)

/-- Does the sector hold bytes of host memory under a grant, at whichever die? -/
def State.hostGranted (s : State) (x : Sector) : Bool :=
  s.granted x && match s.homeOf (dieOfOwner x.owner) x with | some h => h.kind == 1 | none => false

/-- A release writes back the dirty sectors inside its point (09 R220). At GANG and SYSTEM scope the bytes of host memory that other
dies hold under grants go out too: stores made there may happen before the release (09 R212). -/
def State.releaseAt (s : State) (core launch scope : Nat) (multi : Bool) : State :=
  let asid := (s.lrecOf launch).asid
  let sel (s : State) (x : Sector) : Bool := insidePt core scope multi x && x.ofLaunch asid launch && !s.exempt scope x
  let s1 := (s.sectors.filter fun x => decide (x.owner < 448) && sel s x).foldl (fun (s : State) x => s.writeBack x false) s
  let s2 := (s1.sectors.filter fun x => decide (x.owner ≥ 448) && sel s1 x).foldl (fun (s : State) x => s.writeBack x false) s1
  (s2.sectors.filter fun x => decide (scope ≥ 4) && s2.hostGranted x).foldl (fun (s : State) x => s.writeBack x false) s2

/-- An acquire invalidates the sectors inside its point; dirty bytes are written back first (09 R220). -/
def State.acquireAt (s : State) (core launch scope : Nat) (multi : Bool) : State :=
  let asid := (s.lrecOf launch).asid
  let sel (s : State) (x : Sector) : Bool := insidePt core scope multi x && x.ofLaunch asid launch && !s.exempt scope x
  let s1 := (s.sectors.filter fun x => decide (x.owner < 448) && sel s x).foldl (fun (s : State) x => s.writeBack x true) s
  (s1.sectors.filter fun x => decide (x.owner ≥ 448) && sel s1 x).foldl (fun (s : State) x => s.writeBack x true) s1

/-- The place of `n` bytes of memory, where a release leaves order. -/
def Loc.place (l : Loc) (n : Nat) : Place3 :=
  match l with
  | .sec h i => (h.kind, h.addr + i, n)
  | .spd k => (3, k, n)
  | .gran k => (4, k, n)
  | .peer k => (5, k, n)

/-- Does the block span cores? -/
def State.multiOf (s : State) (block : Nat) : Bool :=
  match SMap.get? s.blocks block with
  | some b => decide (b.cores.length > 1)
  | none => false

/-- Bytes of scratchpad a wave's block holds; a task wave holds none (13 R319). -/
def State.spdOf (s : State) (block : Nat) : Nat :=
  match SMap.get? s.blocks block with
  | some b => if b.isTask then 0 else (s.lrecOf b.launch).spdbytes
  | none => 0

/-- The scope that acts, after the reach of the space (09 R208): SPD and CMN BLOCK, GRN DEVICE, MOOT GANG. -/
def reachScope (space scope : Nat) : Nat :=
  match space with
  | 2 => min scope 1
  | 3 => min scope 1
  | 4 => min scope 3
  | 6 => min scope 4
  | _ => scope

/-- Does the kind read memory? -/
def AKind.loads : AKind → Bool
  | .store _ => false
  | .recStore _ _ => false
  | .hstore => false
  | .fence _ => false
  | _ => true

/-- The accesses of the same thread listed before one (09 R206); those from before a fork precede both paths (02 R80). -/
def State.earlier (s : State) (b : Access) : List Access :=
  (s.accs.takeWhile fun a => a.id != b.id).filter fun a => a.uid == b.uid && (a.second == b.second || a.both || b.both)

/-- A fence is over once the accesses it orders have been performed (05 R126). -/
def State.fenceReady (s : State) (f : Access) (kind : Nat) : Bool :=
  (s.earlier f).all fun a =>
    match a.kind with
    | .fence _ => true
    | _ => a.pieces.all Piece.done || (kind == 1 && !a.kind.loads)

/-- The cache actions of a fence (09 R210, R220). -/
def State.fenceActs (s : State) (f : Access) (kind : Nat) : State :=
  let m := s.multiOf f.block
  let s1 := if kind = 1 then s else s.releaseAt f.core f.launch f.scope m
  if kind = 2 then s1
  else (s1.acquireAt f.core f.launch f.scope m).modOrder fun w => if f.scope = 0 then w else w.acqFence (threadNo f.uid f.second)

/-- Complete the fences that wait for nothing any more, in order. -/
def State.settleFences (s : State) : State :=
  s.accs.foldl (fun (s : State) (f : Access) =>
    match f.kind with
    | .fence k =>
      if s.fenceReady f k then { (s.fenceActs f k) with accs := s.accs.filter fun a => a.id != f.id } else s
    | _ => s) s

end Sys2Proof.Machine
end

