-- ==== Sys2Proof/Machine/Issue.lean ====
section
/-! DEFINITION. The start of a clause (01 R18-R23, R39, R434; 18 R375) and the checks of a slot at issue: the scoreboard, stops
for faults and misses, ALL in a fork, and poisoned registers (01 R24; 02 R48; 04 R101, R110). -/

namespace Sys2Proof.Machine

open Sys2Proof (Operand W32 W64 Byte Mask Fmt SMap SMap.get? SMap.set SMap.getD SMap.modify SMap.del)
open Sys2Proof (DecodeCtx slotFields opcodeOf fieldsOf)
open Sys2Proof.Config (dieOf partOf)

/-- The earliest-issued held fault of a batch (05 R144). -/
def State.batchFault (s : State) (uid n : Nat) : Option (TrapRec × Nat) :=
  match leastBy (fun (o : AOp) => [o.id]) ((s.batchOps uid n).filter fun o => o.fault.isSome && o.done) with
  | some o => o.fault.map fun r => (r, o.id)
  | none => none

/-- An observation takes a held fault: the operation is forgotten (05 R144). -/
def State.dropOp (s : State) (id : Nat) : State := { s with ops := s.ops.filter fun o => o.id != id }

/-- What stands in the way of the path's next clause. -/
inductive NextClause where
  | miss (asid va : Nat)
  | trap (r : TrapRec) (slot : Nat)
  | inputs
  | bwait
  | fault (r : TrapRec) (op : Nat) (batches : List Nat)
  | start (c : Clause) (slot : Nat)
deriving DecidableEq, Repr

/-- The trap of a clause start where no header stands: a task wave has branched to its target, to any other place the path has come
by sequential flow (01 R18, R31; 13 R321). -/
def State.noHeader (s : State) (pc : Nat) : TrapRec :=
  if s.cw.task.any fun t => t.target == pc then ⟨cBranchTarget, pc, 0, 0⟩ else plainRec cIllegalOpcode

/-- Fetch, decode and check the next clause of the path in focus (01 R18, R19, R23, R39, R434; 02 R63). Where BWAIT names several
batches that hold faults, the lowest-numbered batch's comes first (DESIGN CHOICE: log 20). -/
def State.nextClause (s : State) : NextClause :=
  let pc := s.cw.pa.pc
  match s.fetchWord s.cw.core s.lrec pc with
  | .bad why => .trap ⟨cFetch, pc, why, 0⟩ 16
  | .miss a v => .miss a v
  | .word h =>
    if opcodeOf h ≠ 0x1FF then .trap (s.noHeader pc) 16
    else
      let n := countOf h
      let cls := fld h 52 3
      match s.fetchWords n (pc + 8) [] with
      | (.bad why, _, off) => .trap ⟨cFetch, off, why, 0⟩ 16
      | (.miss a v, _, _) => .miss a v
      | (.word _, ws, _) =>
        if cls ≥ 6 || fld h 38 2 = 3 || fld h 0 38 ≠ 0 then .trap (plainRec cReservedField) 16
        else
          match s.decodeErr cls n 0 ws with
          | some (e, j) => .trap (plainRec (decodeCause e)) j
          | none =>
            let from_ := s.cw.pa.replay.getD 0
            let owed := s.owed s.cw.uid s.cw.second
            if (s.inputSet (ws.drop from_) []).any owed.contains then .inputs
            else
              let b := if s.cw.pa.replay.isSome then [] else bwaitSet (fld h 40 8)
              if b.any fun i => !s.batchDone s.cw.uid i then .bwait
              else
                match b.findSome? fun i => s.batchFault s.cw.uid i with
                | some (r, op) => .fault r op b
                | none => .start { off := pc, cls := cls, bwait := fld h 40 8, yld := fld h 38 2, words := ws, window := s.cw.wsize } from_

/-- The pipe of the next clause of a path: of the parked clause, or of the header it stands at (01 R21). DESIGN CHOICE: a header that
cannot be read, or whose CLASS is 6 or 7, goes to the compute pipe, where its trap is raised (log 20). -/
def State.wantsPipe (s : State) (w : Wave) (p : PathSt) : Nat :=
  match p.clause with
  | some c => pipeOf c.cls
  | none =>
    match s.fetchWord w.core (s.lrecOf w.launch) p.pc with
    | .word h => if opcodeOf h = 0x1FF && decide (fld h 52 3 < 6) then pipeOf (fld h 52 3) else 0
    | _ => 0

/-- A path that cannot start its next clause parks (01 R11, R19, R24; 04 R101; 18 R374); the path of an aborted launch ends at
its clause boundary (18 R366). -/
def State.prePark (s : State) (x : Wave × Bool) : State :=
  let p := x.1.path x.2
  if x.1.tm && !p.inTrap then s.parkPath x.1.uid x.2 .trapStop
  else if p.phase == .ready && s.abortedL x.1.launch then
    (s.updPath x.1.uid x.2 fun p => { p with phase := .ending, elig := false }).tryFinish x.1.uid
  else if !p.pend.isEmpty then s
  else if s.missing x.1.uid x.2 then s.parkPath x.1.uid x.2 .miss
  else if p.phase == .ready then
    match (s.focus x.1.uid x.2).nextClause with
    | .miss a v => (s.addMiss a v 2 x.1.core).parkPath x.1.uid x.2 (.fetch a v)
    | .inputs => s.parkPath x.1.uid x.2 .inputs
    | .bwait => s.parkPath x.1.uid x.2 .bwait
    | _ => s
  else s

/-- The paths that may start on a pipe: eligible, ready, with their class on it (18 R375). -/
def State.candidates (s : State) (core part pipe : Nat) : List (Wave × Bool) :=
  (s.partPaths core part).filter fun x =>
    let p := x.1.path x.2
    p.elig && p.wants && s.wantsPipe x.1 p == pipe

/-- The order of the pick of a pipe (18 R375). -/
def State.pickKey (s : State) (pipe : Nat) (x : Wave × Bool) : List Nat :=
  let p := x.1.path x.2
  [if (p.skip[pipe]?).getD 0 ≥ 8 then 0 else 1, 3 - s.prioOf x.1.launch, x.1.startAt, x.2.toNat, x.1.slot]

/-- Is the pipe held by a clause (01 R21)? -/
def State.pipeHeld (s : State) (core part pipe : Nat) : Bool :=
  (s.partPaths core part).any fun x =>
    let p := x.1.path x.2
    p.phase == .issuing && (match p.clause with | some c => pipeOf c.cls == pipe | none => pipe == 0)

/-- The picked path's counters (18 R375). -/
def PathSt.picked (p : PathSt) (pipe : Nat) : PathSt :=
  { p with skip := p.skip.set pipe 0, starts := p.starts + 1, defer := none }

/-- The observation of a batch by the wave in focus is an acquire at the completion scopes of its operations (09 R225). -/
def State.observeBatch (s : State) (n : Nat) : State :=
  let s := s.modOrder (Written.observe s.cw.uid n s.thread)
  match SMap.get? s.cw.batchScope n with
  | none => s
  | some sc =>
    (s.acquireAt s.cw.core s.cw.launch sc (s.multiOf s.cw.block)).onWave fun w => { w with batchScope := SMap.del w.batchScope n }

/-- Start the path in focus: its fault, its trap, or its clause's first slot (01 R19, R39; 04 R101; 09 R225). -/
def State.startPath (s : State) : State :=
  match s.cw.pa.pend with
  | r :: rest =>
    let s1 := ((s.onPa fun p => { p with pend := rest }).dropHeld s.cw.uid s.cw.second).settleFences
    s1.trap r s.cw.pa.here (if s.cw.pa.clause.isSome then s.cw.pa.slot else s.cw.pa.replay.getD 16)
  | [] =>
    if s.cw.pa.phase == .resume then s.onPa fun p => { p with phase := .issuing }
    else
      match s.nextClause with
      | .trap r k => (s.noteFetchFault r).trap r s.cw.pa.pc k
      | .fault r op b => (b.foldl State.observeBatch (s.dropOp op)).trap r s.cw.pa.pc 16
      | .start c k =>
        let s0 := if s.cw.pa.replay.isSome then s else (bwaitSet c.bwait).foldl State.observeBatch s
        let s1 := (List.range (c.words.length + 1)).foldl
          (fun (s : State) j => s.noteFetch (c.off + 8 * j) (j == 0)) s0
        (s1.countCore s.cw.core 3 (partOf s.cw.slot) 1).onPa fun p =>
          { p with clause := some c, slot := k, phase := .issuing, replay := none, waited := false, held := none }
      | _ => s

/-- Start the path in focus; path 1 takes the trap held for it first (04 R104). -/
def State.startFocus (s : State) : State :=
  match s.cw.heldTrap with
  | some (r, c, k) =>
    if s.cw.second && !s.cw.tm then (s.onWave fun w => { w with heldTrap := none }).trap r c k else s.startPath
  | none => s.startPath

/-- The candidates of a pipe once those that may not start have parked (01 R23, 18 R374, R375); `fuel` bounds the paths that
enter in their places. -/
def State.parkStarters (s : State) (core part pipe : Nat) : Nat → State
  | 0 => s
  | fuel + 1 =>
    let cand := s.candidates core part pipe
    let s1 := cand.foldl (fun (s : State) x => s.prePark x) s
    if (s1.candidates core part pipe).all fun x => cand.any fun y => y.1.uid == x.1.uid && y.2 == x.2 then s1
    else s1.parkStarters core part pipe fuel

/-- One selection of a pipe (18 R375); no clause starts on a core whose banks are about to exchange (04 R106). -/
def State.clauseStart (s : State) (core part pipe : Nat) : State :=
  if s.pipeHeld core part pipe || s.swapping core then s
  else
    let s1 := s.parkStarters core part pipe 24
    let cand := s1.candidates core part pipe
    let free := cand.filter fun x => (x.1.path x.2).defer != some pipe
    let cand := if free.isEmpty then cand else free
    match leastBy (s1.pickKey pipe) cand with
    | none => s1
    | some x =>
      let s2 := cand.foldl (fun (s : State) y => s.updPath y.1.uid y.2 fun p => { p with skip := p.skip.modify pipe (· + 1) }) s1
      ((s2.updPath x.1.uid x.2 fun p => p.picked pipe).focus x.1.uid x.2).startFocus

/-- The bytes of a register that a reading position depends on (04 R110): a narrow store's low bytes, the half or element a
conversion selects, the low byte PUNPK takes; VPK passes SRCB through. -/
def usedBytes (op : Nat) (f : Fmt) (i : Nat) (slots : List Nat) : List Nat :=
  match f with
  | .r f =>
    if op = 0xCF then
      (if f.sub.val = 5 || f.sub.val = 8 then [0, 1] else if f.sub.val = 6 || f.sub.val = 9 then [2, 3] else [0, 1, 2, 3])
    else if op = 0xEF then
      let bits := encBits (fld ((slots[f.fslot.val]?).getD 0) 0 6)
      let k := f.sub.val % 8
      [if bits = 4 then k / 2 else k]
    else if op = 0xEE && i = 1 then []
    else if op = 0x65 then [0]
    else [0, 1, 2, 3]
  | .m _ => if i = 0 && op = 0x107 then [0] else if i = 0 && op = 0x108 then [0, 1] else [0, 1, 2, 3]
  | _ => [0, 1, 2, 3]

/-- ALL of an instruction (01 R26, 02 R82). -/
def allOf (op : Nat) (f : Fmt) : Bool :=
  match f with
  | .r f => f.all
  | .m f => 0x10E ≤ op && op ≤ 0x113 && f.cache.val % 2 == 1
  | _ => false

/-- The lane of SRCA an active lane reads, for the lane moves (02 R64, R65). -/
def State.laneRead (s : State) (op : Nat) (f : Fmt) (l : Nat) : Nat :=
  match f with
  | .r f =>
    if op = 0x93 || op = 0x94 then (s.rdL f.b l).toNat % 32
    else if op = 0x95 then shflLane f.sub.val l (s.rdL f.b l).toNat
    else l
  | .i f => if op = 0xAE then f.imm.toNat % 32 else if op = 0xAF then shflLane f.subh.val l f.imm.toNat else l
  | _ => l

/-- The lanes of reading position `i` and the lane of its register each one depends on: a lane move's SRCA is read in the source
lane, VLANE's in the one lane it names, whatever the mask; every other position in the active lane itself (02 R64, R65). -/
def State.lanesRead (s : State) (op : Nat) (f : Fmt) (i : Nat) (act : List Nat) : List (Nat × Nat) :=
  if i ≠ 0 then act.map fun l => (l, l)
  else if op = 0x94 || op = 0xAE then [(s.laneRead op f 0, s.laneRead op f 0)]
  else act.map fun l => (l, s.laneRead op f l)

/-- The poison that the reading position `i` consumes: the register's field and the consuming lanes, none for a scalar operand,
which leaves TLANES at 0 (DESIGN CHOICE: log 23). -/
def State.poisonAt (s : State) (op : Nat) (f : Fmt) (i : Nat) (p : Pos) : List (Nat × List Nat) :=
  let bytes := usedBytes op f i s.lrec.slots
  let act := s.active (allOf op f)
  (List.range p.n).filterMap fun k =>
    match (s.regsOf p.op p.n)[k]? with
    | some (Cls.v, r) =>
      let ls := ((s.lanesRead op f i act).filter fun l =>
        s.cw.poison.any fun q => q.cls == 0 && q.reg == r && q.lane == l.2 && bytes.contains q.byte).map (·.1)
      if ls.isEmpty then none else some (toField p.op + k, ls)
    | some (Cls.p, r) =>
      let ls := act.filter fun l => s.cw.poison.any fun q => q.cls == poisonP && q.reg == r && q.byte == l / 8
      if ls.isEmpty then none else some (toField p.op + k, ls)
    | some (cl, r) =>
      let code := if cl == Cls.s then 1 else 2
      if (cl == Cls.s || cl == Cls.e) && s.cw.poison.any fun q => q.cls == code && q.reg == r then some (toField p.op + k, []) else none
    | none => none

/-- Does an instruction depend on the execution mask: it acts on active lanes, tests the mask, or moves it on (01 R30; 02 R78-R81)?
VLANE reads the lane it names whatever the mask. -/
def usesMask (op : Nat) (f : Fmt) (k : Chk) : Bool :=
  !allOf op f && op != 0x94 && op != 0xAE &&
    ([0x56, 0x57, 0x60, 0x61].contains op || (match f with | .b f => decide (5 ≤ f.cc.val) | _ => false) ||
      k.pos.any fun p => clsOf p.op == .v || clsOf p.op == .w || clsOf p.op == .p)

/-- The masks of the path in focus that an instruction depends on, by the stack entries under each: the topmost; PINV and JOIN also
the one below, FORK all. -/
def State.masksUsed (s : State) (op : Nat) (f : Fmt) (k : Chk) : List Nat :=
  let d := s.cw.pa.depth
  if !usesMask op f k then [] else if op = 0x56 then List.range (d + 1) else if op = 0x61 || op = 0x57 then [d, d - 1] else [d]

/-- Does a result depend on WSR.RM, FTZ or WPK (02 R60): floating-point and spectral instructions, VCVT, accesses through records,
copies, tile moves and drains? -/
def usesMode (op : Nat) (f : Fmt) : Bool :=
  match f with
  | .m f => decide (0x100 ≤ op) && decide (op ≤ 0x10B) && f.rcd.val != 255
  | .a _ => [0x136, 0x137, 0x141, 0x142, 0x143, 0x14A, 0x14B].contains op
  | _ => op = 0xB2 || op = 0xB3 || (0xC0 ≤ op && op ≤ 0xEF) || op = 0x150 || (0x190 ≤ op && op ≤ 0x1A5)

/-- The system registers that an instruction's result depends on (02 R62, R63). -/
def sysUsed (op : Nat) (f : Fmt) : List Nat :=
  match op, f with
  | 0x1E0, .r f => [idxOf f.a]
  | 0x1E6, _ => [2, 3]
  | _, _ => []

/-- The poison outside the register operands that an instruction consumes, with the consuming lanes (04 R105, R109, R110): TDATA
holds the field of an MFSR, else 0, since no operand names the byte (DESIGN CHOICE: log 23). -/
def State.contextPoison (s : State) (op : Nat) (f : Fmt) (k : Chk) : List (Nat × List Nat) :=
  let me := s.cw.second.toNat
  let vector := k.pos.any fun p => clsOf p.op == .v
  let sys := sysUsed op f
  s.cw.poison.filterMap fun q =>
    if q.cls = poisonMask && q.reg = me && (s.masksUsed op f k).contains q.lane then some (0, (List.range 8).map (8 * q.byte + ·))
    else if q.cls = poisonSys && sys.contains q.reg && q.lane = (if q.reg < 0x10 then 0 else me) then some (sys.headD 0, [])
    else if q.cls = poisonSys && q.reg = 0 && q.byte = 0 && usesMode op f then some (0, if usesMask op f k then s.active false else [])
    else if q.cls = poisonPc && q.reg = me then some (0, [])
    else if q.cls = poisonWindow && (vector || op = 0x52 || op = 0x53 || sys.contains 0x19) then
      some (sys.headD 0, if vector then s.active (allOf op f) else [])
    else if q.cls = poisonLink && op = 0x53 && q.reg + 1 = s.cw.links.length then some (0, [])
    else none

/-- The uncorrectable register error of an instruction that consumes poison (04 R110, R437). DESIGN CHOICE: of several registers that
one lane consumes TDATA names the one the first reading position holds, and a scalar ranks as lane 0 (log 23). -/
def State.poisonTrap (s : State) (op : Nat) (f : Fmt) (k : Chk) : Option TrapRec :=
  if s.cw.poison.isEmpty then none
  else
    let hits := ((k.reads.zipIdx).flatMap fun x => s.poisonAt op f x.2 x.1) ++ s.contextPoison op f k
    match leastBy (fun (h : Nat × List Nat) => [h.2.headD 0]) hits with
    | none => none
    | some h => some ⟨cRegError, 0, h.1, maskOfList (hits.flatMap (·.2))⟩

/-- What issue makes of the slot in progress. -/
inductive Issue where
  /-- nothing was executed: the path trapped, parked or stopped -/
  | stop (s : State)
  /-- the instruction executes -/
  | run (op : Nat) (f : Fmt) (s : State)

/-- The slot in progress of the path in focus, up to execution (01 R24; 02 R48; 04 R101, R110); its word was decoded under the window
of the clause's start (01 R39, R40). -/
def State.issueCheck (s : State) : Issue :=
  match s.cw.pa.clause with
  | none => .stop s
  | some c =>
    match c.words[s.cw.pa.slot]? with
    | none => .stop s
    | some w =>
      if s.cw.pa.phase != .issuing then .stop s
      else if s.cw.tm && !s.cw.pa.inTrap then .stop (s.park .trapStop)
      else if !s.cw.pa.pend.isEmpty then .stop s.startFocus
      else if s.missing s.cw.uid s.cw.second then .stop (s.park .miss)
      else
        match slotFields { s.decodeCtx c.cls s.cw.pa.lastSlot with window := c.window } w with
        | .error e => .stop (s.trapHere (plainRec (decodeCause e)))
        | .ok f =>
          let op := opcodeOf w
          let k := chkFmt op f
          if (s.posRegs (k.reads ++ k.writes)).any (s.owed s.cw.uid s.cw.second).contains then .stop (s.park .owed)
          else if allOf op f && s.cw.forked && !s.cw.tm then .stop (s.trapHere (plainRec cAllInFork))
          else
            match s.poisonTrap op f k with
            | some r => .stop (s.trapHere r)
            | none => .run op f (s.countCore s.cw.core 2 (partOf s.cw.slot) 1)

end Sys2Proof.Machine
end

