-- ==== Sys2Proof/Machine/Lane.lean ====
section
/-! DEFINITION. The lane integer instructions (02 R64-R68). -/

namespace Sys2Proof.Machine

open Sys2Proof (Operand RF IF W32 W64 Mask)

/-- Write a value to each active lane of a vector register and go on; every value is computed from the state before. -/
def laneRes (s : State) (d : Operand) (all : Bool) (g : Nat → W32) : Res := .next (s.wrLanes d (s.active all) g).slotDone

/-- The same for a pair of vector registers (02 R67). -/
def laneRes64 (s : State) (d : Operand) (all : Bool) (g : Nat → W64) : Res := .next (s.wrLanes64 d (s.active all) g).slotDone

/-- Set the flag of each active lane and go on. -/
def flagRes (s : State) (d : Operand) (all : Bool) (g : Nat → Bool) : Res := .next (s.wrFlags d (s.active all) g).slotDone

/-- The combination of the lanes listed (02 R66). -/
def redVal (op : Nat) (a : Nat → W32) (ls : List Nat) : W32 := ls.foldl (fun acc l => redOp op acc (a l)) (redId op)

/-- The lanes a prefix at lane l takes in (02 R66). -/
def prefixLanes (ls : List Nat) (excl : Bool) (l : Nat) : List Nat := ls.filter fun k => if excl then k < l else k ≤ l

/-- VADD (02 R64). -/
def execVadd (f : RF) (s : State) : Res := laneRes s f.dst f.all fun l => addSat (f.mod.val % 2 == 1) (f.sub.val % 2 == 1) false (s.rdL f.a l) (s.rdL f.b l)

/-- VSUB (02 R64). -/
def execVsub (f : RF) (s : State) : Res := laneRes s f.dst f.all fun l => addSat (f.mod.val % 2 == 1) (f.sub.val % 2 == 1) true (s.rdL f.a l) (s.rdL f.b l)

/-- VMUL (02 R64). -/
def execVmul (f : RF) (s : State) : Res := laneRes s f.dst f.all fun l => s.rdL f.a l * s.rdL f.b l

/-- VMULH (02 R64). -/
def execVmulh (f : RF) (s : State) : Res := laneRes s f.dst f.all fun l => if f.sub.val = 1 then mulhs (s.rdL f.a l) (s.rdL f.b l) else mulhu (s.rdL f.a l) (s.rdL f.b l)

/-- VMAD (02 R64). -/
def execVmad (f : RF) (s : State) : Res := laneRes s f.dst f.all fun l => s.rdL f.a l * s.rdL f.b l + s.rdL f.c l

/-- VMIN (02 R64). -/
def execVmin (f : RF) (s : State) : Res := laneRes s f.dst f.all fun l => minW (f.sub.val == 1) (s.rdL f.a l) (s.rdL f.b l)

/-- VMAX (02 R64). -/
def execVmax (f : RF) (s : State) : Res := laneRes s f.dst f.all fun l => maxW (f.sub.val == 1) (s.rdL f.a l) (s.rdL f.b l)

/-- VAND (02 R64). -/
def execVand (f : RF) (s : State) : Res := laneRes s f.dst f.all fun l => s.rdL f.a l &&& s.rdL f.b l

/-- VOR (02 R64). -/
def execVor (f : RF) (s : State) : Res := laneRes s f.dst f.all fun l => s.rdL f.a l ||| s.rdL f.b l

/-- VXOR (02 R64). -/
def execVxor (f : RF) (s : State) : Res := laneRes s f.dst f.all fun l => s.rdL f.a l ^^^ s.rdL f.b l

/-- VNOT (02 R64). -/
def execVnot (f : RF) (s : State) : Res := laneRes s f.dst f.all fun l => ~~~(s.rdL f.a l)

/-- VSHL (02 R64). -/
def execVshl (f : RF) (s : State) : Res := laneRes s f.dst f.all fun l => shlW (s.rdL f.a l) (s.rdL f.b l).toNat

/-- VSHR (02 R64). -/
def execVshr (f : RF) (s : State) : Res := laneRes s f.dst f.all fun l => shrW (s.rdL f.a l) (s.rdL f.b l).toNat

/-- VSRA (02 R64). -/
def execVsra (f : RF) (s : State) : Res := laneRes s f.dst f.all fun l => sraW (s.rdL f.a l) (s.rdL f.b l).toNat

/-- VCLZ (02 R64). -/
def execVclz (f : RF) (s : State) : Res := laneRes s f.dst f.all fun l => clzW (s.rdL f.a l)

/-- VPOPC (02 R64). -/
def execVpopc (f : RF) (s : State) : Res := laneRes s f.dst f.all fun l => popcW (s.rdL f.a l)

/-- VCMP: the lane's flag (02 R64, R51). -/
def execVcmp (f : RF) (s : State) : Res := flagRes s f.dst f.all fun l => icond f.sub.val (s.rdL f.a l) (s.rdL f.b l)

/-- VSEL (02 R64). -/
def execVsel (f : RF) (s : State) : Res := laneRes s f.dst f.all fun l => if s.flag f.c l then s.rdL f.a l else s.rdL f.b l

/-- VMOV (02 R64). -/
def execVmov (f : RF) (s : State) : Res := laneRes s f.dst f.all fun l => s.rdL f.a l

/-- VBCST: one lane of SRCA, active or not (02 R64, R65). -/
def execVbcst (f : RF) (s : State) : Res := laneRes s f.dst f.all fun l => s.rdL f.a ((s.rdL f.b l).toNat % 32)

/-- VLANE: one lane of SRCA, active or not, to a scalar, whatever the mask (02 R64, R65). -/
def execVlane (f : RF) (s : State) : Res := .next (s.wrS f.dst (s.rdL f.a ((s.rdS f.b).toNat % 32))).slotDone

/-- VSHFL (02 R65). -/
def execVshfl (f : RF) (s : State) : Res := laneRes s f.dst f.all fun l => s.rdL f.a (shflLane f.sub.val l (s.rdL f.b l).toNat)

/-- VRED: a reduction over the active lanes to a scalar (02 R66). -/
def execVred (f : RF) (s : State) : Res :=
  .next (s.wrS f.dst (redVal (f.sub.val % 8) (s.rdL f.a) (s.active f.all))).slotDone

/-- VSCAN: a prefix over the active lanes (02 R66). -/
def execVscan (f : RF) (s : State) : Res :=
  laneRes s f.dst f.all fun l => redVal (f.sub.val % 8) (s.rdL f.a) (prefixLanes (s.active f.all) (f.sub.val / 8 % 2 == 1) l)

/-- VADD (I) (02 R68). -/
def execVaddI (f : IF) (s : State) : Res := laneRes s f.dst false fun l => s.rdL f.a l + f.imm

/-- VSUB (I) (02 R68). -/
def execVsubI (f : IF) (s : State) : Res := laneRes s f.dst false fun l => s.rdL f.a l - f.imm

/-- VMUL (I) (02 R68). -/
def execVmulI (f : IF) (s : State) : Res := laneRes s f.dst false fun l => s.rdL f.a l * f.imm

/-- VMIN (I) (02 R68). -/
def execVminI (f : IF) (s : State) : Res := laneRes s f.dst false fun l => minW (f.subh.val % 2 == 1) (s.rdL f.a l) f.imm

/-- VMAX (I) (02 R68). -/
def execVmaxI (f : IF) (s : State) : Res := laneRes s f.dst false fun l => maxW (f.subh.val % 2 == 1) (s.rdL f.a l) f.imm

/-- VAND (I) (02 R68). -/
def execVandI (f : IF) (s : State) : Res := laneRes s f.dst false fun l => s.rdL f.a l &&& f.imm

/-- VOR (I) (02 R68). -/
def execVorI (f : IF) (s : State) : Res := laneRes s f.dst false fun l => s.rdL f.a l ||| f.imm

/-- VXOR (I) (02 R68). -/
def execVxorI (f : IF) (s : State) : Res := laneRes s f.dst false fun l => s.rdL f.a l ^^^ f.imm

/-- VSHL (I) (02 R68). -/
def execVshlI (f : IF) (s : State) : Res := laneRes s f.dst false fun l => shlW (s.rdL f.a l) f.imm.toNat

/-- VSHR (I) (02 R68). -/
def execVshrI (f : IF) (s : State) : Res := laneRes s f.dst false fun l => shrW (s.rdL f.a l) f.imm.toNat

/-- VSRA (I) (02 R68). -/
def execVsraI (f : IF) (s : State) : Res := laneRes s f.dst false fun l => sraW (s.rdL f.a l) f.imm.toNat

/-- VCMP (I) (02 R68). -/
def execVcmpI (f : IF) (s : State) : Res := flagRes s f.dst false fun l => icond f.subh.val (s.rdL f.a l) f.imm

/-- VSEL: SUBH names the flags (I) (02 R68). -/
def execVselI (f : IF) (s : State) : Res := laneRes s f.dst false fun l => if s.flag (.p f.subh) l then s.rdL f.a l else f.imm

/-- VMOV (I) (02 R68). -/
def execVmovI (f : IF) (s : State) : Res := laneRes s f.dst false fun _ => f.imm

/-- VLANE (I) (02 R68). -/
def execVlaneI (f : IF) (s : State) : Res := .next (s.wrS f.dst (s.rdL f.a (f.imm.toNat % 32))).slotDone

/-- VSHFL (I) (02 R68). -/
def execVshflI (f : IF) (s : State) : Res := laneRes s f.dst false fun l => s.rdL f.a (shflLane f.subh.val l f.imm.toNat)

/-- VADD.64 (02 R67). -/
def execVadd64 (f : RF) (s : State) : Res := laneRes64 s f.dst f.all fun l => s.rd64L f.a l + s.rd64L f.b l

/-- VSHL.64 (02 R67). -/
def execVshl64 (f : RF) (s : State) : Res := laneRes64 s f.dst f.all fun l => shlW (s.rd64L f.a l) (s.rdL f.b l).toNat

end Sys2Proof.Machine
end

