-- ==== Sys2Proof/Machine/Slice.lean ====
section
/-! DEFINITION. Lane-private slices and the spill engine (03 R84, R85; 04 R95-R97; 08 R178-R180). -/

namespace Sys2Proof.Machine

open Sys2Proof (Operand W32 W64 Byte Mask SMap SMap.get? SMap.set SMap.getD SMap.modify SMap.del)
open Sys2Proof.Config (dieOf)

/-- Bytes of a lane's slice, L (08 R178). -/
def LRec.sliceLen (r : LRec) : Nat := r.privbytes + 512 + r.spillbytes

/-- Waves of a block of the grid, N (04 R90). -/
def LRec.waves (r : LRec) : Nat := (r.threads + 31) / 32

/-- The slice group g of a wave (08 R178, R180). -/
def State.sliceGroup (s : State) (w : Wave) : Nat :=
  let r := s.lrecOf w.launch
  match w.task with
  | some t => r.gridx * r.gridy * r.gridz * r.waves + 96 * w.core + t.sliceNo
  | none =>
    match SMap.get? s.blocks w.block with
    | some b => b.index * b.nwaves + w.widx
    | none => 0

/-- The device virtual address of byte y of a lane's slice (08 R178); bits [63:56] are ignored. -/
def State.sliceAddr (s : State) (w : Wave) (y l : Nat) : Nat :=
  let r := s.lrecOf w.launch
  (r.prvbase + 32 * r.sliceLen * s.sliceGroup w + 512 * (y / 16) + 16 * l + y % 16) % 2 ^ 56

/-- Every byte of a starting wave's slice is undefined until it is written: no lane has stored it (02 R83, 03 R84, 04 R90, 08 R180).
A page that is mapped after the start, against 08 R179, holds what it holds (log 1). -/
def State.newSlice (s : State) (w : Wave) : State :=
  let r := s.lrecOf w.launch
  s.undefVa r.asid (s.sliceAddr w 0 0) (32 * r.sliceLen) 0

/-- Sizes of the caller windows that are still resident, oldest first (04 R95). -/
def Wave.residentCallers (w : Wave) : List Nat := ((w.links.take (w.links.length - w.spills.length)).map (·.1)).reverse

/-- The resident span (04 R95). -/
def Wave.span (w : Wave) : Nat := w.wsize + (w.residentCallers.map (· - 8)).foldl (· + ·) 0

/-- Registers of the segments spilled so far that the spill area holds, per lane in bytes (03 R84). -/
def Wave.spillUsed (w : Wave) : Nat := (w.spills.map fun x => 4 * x.regs).foldl (· + ·) 0

/-- The segments a call must spill, oldest first: window sizes taken until the span fits (03 R84). -/
def segmentsFor : List Nat → Nat → Nat → List Nat
  | [], _, _ => []
  | w :: ws, span, room => if span ≤ room then [] else w :: segmentsFor ws (span - (w - 8)) room

/-- The lowest physical register of the oldest resident window (04 R95). -/
def Wave.oldestBase (w : Wave) (stack : Nat) : Nat := (w.wbase + stack * 256 - (w.residentCallers.map (· - 8)).foldl (· + ·) 0) % stack

/-- What a spill access finds: nothing wrong, a page miss, or faulting lanes with the lowest one's code and address. -/
inductive SpillCheck where
  | ok
  | miss (asid va : Nat)
  | fault (code addr : Nat) (lanes : List Nat)

/-- Check the accesses of the spill engine to bytes [off, off + 4n) of each lane's spill area (08 R179). -/
def State.spillCheck (s : State) (off n need : Nat) : SpillCheck :=
  let r := s.lrec
  let at_ (l k : Nat) : Nat := s.sliceAddr s.cw (r.privbytes + 512 + off + 4 * k) l
  let look (l : Nat) : Option (Nat × Xlat) :=
    (List.range n).findSome? fun k =>
      match s.xlateHere (dieOf s.cw.core) r.asid (at_ l k) need with
      | .ok _ _ _ => none
      | x => some (at_ l k, x)
  let bad := allLanes.filterMap fun l => (look l).map fun x => (l, x)
  match bad.find? fun x => x.2.2 == .miss with
  | some x => .miss r.asid x.2.1
  | none =>
    match bad with
    | [] => .ok
    | (_, (a, .fault c)) :: _ => .fault c a (bad.map (·.1))
    | _ => .ok

/-- Write a 4-byte word of a slice at its home (08 R178); an alias it goes through enters the filter (08 R197). -/
def State.sliceWrite (s : State) (y l : Nat) (x : W32) : State :=
  let va := s.sliceAddr s.cw y l
  match s.xlate (dieOf s.cw.core) s.lrec.asid va needWR with
  | .ok pa _ cva =>
    (List.range 4).foldl (fun (s : State) i => s.homePut (bit cva 55) (pa + i) (BitVec.ofNat 8 (x.toNat / 256 ^ i)))
      (s.noteXlat s.cw.core s.lrec.asid va 0)
  | _ => s

/-- Read a 4-byte word of a slice from its home; undefined where it is not mapped (08 R179). -/
def State.sliceRead (s : State) (y l seed : Nat) : W32 :=
  let va := s.sliceAddr s.cw y l
  match s.xlate (dieOf s.cw.core) s.lrec.asid va needRD with
  | .ok pa _ cva => BitVec.ofNat 32 (ofBytes ((List.range 4).map fun i => (s.homeByte (bit cva 55) (pa + i)).toNat))
  | _ => Config.freeWord seed (y * 32 + l)

/-- Spill one segment of `n` registers from physical register `base` (03 R84). -/
def State.spillSegment (s : State) (base n : Nat) : State :=
  let off := s.cw.spillUsed
  let S := s.stackRegs
  let y0 := s.lrec.privbytes + 512 + off
  let s1 := (List.range n).foldl (fun (s : State) k =>
    allLanes.foldl (fun (s : State) l => s.sliceWrite (y0 + 4 * k) l (s.cw.vphys ((base + k) % S) l)) s) s
  let po := (s.cw.poison.filter fun p => p.cls == 0 && (List.range n).any fun k => (base + k) % S == p.reg)
  s1.onWave fun w => { w with spills := w.spills ++ [{ off := off, regs := n, poison := po }] }

/-- The bytes that the spill engine wrote for a CALL whose spill faulted are undefined (08 R179). -/
def State.spillUndef (s : State) (off n : Nat) : State :=
  let d := s.draw
  (List.range n).foldl (fun (t : State) k =>
    allLanes.foldl (fun (t : State) l =>
      t.sliceWrite (s.lrec.privbytes + 512 + off + 4 * k) l (Config.freeWord d.1 (32 * k + l))) t) d.2

/-- Spill the segments of a call (03 R84). -/
def State.spillAll (s : State) : Nat → List Nat → State
  | _, [] => s
  | base, w :: ws => (s.spillSegment base (w - 8)).spillAll ((base + w - 8) % s.stackRegs) ws

/-- Refill the segment spilled last into physical registers from `base` (03 R84, 04 R97). -/
def State.refillSegment (s : State) (base : Nat) : State :=
  match s.cw.spills.getLast? with
  | none => s
  | some sp =>
    let S := s.stackRegs
    let d := s.draw
    let y0 := s.lrec.privbytes + 512 + sp.off
    let s1 := (List.range sp.regs).foldl (fun (t : State) k =>
      allLanes.foldl (fun (t : State) l =>
        (t.noteXlat s.cw.core s.lrec.asid (s.sliceAddr s.cw (y0 + 4 * k) l) 0).onWave fun w =>
          w.setV ((base + k) % S) l (s.sliceRead (y0 + 4 * k) l d.1)) t) d.2
    s1.onWave fun w => { w with spills := w.spills.dropLast, poison := w.poison ++ sp.poison.filter fun p => !w.poison.contains p }

end Sys2Proof.Machine
end

