-- ==== Sys2Proof/Machine/Control.lean ====
section
/-! DEFINITION. Branches, calls, FORK and JOIN, the end of a path, and the predicate instructions (02 R55-R58, R78-R81). -/

namespace Sys2Proof.Machine

open Sys2Proof (Operand RF BF W32 W64 Byte Mask SMap SMap.get? SMap.set SMap.getD SMap.modify SMap.del)
open Sys2Proof.Config (dieOf)

/-- Target of a direct branch: the header's offset plus 8 × OFF32, modulo 2^32 (01 R31). -/
def State.directTarget (s : State) (off : W32) : Nat := (s.cw.pa.here + 8 * off.toNat) % 2 ^ 32

/-- BR (02 R55). -/
def execBr (f : BF) (s : State) : Res := .next (s.branch (s.directTarget f.off))

/-- BRC: sequential flow where the condition fails (02 R55, 01 R30). -/
def execBrc (f : BF) (s : State) : Res :=
  .next (if branchCond f.cc.val (s.rdS f.cond) s.execMask then s.branch (s.directTarget f.off) else s.slotDone)

/-- BRI (02 R55). -/
def execBri (f : BF) (s : State) : Res := .next (s.branch (s.rdS f.cond).toNat)

/-- The window, link and PC after a call with room (02 R57). -/
def State.enterWindow (s : State) (w target : Nat) : State :=
  let S := s.stackRegs
  let old := s.cw.wsize
  let base := (s.cw.wbase + old - 8) % S
  let d := s.draw
  let fresh := (List.range (w - 8)).map fun k => (base + 8 + k) % S
  let s1 := d.2.onWave fun c =>
    { (((c.forgetV fresh d.1).setS 383 (BitVec.ofNat 32 s.cw.pa.seqPc)).clean poisonLink c.links.length 0) with
      links := (old, s.cw.sreg 383) :: c.links, wbase := base, wsize := w }
  s1.endClause target

/-- CALL once its target is known good: spill, which waits for what accesses of either path still owe the vector registers, then the
new window (01 R24; 02 R57; 03 R84, R85; 04 R95-R97; 08 R179). -/
def State.callTo (s : State) (w target : Nat) : State :=
  let used := s.cw.spillUsed
  let segs := segmentsFor (s.cw.residentCallers ++ [s.cw.wsize]) (s.cw.span - 8 + w) s.stackRegs
  let regs := (segs.map (· - 8)).foldl (· + ·) 0
  if s.cw.links.length ≥ 127 then s.trapHere ⟨cStackLimit, 0xFFFFFFFF, used, 0⟩
  else if segs.isEmpty then s.enterWindow w target
  else if used + 4 * regs > s.lrec.spillbytes then s.trapHere ⟨cStackLimit, used, used + 4 * regs, 0⟩
  else if (s.owedWave s.cw.uid).any (fun r => r.1 == Cls.v) then s.park .owed
  else
    match s.spillCheck used regs needWR with
    | .miss a v => s.parkMiss a v 1
    | .fault c a ls => (s.spillUndef used regs).trapHere ⟨c, a, (s.cw.pa.here + 8 * (s.cw.pa.slot + 1)) % 2 ^ 32, maskOfList ls⟩
    | .ok => ((s.spillAll (s.cw.oldestBase s.stackRegs) segs).countCore s.cw.core 14 8 (128 * regs)).enterWindow w target

/-- CALL (02 R57). -/
def execCall (f : BF) (s : State) : Res :=
  if s.cw.forked && !s.cw.tm then .next (s.trapHere (plainRec cCallInFork))
  else if !branchCond f.cc.val (s.rdS f.cond) s.execMask then .next s.slotDone
  else
    let t := s.directTarget f.off
    .next (s.withTarget t fun _ s => s.callTo f.w.val t)

/-- RET once its target is known good; a refill waits for what accesses of either path still owe the vector registers (01 R24;
02 R58; 04 R97). -/
def State.retTo (s : State) (old : Nat) (link : W32) (rest : List (Nat × W32)) (target : Nat) : State :=
  let S := s.stackRegs
  let base := (s.cw.wbase + S * 256 - (old - 8)) % S
  let pop (s : State) : State :=
    (s.onWave fun w => { (w.setS 383 link) with links := rest, wbase := base, wsize := old }).endClause target
  if s.cw.spills.length < s.cw.links.length then pop s
  else if (s.owedWave s.cw.uid).any (fun r => r.1 == Cls.v) then s.park .owed
  else
    match s.cw.spills.getLast? with
    | none => pop s
    | some sp =>
      match s.spillCheck sp.off sp.regs needRD with
      | .miss a v => s.parkMiss a v 0
      | _ => pop ((s.refillSegment base).countCore s.cw.core 14 8 (128 * sp.regs))

/-- RET (02 R58). -/
def execRet (_ : BF) (s : State) : Res :=
  if s.cw.forked && !s.cw.tm then .next (s.trapHere (plainRec cCallInFork))
  else
    match s.cw.links with
    | [] => .next (s.trapHere (plainRec cCallDepth))
    | (old, link) :: rest =>
      let t := (s.cw.sreg 383).toNat
      .next (s.withTarget t fun _ s => s.retTo old link rest t)

/-- END (02 R56); in a task wave it acts as TEND (13 R325). -/
def execEndP (_ : BF) (s : State) : Res := .next s.endPath

/-- A topmost FORK: two paths (02 R80). -/
def State.forkTop (s : State) (flags : Mask) (target : Nat) : State :=
  let m := forkMasks s.execMask flags
  let next := s.cw.pa.seqPc
  let saved : ForkRec := { base := s.cw.pa.base, stack := s.cw.pa.stack, depth := s.cw.pa.depth }
  let cut (b : Mask) : List PEntry := s.cw.pa.stack.map fun e => { e with mask := e.mask &&& b }
  let p1 : PathSt :=
    { PathSt.absent with
      pc := target, base := m.1, stack := cut m.1, phase := .arrived target true, clkhi := s.cw.pa.clkhi, refhi := s.cw.pa.refhi,
      unfenced := s.cw.pa.unfenced }
  let s0 := s.modOrder (Written.share s.thread (threadNo s.cw.uid (!s.cw.second)))
  let s1 := { s0 with accs := s.accs.map fun (a : Access) => if a.uid == s.cw.uid then { a with both := true } else a }
  let s2 := s1.onWave fun w =>
    { ((w.setForked true).cleanPath (!w.second)) with fork := some saved, pa := { w.pa with base := m.2, stack := cut m.2 }, pb := p1 }
  let s3 := s2.endClause next
  if m.1 = 0 then s3 else s3.makeReady s3.cw.uid (!s3.cw.second)

/-- A FORK inside a path of a fork: serialised on the path (02 R80). -/
def State.forkInner (s : State) (flags : Mask) (target : Nat) : State :=
  let m := forkMasks s.execMask flags
  if m.2 = 0 then
    if s.cw.pa.depth + 1 > maxDepth then s.trapHere (dataRec cPredStack 1)
    else (s.pushMask ⟨m.1, .run2⟩).endClause target
  else if s.cw.pa.depth + 2 > maxDepth then s.trapHere (dataRec cPredStack 1)
  else ((s.pushMask ⟨m.1, .pend target⟩).pushMask ⟨m.2, .run1⟩).endClause s.cw.pa.seqPc

/-- FORK (02 R80). -/
def execFork (f : BF) (s : State) : Res :=
  let flags := match f.cond with | .p i => s.cw.preg i | _ => 0
  let t := s.directTarget f.off
  .next (s.withTarget t fun _ s => if s.cw.forked then s.forkInner flags t else s.forkTop flags t)

/-- Both paths have arrived: one path again, at the target of path 0 (02 R81). DEDUCED: it keeps path 0's latches of CLKHI and REFHI
(log 25). -/
def State.merge (s : State) (fk : ForkRec) (target : Nat) : State :=
  let uid := s.cw.uid
  let y := match s.cw.pa.clause with | some c => c.yld | none => 0
  let pipe := match s.cw.pa.clause with | some c => pipeOf c.cls | none => 0
  let s1 := (s.modOrder (Written.share (threadNo uid true) (threadNo uid false))).onWave fun w => (w.face false).setForked false
  let p0 := s1.cw.pa
  let s2 := s1.onWave fun w =>
    { ((w.cleanPath false).cleanPath true) with
      fork := none, heldTrap := none, pb := PathSt.absent
      pa := { p0 with pc := target, base := fk.base, stack := fk.stack, clause := none, slot := 0, waited := false, held := none,
                      phase := .ready, pend := p0.pend ++ w.pb.pend, readyAt := s.clk
                      defer := if y = 1 then some pipe else none
                      unfenced := w.pb.unfenced.foldl (fun m k => SMap.set m k.1 ()) p0.unfenced } }
  let s3 := { s2 with
    accs := s2.accs.map fun (a : Access) => if a.uid == uid then { a with second := false, both := false } else a
    ops := s2.ops.map fun (o : AOp) => if o.uid == uid then { o with second := false } else o }
  if s3.cw.pa.elig then (s3.atBoundary y).refillOf s3.cw else s3.makeReady uid false

/-- The part of JOIN that meets the peer of a topmost fork (02 R81). -/
def State.joinTop (s : State) (target : Nat) : State :=
  match s.cw.fork with
  | none => s.trapHere (dataRec cPredStack 3)
  | some fk =>
    if s.cw.pb.phase == .ending then s.trapHere (dataRec cPredStack 5)
    else if s.cw.pa.depth ≠ fk.depth then s.trapHere (dataRec cPredStack 3)
    else
      match s.cw.pb.phase with
      | .arrived other _ => s.merge fk (if s.cw.second then other else target)
      | _ =>
        let s1 := s.onPa fun p => { p with phase := .arrived target false, elig := false }
        s1.refillOf s1.cw

/-- JOIN once its target is known good; the resume target of a PEND entry is checked too, before any effect (01 R31, 02 R81). -/
def State.joinTo (s : State) (target : Nat) : State :=
  match s.cw.pa.stack with
  | ⟨_, .run1⟩ :: ⟨m, .pend resume⟩ :: rest =>
    if m = 0 then (s.onPa fun p => { p with stack := rest }).endClause target
    else s.withTarget resume fun _ s => (s.onPa fun p => { p with stack := ⟨m, .run2⟩ :: rest }).endClause resume
  | ⟨_, .run1⟩ :: rest => (s.onPa fun p => { p with stack := rest }).endClause target
  | ⟨_, .run2⟩ :: rest => (s.onPa fun p => { p with stack := rest }).endClause target
  | _ => if s.cw.forked then s.joinTop target else s.trapHere (dataRec cPredStack 3)

/-- JOIN (02 R81). -/
def execJoin (f : BF) (s : State) : Res :=
  let t := s.directTarget f.off
  .next (s.withTarget t fun _ s => s.joinTo t)

/-- PPUSH and PPUSH.N (02 R79). -/
def execPpush (f : RF) (s : State) : Res :=
  let fl := match f.a with | .p i => s.cw.preg i | _ => 0
  if s.cw.pa.depth ≥ maxDepth then .next (s.trapHere (dataRec cPredStack 1))
  else .next (s.pushMask ⟨s.execMask &&& (if f.sub.val = 1 then ~~~fl else fl), .plain⟩).slotDone

/-- PINV (02 R79). -/
def execPinv (_ : RF) (s : State) : Res :=
  match s.cw.pa.stack with
  | [] => .next (s.trapHere (dataRec cPredStack 2))
  | e :: _ => if e.kind == .plain then .next (s.onPa PathSt.invert).slotDone else .next (s.trapHere (dataRec cPredStack 4))

/-- PPOP k (02 R79): too small a depth is sub-code 2, an entry that is not PLAIN sub-code 4. -/
def execPpop (f : RF) (s : State) : Res :=
  let k := f.sub.val + 1
  if s.cw.pa.depth < k then .next (s.trapHere (dataRec cPredStack 2))
  else if (s.cw.pa.stack.take k).all (fun e => e.kind == .plain) then
    .next (s.onPa fun p => { p with stack := p.stack.drop k }).slotDone
  else .next (s.trapHere (dataRec cPredStack 4))

/-- PSET (02 R79). -/
def execPset (f : RF) (s : State) : Res :=
  flagRes s f.dst f.all fun l => if f.sub.val = 0 then s.rdL f.a l != 0 else psetOp f.sub.val (s.flag f.a l) (s.flag f.b l)

/-- PPACK (02 R79). -/
def execPpack (f : RF) (s : State) : Res := laneRes s f.dst f.all fun l => s.cw.flagByte l

/-- PUNPK (02 R79). -/
def execPunpk (f : RF) (s : State) : Res :=
  .next (s.onWave fun w => w.setFlagBytes (s.active f.all) fun l => s.rdL f.a l).slotDone

/-- The active lanes that have a flag set (02 R79). -/
def State.flagged (s : State) (o : Operand) (all : Bool) : Mask := maskOf fun l => (s.active all).contains l && s.flag o l

/-- PANY and PANY.BAL (02 R79). -/
def execPany (f : RF) (s : State) : Res :=
  let m := s.flagged f.a f.all
  .next (s.wrS f.dst (if f.sub.val = 1 then m else ofFlag (m != 0))).slotDone

/-- PALL (02 R79). -/
def execPall (f : RF) (s : State) : Res := .next (s.wrS f.dst (ofFlag ((s.active f.all).all fun l => s.flag f.a l))).slotDone

end Sys2Proof.Machine
end

