-- ==== Sys2Proof/Machine/Trans.lean ====
section
/-! DEFINITION. The fixed-function results of 02 R70: 2^a, log2 a, sin a and cos a, correctly rounded under RNE.

Each function is enclosed between two fractions computed in fixed point (`p` fractional bits, an error bound in units of
the last place) and both ends are rounded; where they round alike that is the correctly rounded result. Where they
differ a greater precision is tried (log 19). -/

namespace Sys2Proof.Machine

/-- The sum over odd powers of z^(2k+1)/(2k+1), signs alternating where `alt`, in fixed point with `p` fractional bits:
the arc tangent or the inverse hyperbolic tangent of z/2^p. -/
def oddSeries (alt : Bool) (p z2 : Nat) : Nat → Nat → Nat → Int → Int
  | 0, _, _, acc => acc
  | fuel + 1, k, zp, acc =>
    if zp = 0 then acc else
      let t : Int := (zp / (2 * k + 1) : Nat)
      oddSeries alt p z2 fuel (k + 1) (zp * z2 / 2 ^ p) (if alt && k % 2 == 1 then acc - t else acc + t)

/-- atanh(z/2^p) in fixed point. -/
def atanhFix (p z : Nat) : Int := oddSeries false p (z * z / 2 ^ p) (p + 1) 0 z 0

/-- atan(1/m) in fixed point. -/
def atanInv (p m : Nat) : Int := oddSeries true p (2 ^ p / (m * m)) (p + 1) 0 (2 ^ p / m) 0

/-- The natural logarithm of 2 in fixed point. -/
def ln2Fix (p : Nat) : Int := 2 * atanhFix p (2 ^ p / 3)

/-- π in fixed point (Machin's formula). -/
def piFix (p : Nat) : Int := 16 * atanInv p 5 - 4 * atanInv p 239

/-- Sum of t^k/k! from the term `term`, in fixed point. -/
def expSeries (p t : Nat) : Nat → Nat → Nat → Nat → Nat
  | 0, _, _, acc => acc
  | fuel + 1, k, term, acc =>
    if term = 0 then acc else expSeries p t fuel (k + 1) (term * t / 2 ^ p / (k + 1)) (acc + term)

/-- The alternating series of sine (`k` = 1) and cosine (`k` = 0) from the term `term`. -/
def trigSeries (p r2 : Nat) : Nat → Nat → Nat → Bool → Int → Int
  | 0, _, _, _, acc => acc
  | fuel + 1, k, term, neg, acc =>
    if term = 0 then acc else
      trigSeries p r2 fuel (k + 2) (term * r2 / 2 ^ p / ((k + 1) * (k + 2))) (!neg)
        (if neg then acc - (term : Int) else acc + (term : Int))

/-- sin(r/2^p) in fixed point for a small r. -/
def sinFix (p : Nat) (r : Int) : Int :=
  let m := r.natAbs
  let v := trigSeries p (m * m / 2 ^ p) (p + 1) 1 m false 0
  if r < 0 then -v else v

/-- cos(r/2^p) in fixed point for a small r. -/
def cosFix (p : Nat) (r : Int) : Int :=
  let m := r.natAbs
  trigSeries p (m * m / 2 ^ p) (p + 1) 0 (2 ^ p) false 0

/-- The fraction y × 2^(e-p). -/
def fixVal (p : Nat) (e y : Int) : XR := dyadic (decide (y < 0)) y.natAbs (e - p)

/-- The FP32 pattern both ends of [y - err, y + err] × 2^(e-p) round to under RNE, where they agree. -/
def encloses (p : Nat) (e y err : Int) : Option Nat :=
  let lo := roundFp fmtFp32 0 false false (fixVal p e (y - err))
  let hi := roundFp fmtFp32 0 false false (fixVal p e (y + err))
  if lo = hi then some lo else none

/-- The first agreeing enclosure, else the rounded midpoint of the last (log 19). -/
def firstAgree (f : Nat → Int × Int × Int) : List Nat → Nat
  | [] => 0
  | [p] => let t := f p; roundFp fmtFp32 0 false false (fixVal p t.1 t.2.1)
  | p :: q :: ps =>
    let t := f p
    match encloses p t.1 t.2.1 t.2.2 with
    | some r => r
    | none => firstAgree f (q :: ps)

/-- 2^(n/d) for a positive or negative fraction. -/
def exp2Quot (s : Bool) (n d : Nat) : Nat :=
  let x : Int := if s then -(n : Int) else n
  let i := x / (d : Int)
  let fr := (x % (d : Int)).toNat
  if i ≥ 128 then 0x7F800000
  else if i < -160 then 0
  else if fr = 0 then roundFp fmtFp32 0 false false (dyadic false 1 i)
  else firstAgree (fun p =>
    let t := fr * 2 ^ p / d * (ln2Fix p).toNat / 2 ^ p
    (i, (expSeries p t (p + 1) 0 (2 ^ p) 0 : Int), 4096)) [128, 256, 512, 1024]

/-- log2(n/d) for a positive fraction. -/
def log2Val (n d : Nat) : Nat :=
  let e := log2Quot n d
  let nn := if e ≥ 0 then n else n * 2 ^ (-e).toNat
  let dd := if e ≥ 0 then d * 2 ^ e.toNat else d
  if nn = dd then roundFp fmtFp32 0 false false (XR.ofInt e)
  else firstAgree (fun p =>
    let z := (nn - dd) * 2 ^ p / (nn + dd)
    (0, e * 2 ^ p + 2 * atanhFix p z * 2 ^ p / ln2Fix p, 4096)) [160, 320, 640, 1280]

/-- sin or cos of a finite argument, reduced by multiples of π/2 with π to `p` bits. -/
def trigVal (cosine s : Bool) (n d : Nat) : Nat :=
  firstAgree (fun p =>
    let x : Int := (n * 2 ^ p / d : Nat)
    let h := piFix p / 2
    let k := (2 * x + h) / (2 * h)
    let r := x - k * h
    let q := (if cosine then k + 1 else k) % 4
    let v := if q = 0 then sinFix p r else if q = 1 then cosFix p r else if q = 2 then -sinFix p r else -cosFix p r
    (0, if s && !cosine then -v else v, 2 ^ 150)) [512, 1024, 2048]

/-- FEXP2 (02 R70). -/
def fexp2 (x : XR) : Nat :=
  match x with
  | .nan => fmtFp32.canonNaN
  | .inf s => if s then 0 else 0x7F800000
  | .fin s n d => if n = 0 then 0x3F800000 else exp2Quot s n d

/-- FLOG2 (02 R70). -/
def flog2 (x : XR) : Nat :=
  match x with
  | .nan => fmtFp32.canonNaN
  | .inf s => if s then fmtFp32.canonNaN else 0x7F800000
  | .fin s n d => if n = 0 then 0xFF800000 else if s then fmtFp32.canonNaN else log2Val n d

/-- FSIN (02 R70). -/
def fsin (x : XR) : Nat :=
  match x with
  | .nan => fmtFp32.canonNaN
  | .inf _ => fmtFp32.canonNaN
  | .fin s n d => if n = 0 then withSign fmtFp32 s 0 else trigVal false s n d

/-- FCOS (02 R70). -/
def fcos (x : XR) : Nat :=
  match x with
  | .nan => fmtFp32.canonNaN
  | .inf _ => fmtFp32.canonNaN
  | .fin s n d => if n = 0 then 0x3F800000 else trigVal true s n d

end Sys2Proof.Machine
end

