-- ==== Sys2Proof/Machine/LaneFp.lean ====
section
/-! DEFINITION. The lane floating-point and packed narrow instructions (02 R69-R77). -/

namespace Sys2Proof.Machine

open Sys2Proof (Operand RF IF W32 W64 Mask)

/-- The rounding mode of SUB or FSLOT: 0 for WSR.RM, else the static mode (02 R69). -/
def State.rmOf (s : State) (sub : Nat) : Nat := if sub = 0 then s.cw.rm else sub - 1

/-- MOD bits of an R-format instruction (01 R27). -/
def RF.negA (f : RF) : Bool := f.mod.val.testBit 5
def RF.absA (f : RF) : Bool := f.mod.val.testBit 4
def RF.negB (f : RF) : Bool := f.mod.val.testBit 3
def RF.absB (f : RF) : Bool := f.mod.val.testBit 2
def RF.negC (f : RF) : Bool := f.mod.val.testBit 1
def RF.sat (f : RF) : Bool := f.mod.val.testBit 0

/-- The FP32 source operands of a lane after SrcMod and FTZ (01 R41, 02 R69). -/
def State.fpA (s : State) (f : RF) (l : Nat) : W32 := flushIn s.cw.ftz (srcMod (RF.negA f) (RF.absA f) (s.rdL f.a l))
def State.fpB (s : State) (f : RF) (l : Nat) : W32 := flushIn s.cw.ftz (srcMod (RF.negB f) (RF.absB f) (s.rdL f.b l))
def State.fpC (s : State) (f : RF) (l : Nat) : W32 := flushIn s.cw.ftz (srcMod (RF.negC f) false (s.rdL f.c l))

/-- SAT of an FP32 result (02 R69). -/
def satF32 (sat : Bool) (x : W32) : W32 := if sat then BitVec.ofNat 32 (clamp01 fmtFp32 x.toNat) else x

/-- A rounded FP32 result with FTZ and SAT (02 R69). -/
def State.fpOut (s : State) (rm : Nat) (sat : Bool) (x : XR) : W32 := satF32 sat (roundF32 rm s.cw.ftz x)

/-- FMIN or FMAX of two FP32 patterns, NaN canonical (02 R69, R49). -/
def fmin32 (gt : Bool) (a b : W32) : W32 :=
  let r := BitVec.ofNat 32 (fpMin fmtFp32 gt a.toNat b.toNat)
  if isNaN32 r then f32NaN else r

/-- A fixed-function result, correctly rounded under RNE whatever SUB holds, with FTZ and SAT (02 R70). -/
def State.fixedOut (s : State) (f : RF) (r : Nat) : W32 := satF32 (RF.sat f) (flushIn s.cw.ftz (BitVec.ofNat 32 r))

/-- FADD (02 R69). -/
def execFadd (f : RF) (s : State) : Res := laneRes s f.dst f.all fun l => s.fpOut (s.rmOf f.sub.val) (RF.sat f) (XR.add (s.rmOf f.sub.val) (fp32Val (s.fpA f l)) (fp32Val (s.fpB f l)))

/-- FSUB (02 R69). -/
def execFsub (f : RF) (s : State) : Res := laneRes s f.dst f.all fun l => s.fpOut (s.rmOf f.sub.val) (RF.sat f) (XR.add (s.rmOf f.sub.val) (fp32Val (s.fpA f l)) (fp32Val (s.fpB f l)).neg)

/-- FMUL (02 R69). -/
def execFmul (f : RF) (s : State) : Res := laneRes s f.dst f.all fun l => s.fpOut (s.rmOf f.sub.val) (RF.sat f) (XR.mul (fp32Val (s.fpA f l)) (fp32Val (s.fpB f l)))

/-- FFMA: one rounding (02 R69). -/
def execFfma (f : RF) (s : State) : Res := laneRes s f.dst f.all fun l => s.fpOut (s.rmOf f.sub.val) (RF.sat f) (XR.fma (s.rmOf f.sub.val) (fp32Val (s.fpA f l)) (fp32Val (s.fpB f l)) (fp32Val (s.fpC f l)))

/-- FMIN (02 R69). -/
def execFmin (f : RF) (s : State) : Res := laneRes s f.dst f.all fun l => satF32 (RF.sat f) (fmin32 false (s.fpA f l) (s.fpB f l))

/-- FMAX (02 R69). -/
def execFmax (f : RF) (s : State) : Res := laneRes s f.dst f.all fun l => satF32 (RF.sat f) (fmin32 true (s.fpA f l) (s.fpB f l))

/-- FCMP: the lane's flag (02 R71). -/
def execFcmp (f : RF) (s : State) : Res := flagRes s f.dst f.all fun l => fcond f.sub.val (fp32Val (s.fpA f l)) (fp32Val (s.fpB f l))

/-- FRCP (02 R70). -/
def execFrcp (f : RF) (s : State) : Res := laneRes s f.dst f.all fun l => s.fpOut (s.rmOf f.sub.val) (RF.sat f) (fp32Val (s.fpA f l)).recip

/-- FRSQ (02 R70). -/
def execFrsq (f : RF) (s : State) : Res := laneRes s f.dst f.all fun l => s.fixedOut f (roundFp fmtFp32 0 false false (fp32Val (s.fpA f l)).rsqrt)

/-- FSQRT (02 R70). -/
def execFsqrt (f : RF) (s : State) : Res := laneRes s f.dst f.all fun l => s.fpOut (s.rmOf f.sub.val) (RF.sat f) (fp32Val (s.fpA f l)).sqrt

/-- FEXP2 (02 R70). -/
def execFexp2 (f : RF) (s : State) : Res := laneRes s f.dst f.all fun l => s.fixedOut f (fexp2 (fp32Val (s.fpA f l)))

/-- FLOG2 (02 R70). -/
def execFlog2 (f : RF) (s : State) : Res := laneRes s f.dst f.all fun l => s.fixedOut f (flog2 (fp32Val (s.fpA f l)))

/-- FSIN (02 R70). -/
def execFsin (f : RF) (s : State) : Res := laneRes s f.dst f.all fun l => s.fixedOut f (fsin (fp32Val (s.fpA f l)))

/-- FCOS (02 R70). -/
def execFcos (f : RF) (s : State) : Res := laneRes s f.dst f.all fun l => s.fixedOut f (fcos (fp32Val (s.fpA f l)))

/-- A value rounded to an integral value of the same sign (02 R70 FRND). -/
def XR.integral (rm : Nat) : XR → XR
  | .fin s n d => .fin s (roundQuot rm s n d) 1
  | x => x

/-- FRND (02 R70). -/
def execFrnd (f : RF) (s : State) : Res := laneRes s f.dst f.all fun l => s.fpOut (s.rmOf f.sub.val) (RF.sat f) (XR.integral (s.rmOf f.sub.val) (fp32Val (s.fpA f l)))

/-- An FP-to-UINT32 conversion (02 R72): NaN gives 0, the result saturates. -/
def toU32 (rm : Nat) : XR → W32
  | .nan => 0
  | .inf s => if s then 0 else 0xFFFFFFFF#32
  | .fin s n d => satU32 (roundIntegral rm s n d)

/-- A half of a packed register, with SrcMod on the half's sign (02 R72). -/
def halfOf (hi : Bool) (neg abs : Bool) (x : W32) : Nat := fld (srcMod2 neg abs x).toNat (if hi then 16 else 0) 16

/-- FCVT's result for one lane (02 R72). -/
def State.fcvt (s : State) (f : RF) (l : Nat) : W32 :=
  let x := s.rdL f.a l
  let rm := s.rmOf f.fslot.val
  let wide (v : XR) : W32 := satF32 (RF.sat f) (roundF32 rm false v)
  match f.sub.val with
  | 0 => BitVec.ofNat 32 (roundTo encInt32 (fp32Val (s.fpA f l)) rm true false)
  | 1 => toU32 rm (fp32Val (s.fpA f l))
  | 2 => wide (XR.ofInt x.toInt)
  | 3 => wide (XR.ofInt x.toNat)
  | 4 => BitVec.ofNat 32 (roundFp fmtFp16 rm (RF.sat f) false (fp32Val (s.fpA f l)))
  | 5 => wide (decodeFp fmtFp16 (halfOf false (RF.negA f) (RF.absA f) x))
  | 6 => wide (decodeFp fmtFp16 (halfOf true (RF.negA f) (RF.absA f) x))
  | 7 => BitVec.ofNat 32 (roundFp fmtBf16 rm (RF.sat f) false (fp32Val (s.fpA f l)))
  | 8 => wide (decodeFp fmtBf16 (halfOf false (RF.negA f) (RF.absA f) x))
  | _ => wide (decodeFp fmtBf16 (halfOf true (RF.negA f) (RF.absA f) x))

/-- FCVT (02 R72). -/
def execFcvt (f : RF) (s : State) : Res := laneRes s f.dst f.all fun l => s.fcvt f l

/-- FADD (I): IMM32 as an FP32 pattern (02 R73). -/
def execFaddI (f : IF) (s : State) : Res := laneRes s f.dst false fun l => s.fpOut (s.rmOf f.subh.val) false (XR.add (s.rmOf f.subh.val) (fp32Val (flushIn s.cw.ftz (s.rdL f.a l))) (fp32Val (flushIn s.cw.ftz f.imm)))

/-- FSUB (I): IMM32 as an FP32 pattern (02 R73). -/
def execFsubI (f : IF) (s : State) : Res := laneRes s f.dst false fun l => s.fpOut (s.rmOf f.subh.val) false (XR.add (s.rmOf f.subh.val) (fp32Val (flushIn s.cw.ftz (s.rdL f.a l))) (fp32Val (flushIn s.cw.ftz f.imm)).neg)

/-- FMUL (I): IMM32 as an FP32 pattern (02 R73). -/
def execFmulI (f : IF) (s : State) : Res := laneRes s f.dst false fun l => s.fpOut (s.rmOf f.subh.val) false (XR.mul (fp32Val (flushIn s.cw.ftz (s.rdL f.a l))) (fp32Val (flushIn s.cw.ftz f.imm)))

/-- FMIN (I): IMM32 as an FP32 pattern (02 R73). -/
def execFminI (f : IF) (s : State) : Res := laneRes s f.dst false fun l => fmin32 false (flushIn s.cw.ftz (s.rdL f.a l)) (flushIn s.cw.ftz f.imm)

/-- FMAX (I): IMM32 as an FP32 pattern (02 R73). -/
def execFmaxI (f : IF) (s : State) : Res := laneRes s f.dst false fun l => fmin32 true (flushIn s.cw.ftz (s.rdL f.a l)) (flushIn s.cw.ftz f.imm)

/-- FCMP (I) (02 R73). -/
def execFcmpI (f : IF) (s : State) : Res := flagRes s f.dst false fun l => fcond f.subh.val (fp32Val (flushIn s.cw.ftz (s.rdL f.a l))) (fp32Val (flushIn s.cw.ftz f.imm))

/-- The identities of VRED.F and VSCAN.F (02 R74). -/
def fredId (op : Nat) : W32 := match op with | 0 => 0 | 1 => f32Inf | _ => f32NegInf

/-- One combination of VRED.F (02 R74): FADD with one rounding under WSR.RM, FMIN or FMAX. -/
def State.fredOp (s : State) (op : Nat) (a b : W32) : W32 :=
  match op with
  | 0 => roundF32 s.cw.rm s.cw.ftz (XR.add s.cw.rm (fp32Val a) (fp32Val b))
  | 1 => fmin32 false a b
  | _ => fmin32 true a b

/-- The combination of the lanes listed, starting from the first one's value, which 02 R74 says of FADD and the model takes
for FMIN and FMAX too: of NaNs alone the value is the canonical NaN (DEDUCED: log 27). -/
def State.fredVal (s : State) (op : Nat) (a : Nat → W32) (ls : List Nat) : W32 :=
  match ls with
  | [] => fredId op
  | l :: t =>
    let canon (x : W32) : W32 := if isNaN32 x then f32NaN else x
    t.foldl (fun acc k => s.fredOp op acc (a k)) (canon (a l))

/-- VRED.F (02 R74). -/
def execVredF (f : RF) (s : State) : Res :=
  .next (s.wrS f.dst (s.fredVal (f.sub.val % 4) (fun l => flushIn s.cw.ftz (s.rdL f.a l)) (s.active f.all))).slotDone

/-- VSCAN.F (02 R74). -/
def execVscanF (f : RF) (s : State) : Res :=
  laneRes s f.dst f.all fun l =>
    s.fredVal (f.sub.val % 4) (fun l => flushIn s.cw.ftz (s.rdL f.a l)) (prefixLanes (s.active f.all) (f.sub.val / 8 % 2 == 1) l)

/-- A function on both 16-bit halves (02 R75). -/
def onHalves (g : Nat → Nat) : W32 := BitVec.ofNat 32 (g 0 % 65536 + 65536 * (g 1 % 65536))

/-- Half h of a packed value. -/
def halfN (h : Nat) (x : W32) : Nat := fld x.toNat (16 * h) 16

/-- A packed-pair result (02 R75): `op` acts on the exact values of each half; subnormals are kept. -/
def State.packed (s : State) (fmt : FpFmt) (f : RF) (l : Nat) (op : Nat → XR → XR → XR → XR) : W32 :=
  let rm := s.rmOf f.sub.val
  let a := srcMod2 (RF.negA f) (RF.absA f) (s.rdL f.a l)
  let b := srcMod2 (RF.negB f) (RF.absB f) (s.rdL f.b l)
  let c := srcMod2 (RF.negC f) false (s.rdL f.c l)
  onHalves fun h =>
    let r := roundFp fmt rm false false (op rm (decodeFp fmt (halfN h a)) (decodeFp fmt (halfN h b)) (decodeFp fmt (halfN h c)))
    if RF.sat f then clamp01 fmt r else r

/-- FMIN or FMAX of packed pairs (02 R75). -/
def State.packedMin (s : State) (fmt : FpFmt) (f : RF) (l : Nat) (gt : Bool) : W32 :=
  let a := srcMod2 (RF.negA f) (RF.absA f) (s.rdL f.a l)
  let b := srcMod2 (RF.negB f) (RF.absB f) (s.rdL f.b l)
  onHalves fun h =>
    let r := fpMin fmt gt (halfN h a) (halfN h b)
    if RF.sat f then clamp01 fmt r else r

/-- FADD.H2 (02 R75). -/
def execFaddH2 (f : RF) (s : State) : Res := laneRes s f.dst f.all fun l => s.packed fmtFp16 f l fun rm a b _ => XR.add rm a b

/-- FSUB.H2 (02 R75). -/
def execFsubH2 (f : RF) (s : State) : Res := laneRes s f.dst f.all fun l => s.packed fmtFp16 f l fun rm a b _ => XR.add rm a b.neg

/-- FMUL.H2 (02 R75). -/
def execFmulH2 (f : RF) (s : State) : Res := laneRes s f.dst f.all fun l => s.packed fmtFp16 f l fun _ a b _ => XR.mul a b

/-- FFMA.H2 (02 R75). -/
def execFfmaH2 (f : RF) (s : State) : Res := laneRes s f.dst f.all fun l => s.packed fmtFp16 f l fun rm a b c => XR.fma rm a b c

/-- FMIN.H2 (02 R75). -/
def execFminH2 (f : RF) (s : State) : Res := laneRes s f.dst f.all fun l => s.packedMin fmtFp16 f l false

/-- FMAX.H2 (02 R75). -/
def execFmaxH2 (f : RF) (s : State) : Res := laneRes s f.dst f.all fun l => s.packedMin fmtFp16 f l true

/-- FADD.B2 (02 R75). -/
def execFaddB2 (f : RF) (s : State) : Res := laneRes s f.dst f.all fun l => s.packed fmtBf16 f l fun rm a b _ => XR.add rm a b

/-- FSUB.B2 (02 R75). -/
def execFsubB2 (f : RF) (s : State) : Res := laneRes s f.dst f.all fun l => s.packed fmtBf16 f l fun rm a b _ => XR.add rm a b.neg

/-- FMUL.B2 (02 R75). -/
def execFmulB2 (f : RF) (s : State) : Res := laneRes s f.dst f.all fun l => s.packed fmtBf16 f l fun _ a b _ => XR.mul a b

/-- FFMA.B2 (02 R75). -/
def execFfmaB2 (f : RF) (s : State) : Res := laneRes s f.dst f.all fun l => s.packed fmtBf16 f l fun rm a b c => XR.fma rm a b c

/-- FMIN.B2 (02 R75). -/
def execFminB2 (f : RF) (s : State) : Res := laneRes s f.dst f.all fun l => s.packedMin fmtBf16 f l false

/-- FMAX.B2 (02 R75). -/
def execFmaxB2 (f : RF) (s : State) : Res := laneRes s f.dst f.all fun l => s.packedMin fmtBf16 f l true

/-- Element i of `bits` bits of a packed value (02 R76). -/
def elemN (bits i : Nat) (x : W32) : Nat := fld x.toNat (bits * i) bits

/-- The exact integer value of an integer element. -/
def intVal (enc e : Nat) : Int := if enc = encUint8 then (fld e 0 8 : Nat) else sx e (encBits enc)

/-- An integer dot product (02 R76). -/
def dotInt (n bits ea eb : Nat) (sat : Bool) (a b c : W32) : W32 :=
  let t : Int := (List.range n).foldl (fun (t : Int) i => t + intVal ea (elemN bits i a) * intVal eb (elemN bits i b)) c.toInt
  if sat then satS32 t else BitVec.ofInt 32 t

/-- A floating-point dot product, one rounding under WSR.RM (02 R76, R69). -/
def State.dotFp (s : State) (n bits ea eb : Nat) (a b c : W32) : W32 :=
  let terms := (List.range n).map fun i => XR.mul (decodeEl ea (elemN bits i a)) (decodeEl eb (elemN bits i b))
  roundF32 s.cw.rm s.cw.ftz (XR.sum s.cw.rm (terms ++ [fp32Val (flushIn s.cw.ftz c)]))

/-- VDOT4 (02 R76). -/
def execVdot4 (f : RF) (s : State) : Res :=
  laneRes s f.dst f.all fun l =>
    match f.sub.val with
    | 0 => dotInt 4 8 encInt8 encInt8 (RF.sat f) (s.rdL f.a l) (s.rdL f.b l) (s.rdL f.c l)
    | 1 => dotInt 4 8 encUint8 encUint8 (RF.sat f) (s.rdL f.a l) (s.rdL f.b l) (s.rdL f.c l)
    | 2 => dotInt 4 8 encUint8 encInt8 (RF.sat f) (s.rdL f.a l) (s.rdL f.b l) (s.rdL f.c l)
    | 3 => s.dotFp 4 8 encE4m3 encE4m3 (s.rdL f.a l) (s.rdL f.b l) (s.rdL f.c l)
    | 4 => s.dotFp 4 8 encE5m2 encE5m2 (s.rdL f.a l) (s.rdL f.b l) (s.rdL f.c l)
    | 5 => s.dotFp 4 8 encE4m3 encE5m2 (s.rdL f.a l) (s.rdL f.b l) (s.rdL f.c l)
    | _ => s.dotFp 4 8 encE5m2 encE4m3 (s.rdL f.a l) (s.rdL f.b l) (s.rdL f.c l)

/-- VDOT8 (02 R76). -/
def execVdot8 (f : RF) (s : State) : Res :=
  laneRes s f.dst f.all fun l =>
    if f.sub.val = 0 then dotInt 8 4 encInt4 encInt4 (RF.sat f) (s.rdL f.a l) (s.rdL f.b l) (s.rdL f.c l)
    else s.dotFp 8 4 encE2m1 encE2m1 (s.rdL f.a l) (s.rdL f.b l) (s.rdL f.c l)

/-- A format slot of the launch (07 R168). -/
def State.slotDesc (s : State) (n : Nat) : Nat := (s.lrec.slots[n]?).getD 0

/-- ENC, SCALE, BLK, SAT and SUBN of a format slot (07 R168). -/
def slotEnc (d : Nat) : Nat := fld d 0 6
def slotScale (d : Nat) : Nat := fld d 6 2
def slotBlk (d : Nat) : Nat := if bit d 8 then 32 else 16
def slotSat (d : Nat) : Bool := bit d 9
def slotSubn (d : Nat) : Bool := bit d 10

/-- Container bits of an encoding VPK and VUPK accept, and how many fit a register; 0 for the others (02 R77). -/
def pkBits (enc : Nat) : Nat := if enc = 8 || enc = 11 then 4 else if enc = 4 || enc = 5 || enc = 6 || enc = 7 || enc = 9 || enc = 10 then 8 else 0

/-- The slot's encoding and the position SUB names are ones VPK and VUPK accept (02 R77). -/
def pkOk (enc k : Nat) : Bool := pkBits enc != 0 && decide (k < 32 / pkBits enc)

/-- The unsupported-format trap (02 R77, 04 R99). -/
def State.formatTrap (s : State) (f : RF) : Res :=
  .next (s.trapHere ⟨cFormat, 0, f.fslot.val, maskOfList (s.active f.all)⟩)

/-- VPK's result for one lane: the element put into the value of b (02 R77). -/
def State.vpkVal (s : State) (f : RF) (d k l : Nat) : W32 :=
  let bits := pkBits (slotEnc d)
  let e := roundTo (slotEnc d) (fp32Val (s.rdL f.a l)) s.cw.rm (slotSat d) false
  let b := s.rdL f.b l
  (b &&& ~~~(BitVec.ofNat 32 ((2 ^ bits - 1) * 2 ^ (bits * k)))) ||| BitVec.ofNat 32 (e * 2 ^ (bits * k))

/-- Poison of the bytes that VPK passes from SRCB to its destination (04 R110). -/
def State.passPoison (s t : State) (f : RF) (bits k : Nat) : State :=
  match f.dst, f.b with
  | .v d, .v b =>
    let kept := (s.cw.poison.filter fun q => q.cls == 0 && q.reg == s.phys b && (s.active f.all).contains q.lane &&
      (bits = 4 || q.byte != k)).map fun q => { q with reg := s.phys d }
    t.onWave fun w => { w with poison := w.poison ++ kept.filter fun q => !w.poison.contains q }
  | _, _ => t

/-- VPK (02 R77). -/
def execVpk (f : RF) (s : State) : Res :=
  let d := s.slotDesc f.fslot.val
  let k := f.sub.val % 8
  if pkOk (slotEnc d) k then
    .next (s.passPoison (s.wrLanes f.dst (s.active f.all) fun l => s.vpkVal f d k l) f (pkBits (slotEnc d)) k).slotDone
  else s.formatTrap f

/-- VUPK: an exact widening (02 R77). -/
def execVupk (f : RF) (s : State) : Res :=
  let d := s.slotDesc f.fslot.val
  let k := f.sub.val % 8
  if pkOk (slotEnc d) k then
    laneRes s f.dst f.all fun l => roundF32 0 false (decodeEl (slotEnc d) (elemN (pkBits (slotEnc d)) k (s.rdL f.a l)))
  else s.formatTrap f

end Sys2Proof.Machine
end

