-- ==== Sys2Proof/Machine/Light.lean ====
section
/-! DEFINITION. The arithmetic of light: boxes, triangles and textures (13 R296-R300, R315-R317; 16 R340), and the film step
(13 R318). -/

namespace Sys2Proof.Machine

open Sys2Proof (W32)

/-- Exact difference. -/
def XR.sub (a b : XR) : XR := XR.add 0 a b.neg
/-- A finite value? -/
def XR.isFin : XR → Bool
  | .fin _ _ _ => true
  | _ => false
/-- The lesser and the greater of two values; the first of equal ones. -/
def XR.min2 (a b : XR) : XR := if XR.lt b a then b else a
def XR.max2 (a b : XR) : XR := if XR.lt a b then b else a
/-- a ≤ b for values that are not NaN. -/
def XR.le (a b : XR) : Bool := !a.isNaN && !b.isNaN && !XR.lt b a
/-- A real zero has no sign. -/
def XR.plain (x : XR) : XR := if x.isZero then .fin false 0 1 else x
/-- An FP32 rounding as a value. -/
def XR.r32 (rm : Nat) (x : XR) : XR := decodeFp fmtFp32 (roundFp fmtFp32 rm false false x)
/-- The FP32 pattern of a value, to nearest. -/
def f32Of (x : XR) : W32 := BitVec.ofNat 32 (roundFp fmtFp32 0 false false x)

/-- Word i of a list of words as FP32. -/
def fAt (ws : List W32) (i : Nat) : XR := fp32Val ((ws[i]?).getD 0)

/-- A ray that misses everything (13 R296): ox oy oz tmin dx dy dz tmax. -/
def rayBad (ray : List W32) : Bool :=
  (List.range 8).any (fun i => (fAt ray i).isNaN) || (List.range 7).any fun i => !(fAt ray i).isFin

/-- One axis of the box test: none where the axis has no limit, else the rounded interval; an empty list of candidates means
the axis refuses (13 R298). -/
def axisTest (o d lo hi : XR) : Option (Option (XR × XR)) :=
  if d.isZero then (if XR.le lo o && XR.le o hi then some none else none)
  else
    let t1 := XR.mul (XR.sub lo o) d.recip
    let t2 := XR.mul (XR.sub hi o) d.recip
    some (some (XR.r32 2 (XR.min2 t1 t2), XR.r32 3 (XR.max2 t1 t2)))

/-- The box test: tnear where the ray hits (13 R297, R298). `box` holds minx miny minz maxx maxy maxz. -/
def boxTest (ray box : List W32) : Option XR :=
  let bad := rayBad ray || (List.range 6).any (fun i => (fAt box i).isNaN) || (List.range 3).any fun a => XR.lt (fAt box (a + 3)) (fAt box a)
  if bad then none
  else
    let step (acc : Option (XR × XR)) (a : Nat) : Option (XR × XR) :=
      match acc with
      | none => none
      | some (n, f) =>
        match axisTest (fAt ray a) (fAt ray (4 + a)) (fAt box a) (fAt box (a + 3)) with
        | none => none
        | some none => some (n, f)
        | some (some (lo, hi)) => some (XR.max2 n lo, XR.min2 f hi)
    match (List.range 3).foldl step (some (fAt ray 3, fAt ray 7)) with
    | none => none
    | some (n, f) => if XR.le n f then some n else none

/-- Insert a hit child by ascending tnear, ties by the key (13 R299, R307). -/
def insertHit (x : XR × Nat × Nat) : List (XR × Nat × Nat) → List (XR × Nat × Nat)
  | [] => [x]
  | y :: t => if XR.lt x.1 y.1 || (XR.eq x.1 y.1 && decide (x.2.1 < y.2.1)) then x :: y :: t else y :: insertHit x t

/-- The children of a node that a ray hits, as (tnear, child number, pointer), unordered (13 R297). -/
def nodeHits (ray node : List W32) : List (XR × Nat × Nat) :=
  (List.range 4).filterMap fun c =>
    let ptr := ((node[24 + c]?).getD 0).toNat
    if ptr / 2 ^ 30 ≥ 2 then none
    else (boxTest ray ((List.range 6).map fun k => (node[6 * c + k]?).getD 0)).map fun t => (t, c, ptr)

/-- The eight words RBOX returns (13 R299). -/
def rboxOut (ray node : List W32) : List W32 :=
  let hits := (nodeHits ray node).foldl (fun l x => insertHit x l) []
  (List.range 4).map (fun i => match hits[i]? with | some h => f32Of h.1 | none => f32Inf) ++
    (List.range 4).map fun i => match hits[i]? with | some h => BitVec.ofNat 32 h.2.2 | none => 0xFFFFFFFF#32

/-- Exact vector operations on triples. -/
def v3 (ws : List W32) (i : Nat) : List XR := [fAt ws i, fAt ws (i + 1), fAt ws (i + 2)]
def vSub (a b : List XR) : List XR := List.zipWith XR.sub a b
def vDot (a b : List XR) : XR := ((List.zipWith XR.mul a b).foldl (XR.add 0) (.fin false 0 1))
def vCross (a b : List XR) : List XR :=
  let g (l : List XR) (i : Nat) : XR := (l[i]?).getD .nan
  let m (i j : Nat) : XR := XR.sub (XR.mul (g a i) (g b j)) (XR.mul (g a j) (g b i))
  [m 1 2, m 2 0, m 0 1]

/-- The four words RTRI returns (13 R300). `tri` holds A, B and C. -/
def rtriOut (cull : Nat) (ray tri : List W32) : List W32 :=
  let miss : List W32 := [f32Inf, 0, 0, 0]
  if rayBad ray || (List.range 9).any (fun i => !(fAt tri i).isFin) then miss
  else
    let o := v3 ray 0
    let d := v3 ray 4
    let a := v3 tri 0
    let e1 := vSub (v3 tri 3) a
    let e2 := vSub (v3 tri 6) a
    let n := vCross e1 e2
    let det := vDot d n
    let front := det.sign
    if det.isZero || (cull = 1 && !front) || (cull = 2 && front) then miss
    else
      let r := vSub o a
      let inv := det.recip
      let t := (XR.mul (vDot (vSub a o) n) inv).plain
      let u := (XR.mul (vDot r (vCross e2 d)) inv).plain
      let v := (XR.mul (vDot r (vCross d e1)) inv).plain
      let zero : XR := .fin false 0 1
      let one : XR := .fin false 1 1
      if XR.le zero u && XR.le zero v && XR.le (XR.add 0 u v) one && XR.le (fAt ray 3) t && XR.le t (fAt ray 7) then
        [f32Of t, f32Of u, f32Of v, if front then 1 else 2]
      else miss

/-- A spectral texture descriptor (13 R315). -/
structure TexDesc where
  base : Nat
  wid : Nat
  hgt : Nat
  lay : Nat
  nl : Nat
  lam0 : W32
  dlam : W32
  enc : Nat
  um : Nat
  vm : Nat
  rsvd : Nat
deriving DecidableEq, Repr

/-- The fields of a 64-byte descriptor. -/
def TexDesc.of (x : Nat) : TexDesc :=
  { base := fld x 0 64, wid := fld x 64 16, hgt := fld x 80 16, lay := fld x 96 16, nl := fld x 112 16,
    lam0 := BitVec.ofNat 32 (fld x 128 32), dlam := BitVec.ofNat 32 (fld x 160 32), enc := fld x 192 8, um := fld x 200 2,
    vm := fld x 202 2, rsvd := fld x 204 4 + fld x 208 304 * 16 }

/-- Bytes of a texel sample, E. -/
def TexDesc.esize (d : TexDesc) : Nat := if d.enc = 1 then 4 else 2

/-- Is the descriptor malformed (13 R316)? -/
def TexDesc.malformed (d : TexDesc) : Bool :=
  d.rsvd ≠ 0 || d.wid = 0 || d.hgt = 0 || d.lay = 0 || d.nl = 0 || d.nl > 4096 || !(fp32Val d.lam0).isFin ||
    !(fp32Val d.dlam).isFin || !XR.lt (.fin false 0 1) (fp32Val d.dlam) || d.enc = 0 || d.enc > 3 || d.um = 3 || d.vm = 3 ||
    d.base / 2 ^ 56 ≠ 0 || d.base % d.esize ≠ 0

/-- Wrap of 13 R317. -/
def texWrap (x : Int) (n mode : Nat) : Nat :=
  match mode with
  | 0 => (clampI x 0 (n - 1)).toNat
  | 1 => (x % n).toNat
  | _ =>
    let m := (x % (2 * n)).toNat
    if m ≥ n then 2 * n - 1 - m else m

/-- Floor of a finite value. -/
def XR.floor : XR → Int
  | .fin s n d => if s then -((ceilDiv n d : Nat) : Int) else ((n / d : Nat) : Int)
  | _ => 0

/-- `RoundIntegral(x, RNE)` of a value that is not negative. -/
def XR.nearest : XR → Nat
  | .fin _ n d => (roundIntegral 0 false n d).toNat
  | _ => 0

/-- A texture coordinate with NaN replaced and clamped (13 R317). -/
def texCoord (x : W32) : XR :=
  let v := fp32Val x
  let lim : XR := .fin false (2 ^ 24) 1
  if v.isNaN then .fin false 0 1 else if XR.lt v lim.neg then lim.neg else if XR.lt lim v then lim else v

/-- Positions and weights (of 256) along one axis (13 R317). -/
def texAxis (nearest : Bool) (c : XR) (n mode : Nat) : List (Nat × Nat) :=
  let w := XR.mul c (.fin false n 1)
  if nearest then [(texWrap w.floor n mode, 256)]
  else
    let x := XR.sub w (.fin false 1 2)
    let x0 := x.floor
    let q := (XR.mul (XR.sub x (XR.ofInt x0)) (.fin false 256 1)).nearest
    [(texWrap x0 n mode, 256 - q), (texWrap (x0 + 1) n mode, q)]

/-- Samples and weights (of 65536) along the wavelength; none for a NaN wavelength (13 R317). -/
def texSpec (d : TexDesc) (lam : W32) : Option (List (Nat × Nat)) :=
  let v := fp32Val lam
  if v.isNaN then none
  else
    let s := XR.mul (XR.sub v (fp32Val d.lam0)) (fp32Val d.dlam).recip
    if XR.le s (.fin false 0 1) then some [(0, 65536)]
    else if XR.le (.fin false (d.nl - 1) 1) s then some [(d.nl - 1, 65536)]
    else
      let k := s.floor
      let q := (XR.mul (XR.sub s (XR.ofInt k)) (.fin false 65536 1)).nearest
      some [(k.toNat, 65536 - q), (k.toNat + 1, q)]

/-- The terms of one sample: the texel's byte address and its weight (of 2^32), zero weights left out (13 R317). -/
def texTerms (d : TexDesc) (near : Bool) (u v : W32) (layer : W32) (spec : List (Nat × Nat)) : List (Nat × Nat) :=
  let z := (clampI layer.toInt 0 (d.lay - 1)).toNat
  let t := (texAxis near (texCoord v) d.hgt d.vm).flatMap fun y =>
    (texAxis near (texCoord u) d.wid d.um).flatMap fun x =>
      spec.map fun k => ((d.base + d.esize * (k.1 + d.nl * (x.1 + d.wid * (y.1 + d.hgt * z)))) % 2 ^ 56, x.2 * y.2 * k.2)
  t.filter fun x => x.2 ≠ 0

/-- The sample a lane receives from its terms, each with the pattern read (13 R317). -/
def texSum (d : TexDesc) (terms : List (Nat × Nat)) : W32 :=
  f32Of (XR.sum 0 (terms.map fun x => XR.mul (.fin false x.2 (2 ^ 32)) (decodeEl d.enc x.1)))

/-- One film step on the pair (S, C) (13 R318). -/
def filmStep (sc : W32 × W32) (x : W32) : W32 × W32 :=
  let r (v : XR) : XR := XR.r32 0 v
  let S := fp32Val sc.1
  let X := fp32Val x
  let t := f32Of (XR.add 0 S X)
  let T := fp32Val t
  if T.isFin then
    let absLe (a b : XR) : Bool :=
      match a, b with
      | .fin _ n d, .fin _ m e => decide (n * e ≤ m * d)
      | _, _ => false
    let e := if absLe X S then r (XR.add 0 (r (XR.sub S T)) X) else r (XR.add 0 (r (XR.sub X T)) S)
    (t, f32Of (XR.add 0 (fp32Val sc.2) e))
  else (t, sc.2)

/-- The pairwise sum of LDRED (13 R327): `fuel` bounds the rounds. -/
def pairSum : Nat → List XR → XR
  | 0, l => (l[0]?).getD (.fin false 0 1)
  | fuel + 1, l =>
    match l with
    | [] => .fin false 0 1
    | [x] => x
    | _ =>
      let n := l.length
      let half := (List.range (n / 2)).map fun i => XR.r32 0 (XR.add 0 ((l[2 * i]?).getD .nan) ((l[2 * i + 1]?).getD .nan))
      pairSum fuel (if n % 2 = 1 then half ++ [(l[n - 1]?).getD .nan] else half)

end Sys2Proof.Machine
end

