-- ==== Sys2Proof/Machine/Records.lean ====
section
/-! DEFINITION. Buffer records and the conversion stage (05 R119, R120; 08 R200-R205, R435). -/

namespace Sys2Proof.Machine

open Sys2Proof (Operand W32 W64 Byte Mask SMap SMap.get? SMap.set SMap.getD SMap.modify SMap.del)

/-- A buffer record's fields (08 R200). -/
structure BufRec where
  base : Nat
  extent : Nat
  pitch : Nat
  enc : Nat
  ilv : Nat
  smode : Nat
  fslot : Nat
  sbase : Nat
  sblk : Nat
  eoff : Nat
  flags : Nat
  asid : Nat
  rsvd : Nat
deriving DecidableEq, Repr

/-- The fields of a 320-bit record (08 R200). -/
def BufRec.of (x : Nat) : BufRec :=
  { base := fld x 0 56, extent := fld x 56 40, pitch := fld x 96 32, enc := fld x 128 6, ilv := fld x 134 4, smode := fld x 138 3,
    fslot := fld x 141 3, sbase := fld x 144 56, sblk := fld x 200 12, eoff := fld x 212 20, flags := fld x 232 8, asid := fld x 240 16,
    rsvd := fld x 256 64 }

/-- Bits of an element, b. -/
def BufRec.bits (r : BufRec) : Nat := encBits r.enc
/-- Element size in whole bytes, E (05 R119). -/
def BufRec.esize (r : BufRec) : Nat := if r.bits < 8 then 1 else r.bits / 8
/-- Elements of a row, W (08 R202). -/
def BufRec.rowLen (r : BufRec) : Nat := 8 * r.pitch / r.bits

/-- Record i of a launch. -/
def State.bufRec (s : State) (launch i : Nat) : BufRec :=
  match s.launchOf launch with
  | some l => BufRec.of ((l.recs[i]?).getD 0)
  | none => BufRec.of 0

/-- The format slot a record names. -/
def State.recSlot (s : State) (launch : Nat) (r : BufRec) : Nat := ((s.lrecOf launch).slots[r.fslot]?).getD 0

/-- The malformed-descriptor checks of a record (08 R435, stage 2). -/
def BufRec.malformed (r : BufRec) (wide : Bool) : Bool :=
  r.rsvd ≠ 0 || r.flags / 16 ≠ 0 || !encAssigned r.enc || r.smode > 3 || r.ilv > 4 ||
    (!wide && (r.base / 2 ^ 32 ≠ 0 || r.sbase / 2 ^ 32 ≠ 0))

/-- The encoding-fault checks (08 R435, stage 3). -/
def BufRec.badEnc (r : BufRec) (width store : Bool) (slot : Nat) : Bool :=
  isCbEnc r.enc || !width || (store && bit r.flags 2) || (r.smode ≠ 0 && slotScale slot ≠ 1) || (store && r.smode ≠ 0)

/-- The shape-fault checks (08 R435, stage 4). -/
def BufRec.badShape (r : BufRec) : Bool :=
  (r.bits ≥ 8 && r.pitch % r.esize ≠ 0) || (r.pitch ≠ 0 && 8 * r.pitch < r.bits) ||
    (r.ilv ≠ 0 && (r.pitch = 0 || r.rowLen % 2 ^ r.ilv ≠ 0))

/-- Stages 2 to 4 of the issue checks of a record access (08 R435): `width` where the opcode moves records. -/
def State.recTrap (s : State) (launch space idx : Nat) (width store : Bool) : Option TrapRec :=
  let r := s.bufRec launch idx
  if idx ≥ (s.lrecOf launch).reccount || r.malformed (space == 0 || space == 5) then some (dataRec cDescriptor idx)
  else if r.badEnc width store (s.recSlot launch r) then some (dataRec cEncoding idx)
  else if r.badShape then some (dataRec cShape idx)
  else none

/-- An element of a record access: its first bit, whether it is inside the extent, and its scale's index (08 R202, R203). -/
structure RecElem where
  bitpos : Nat
  inside : Bool
  scale : Nat
deriving DecidableEq, Repr

/-- Element `k` of an access at effective address `x` (08 R202, R203). -/
def BufRec.elem (r : BufRec) (slot : Nat) (x : Int) (k : Nat) : RecElem :=
  let n : Int := (x - r.base) / r.esize + k
  if n < 0 then ⟨0, false, 0⟩
  else
    let m := n.toNat
    let W := r.rowLen
    let row := if r.pitch = 0 then 0 else m / W
    let col := if r.pitch = 0 then m else m % W
    let q := W / 2 ^ r.ilv
    let col2 := if r.ilv = 0 then col else col % q * 2 ^ r.ilv + col / q
    let bp := 8 * r.base + r.eoff * r.bits + 8 * r.pitch * row + col2 * r.bits
    let B := if r.sblk = 0 then slotBlk slot else r.sblk
    let idx := match r.smode with | 1 => row * ceilDiv W B + col / B | 2 => row | _ => 0
    ⟨bp, decide (bp + r.bits ≤ 8 * (r.base + r.extent)), idx⟩

/-- The byte addresses an element's bits lie in. -/
def BufRec.elemBytes (r : BufRec) (e : RecElem) : List Nat :=
  (List.range (ceilDiv (e.bitpos % 8 + r.bits) 8)).map fun i => e.bitpos / 8 + i

/-- The byte addresses of an element's scale (08 R203). -/
def BufRec.scaleBytes (r : BufRec) (e : RecElem) : List Nat :=
  if r.smode = 0 then [] else [r.sbase + 2 * e.scale, r.sbase + 2 * e.scale + 1]

/-- The bytes an access touches: those of its inside elements and of their scales. -/
def BufRec.touched (r : BufRec) (slot : Nat) (x : Int) (count : Nat) (load : Bool) : List Nat :=
  (List.range count).flatMap fun k =>
    let e := r.elem slot x k
    if e.inside then r.elemBytes e ++ (if load then r.scaleBytes e else []) else []

/-- A loaded element converted: `sc` is the BF16 scale where there is one; without it a narrower encoding widens exactly, an
infinity to an infinity (07 R174, 08 R204; DEDUCED, log 27). -/
def BufRec.widen (r : BufRec) (slot rm e : Nat) (sc : Option Nat) : W32 :=
  if isIntEnc r.enc then
    (if r.enc = encUint8 then BitVec.ofNat 32 e else BitVec.ofInt 32 (sx e r.bits))
  else
    match sc with
    | none =>
      if r.enc = encFp32 then BitVec.ofNat 32 e else BitVec.ofNat 32 (roundTo encFp32 (decodeEl r.enc e) rm false false)
    | some b => BitVec.ofNat 32 (roundTo encFp32 (XR.mul (decodeEl r.enc e) (bf16Val b)) rm (bit r.flags 0 || slotSat slot) false)

/-- A lane value narrowed for a record store (08 R205); equal encodings move bits (07 R174). -/
def BufRec.narrow (r : BufRec) (slot rm : Nat) (v : W32) : Nat :=
  let sat := bit r.flags 0 || slotSat slot
  if isIntEnc r.enc then
    (if sat then wrap (clampI v.toInt (intRange r.enc).1 (intRange r.enc).2) r.bits else v.toNat % 2 ^ r.bits)
  else if r.enc = encFp32 then v.toNat
  else roundTo r.enc (fp32Val v) rm sat (slotSubn slot && (r.enc == encFp16 || r.enc == encBf16))

end Sys2Proof.Machine
end

