-- ==== Sys2Proof/Machine/Perform.lean ====
section
/-! DEFINITION. Outstanding accesses: what each touches, the order they are performed in, and how each piece is performed
(04 R101, R102, R437; 05 R115-R126; 08 R177-R205; 09 R206-R222; 13 R299, R300, R316-R318, R320, R327). -/

namespace Sys2Proof.Machine

open Sys2Proof (Operand W32 W64 Byte Mask SMap SMap.get? SMap.set SMap.getD SMap.modify SMap.del)
open Sys2Proof.Config (dieOf)

/-- Does the kind write memory? -/
def AKind.stores : AKind → Bool
  | .store _ => true
  | .recStore _ _ => true
  | .hstore => true
  | .rmw _ _ _ => true
  | .film => true
  | .joinSub => true
  | _ => false

/-- Is the kind an atomic read-modify-write (05 R122, R125; 13 R318, R320)? -/
def AKind.atomic : AKind → Bool
  | .rmw _ _ _ => true
  | .film => true
  | .joinSub => true
  | _ => false

/-- Does STORE_PERFORM perform the kind, rather than MEMORY_RESPONSE: nothing returns to the path? -/
def AKind.silent : AKind → Bool
  | .store _ => true
  | .recStore _ _ => true
  | .hstore => true
  | .rmw _ _ ret => !ret
  | .film => true
  | .joinSub => true
  | _ => false

/-- The rights an access needs (08 R192). -/
def AKind.need (k : AKind) : Nat := if k.atomic then needAT else if k.stores then needWR else needRD

/-- The chunks of memory a piece touches, as (address, bytes), each within one sector. -/
def State.chunks (s : State) (a : Access) (p : Piece) : List (Nat × Nat) :=
  match a.kind with
  | .load n _ => [(p.addr, n)]
  | .waitRead _ => [(p.addr, 4)]
  | .store n => [(p.addr, n)]
  | .rmw _ n _ => [(p.addr, n)]
  | .film => [(p.addr, 8)]
  | .joinSub => [(p.addr, 4)]
  | .hload => [(p.addr, 64)]
  | .hstore => [(p.addr, 64)]
  | .rbox => [(p.addr, 128)]
  | .rtri _ => [(p.addr, 16), (p.addr + 16, 16), (p.addr + 32, 16)]
  | .recLoad r n =>
    let b := s.bufRec a.launch r
    (b.touched (s.recSlot a.launch b) p.addr n true).map fun x => (x, 1)
  | .recStore r n =>
    let b := s.bufRec a.launch r
    (b.touched (s.recSlot a.launch b) p.addr n false).map fun x => (x, 1)
  | .sxl g =>
    let d := TexDesc.of (ofWords ((a.extra[0]?).getD []))
    let w (i : Nat) : W32 := BitVec.ofNat 32 (p.data / 4294967296 ^ i)
    (((a.extra[1 + p.part]?).getD []).flatMap fun lam =>
      match texSpec d lam with
      | none => []
      | some sp => texTerms d g (w 0) (w 1) (w 2) sp).map fun t => (t.1, d.esize)
  | .ldred _ _ => []
  | .fence _ => []

/-- Strong accesses (09 R209). -/
def Access.strong (a : Access) : Bool := a.order != 0

/-- The name under which an access translates an address: its space, ASID and address; a record through PRV reaches the lane's
slice (08 R178). -/
def State.xlName (s : State) (a : Access) (p : Piece) (addr : Nat) : Nat × Nat × Nat :=
  if a.space = 1 then
    (0, (s.lrecOf a.launch).asid, match s.waveOf a.uid with | some w => s.sliceAddr w addr p.lane | none => 0)
  else (a.space, a.asid, if a.space = 0 || a.space = 5 then addr % 2 ^ 56 else addr)

/-- How an access asks. -/
def State.how (s : State) (a : Access) : How :=
  { strong := a.strong, atomic := a.kind.atomic, scope := reachScope a.space a.scope, multi := s.multiOf a.block }

/-- The place `d` bytes on. -/
def Loc.plus (l : Loc) (d : Nat) : Loc :=
  match l with
  | .sec h i => .sec h (i + d)
  | .spd k => .spd (k + d)
  | .gran k => .gran (k + d)
  | .peer k => .peer (k + d)

/-- The address of a block access's block, which a fault of it reports (05 R118). -/
def Access.blockAddr (a : Access) : Option Nat :=
  match a.kind, a.extra with
  | .load _ _, [lo, hi] :: _ => some (lo.toNat + 4294967296 * hi.toNat)
  | .store _, [lo, hi] :: _ => some (lo.toNat + 4294967296 * hi.toNat)
  | _, _ => none

/-- Is it a block access, which translates once and reports its block's address and the lanes of the mask (05 R118)? -/
def Access.isBlock (a : Access) : Bool := a.blockAddr.isSome

/-- Find one byte address of an access; a block is found once (05 R118). -/
def State.findFor (s : State) (a : Access) (p : Piece) (addr need : Nat) : Found :=
  if let some l := a.via then .at (l.plus (addr - (a.blockAddr.getD 0)))
  else if a.space = 1 && (s.waveOf a.uid).isNone then .fault 0x23 0
  else
    let n := s.xlName a p addr
    s.findHeld (s.how a) a.core a.launch a.block n.2.1 n.1 n.2.2 need

/-- What an LDRED takes of group `g` under a word of the directory: 0 where the directory refuses the ASID, 1 where the node does,
else 2, the node and the extent, then offset, owner and presence of each slot (13 R327; 19 R402, R403, R411). -/
def State.groupTaken (s : State) (asid g e : Nat) : List W32 :=
  let node := fld e 0 12
  let w (x : Nat) : W32 := BitVec.ofNat 32 x
  if !bit e 63 || fld e 32 16 ≠ asid then [0]
  else
    match SMap.get? s.poolGroups (node * 256 + g) with
    | none => [1]
    | some grp =>
      if grp.asid ≠ asid then [1]
      else
        [2, w node, w grp.extent, w (grp.extent / 2 ^ 32)] ++
          grp.slots.flatMap fun x => [w x.1, w (x.1 / 2 ^ 32), w x.2.1, w x.2.2.toNat]

/-- What the access of a lane of an LDRED took of its group as it was sent. -/
def Access.taken (a : Access) (lane : Nat) : Option (List W32) :=
  (a.extra.find? fun x => x.headD 0 == BitVec.ofNat 32 lane).map (·.drop 1)

/-- Are the slots of a package absent for a gang: the pool has declared it lost (17 R357)? -/
def Gang.misses (g : Gang) (pkg : Nat) : Bool := g.lost pkg || g.noted.contains pkg

/-- The slot a piece of an LDRED reads, `part` in slot order: the element's pool key and the slot's presence (13 R327; 19 R402,
R403); none where the group, the extent or the ASID refuses it. The entries are those the access took as it was sent: a later change
has no part in it, but that the presence of a slot which still has its place and owner is as the slot is read (log 52). A package
lost to the launch's own gang stays absent (17 R357). -/
def State.ldredSlot (s : State) (a : Access) (p : Piece) (g enc : Nat) : Option (Nat × Bool) :=
  match a.taken p.lane with
  | some (2 :: node :: lo :: hi :: slots) =>
    if p.addr + (if enc = encBf16 then 2 else 4) > lo.toNat + 4294967296 * hi.toNat then none
    else
      match slots.drop (4 * p.part) with
      | o0 :: o1 :: owner :: held :: _ =>
        let off := o0.toNat + 4294967296 * o1.toNat
        let now : Option (Nat × Nat × Bool) := (SMap.get? s.poolGroups (node.toNat * 256 + g)).bind fun grp => grp.slots[p.part]?
        let here : Bool := match now with
          | some x => if x.1 = off && x.2.1 = owner.toNat then x.2.2 else held != 0
          | none => held != 0
        some (node.toNat * 2 ^ 56 + off + p.addr,
          here && !((s.lrecOf a.launch).gang && (s.gangOf (s.lrecOf a.launch).gangKey).misses owner.toNat))
      | _ => some (0, false)
  | _ => none

/-- A physical name for each byte a piece touches, to tell equal locations (09 R206); an address without a translation keeps
its own name. -/
def State.placesOf (s : State) (a : Access) (p : Piece) : List (Nat × Nat) :=
  match a.kind with
  | .ldred g enc =>
    match s.ldredSlot a p g enc with
    | some (k, _) => (List.range (if enc = encBf16 then 2 else 4)).map fun i => (2, k + i)
    | none => []
  | _ =>
    (s.chunks a p).flatMap fun c =>
      let base : Nat × Nat := match s.findFor a p c.1 0 with
        | .at (.sec h i) => (h.kind, h.addr + i)
        | .at (.spd k) => (3, k)
        | .at (.gran k) => (4, k)
        | .at (.peer k) => (5, k)
        | _ => (6 + a.space, c.1)
      (List.range c.2).map fun i => (base.1, base.2 + i)

/-- The memory type of an access in the table of 09 R222: 0 on chip, 1 HBM, 2 host memory, 3 pool and moot. -/
def Access.memType (a : Access) (p : Piece) : Nat :=
  match a.space with
  | 2 => 0
  | 3 => 0
  | 4 => 0
  | 5 => 3
  | 6 => 3
  | _ => if bit p.addr 55 then 2 else 1

/-- The order kept between two strong accesses of one memory type (09 R222). -/
def keptOrder (ty : Nat) (a b : AKind) : Bool :=
  (a.loads && b.loads && ty == 0) || (a.loads && b.stores && ty ≤ 2) || (a.stores && b.stores && ty ≤ 1)

/-- Must a piece of an earlier access of the path be performed before a piece of a later one: fences, acquire and release
orders, the kept orders, and accesses to one location, on chip plain loads too, whose one point a path's accesses reach in
order (05 R126; 09 R210, R213, R222, R223)? -/
def State.mustPrecede (s : State) (a : Access) (p : Piece) (b : Access) (q : Piece) : Bool :=
  a.order == 2 || a.order == 4 || b.order == 3 || b.order == 4 ||
    (a.strong && b.strong && a.memType p == b.memType q && keptOrder (a.memType p) a.kind b.kind) ||
    ((a.kind.stores || b.kind.stores || (a.strong && b.strong) || a.memType p == 0) && (s.placesOf a p).any (s.placesOf b q).contains)

/-- Does a fence hold back a later access (05 R126)? An AR fence is an ACQ fence and a REL fence. -/
def fenceHolds (kind : Nat) (b : AKind) : Bool := kind != 2 || b.stores

/-- Change a piece of an access. -/
def State.modPiece (s : State) (id k : Nat) (f : Piece → Piece) : State :=
  { s with accs := s.accs.map fun (a : Access) => if a.id == id then { a with pieces := a.pieces.modify k f } else a }

/-- What finding every chunk of a piece answers. -/
inductive Reach where
  | ok (ls : List Loc)
  | miss (asid va : Nat)
  | fault (code data addr : Nat)
deriving DecidableEq, Repr

/-- Find every chunk of a piece: a miss waits, else the first fault counts (04 R101, R437; 08 R194);
an uncorrectable word faults a read (04 R99). -/
def State.reach (s : State) (a : Access) (p : Piece) : Reach :=
  let fs := (s.chunks a p).map fun c => (c.1, s.findFor a p c.1 a.kind.need)
  match fs.findSome? fun f => match f.2 with | .miss x v => some (x, v) | _ => none with
  | some (x, v) => .miss x v
  | none =>
    match fs.findSome? fun f => match f.2 with | .fault c d => some (c, d, f.1) | _ => none with
    | some (c, d, x) => .fault c d x
    | none =>
      let ls := fs.filterMap fun f => match f.2 with | .at l => some l | _ => none
      match (ls.zip (s.chunks a p)).find? fun x => a.kind.loads && s.locBad x.1 x.2.2 with
      | some x => .fault cMemError 0 x.2.1
      | none => .ok ls

/-- What asks, and how, for an access. -/
def Access.asker (a : Access) : Asker := { core := a.core, launch := a.launch, l2Only := a.cache == 2 }

/-- Read the chunks of a piece in order. -/
def State.readChunks (s : State) (q : Asker) (a : Access) : List (Loc × Nat) → State × List Nat
  | [] => (s, [])
  | (l, n) :: t =>
    let r := s.readLoc q (s.how a) l n
    let r2 := r.1.readChunks (q.after l) a t
    (r2.1, r.2 :: r2.2)

/-- Texels read so far by an SXL, after the descriptor and the wavelengths of its lanes: the address in two words and the value,
since each texel is read once an instruction (16 R340). -/
def Access.texels (a : Access) : List (List W32) := a.extra.drop (1 + a.pieces.length)

/-- The entry of a texel. -/
def texelAt (l : List (List W32)) (addr : Nat) : Option Nat :=
  (l.find? fun e => (e.getD 0 0).toNat + 4294967296 * (e.getD 1 0).toNat == addr).map fun e => (e.getD 2 0).toNat

/-- Read the texels of a piece, those already read not again; the texels read are remembered (16 R340). -/
def State.readTexels (s : State) (q : Asker) (a : Access) : List (Nat × Loc × Nat) → List (List W32) → State × List Nat × List (List W32)
  | [], m => (s, [], m)
  | (addr, l, n) :: t, m =>
    match texelAt m addr with
    | some v => let r := s.readTexels q a t m; (r.1, v :: r.2.1, r.2.2)
    | none =>
      let r := s.readLoc q (s.how a) l n
      let r2 := r.1.readTexels (q.after l) a t (m ++ [[BitVec.ofNat 32 addr, BitVec.ofNat 32 (addr / 4294967296), BitVec.ofNat 32 r.2]])
      (r2.1, r.2 :: r2.2.1, r2.2.2)

/-- The new value of an atomic on `n` bytes, or none where nothing is written (05 R122, R124). -/
def rmwNew (op n old data : Nat) : Option Nat :=
  let m := 2 ^ (8 * n)
  let v := data % m
  match op with
  | 0 => some ((old + v) % m)
  | 1 => some (if sx old (8 * n) ≤ sx v (8 * n) then old else v)
  | 2 => some (if sx old (8 * n) ≤ sx v (8 * n) then v else old)
  | 3 => some (min old v)
  | 4 => some (max old v)
  | 5 => some (Nat.land old v)
  | 6 => some (Nat.lor old v)
  | 7 => some (Nat.xor old v)
  | 8 => some v
  | 9 => if old = v then some (data / m % m) else none
  | _ => some (f32Of (XR.add 0 (fp32Val (BitVec.ofNat 32 old)) (fp32Val (BitVec.ofNat 32 v)))).toNat

/-- The kind of an access as it orders itself: a CAS whose compare fails now is a load only (05 R122). -/
def State.effKind (s : State) (b : Access) (q : Piece) : AKind :=
  match b.kind with
  | .rmw 9 n _ =>
    match s.reach b q with
    | .ok [l] => if (rmwNew 9 n (s.readLoc b.asker (s.how b) l n).2 q.data).isNone then .load n false else b.kind
    | _ => b.kind
  | k => k

/-- A MOOT load or atomic waits at its target for the granules it touches (05 R121, 19 R404). -/
def State.targetAbsent (s : State) (a : Access) (p : Piece) : Bool :=
  a.space == 6 && a.kind.loads &&
    match s.reach a p with
    | .ok ls => ((s.chunks a p).zip ls).any fun x => match x.2 with | .spd k => !s.presentAt k x.1.2 | _ => false
    | _ => false

/-- May a piece of an access be performed now? The lanes of an atomic go in ascending order; one that waits on its page holds back
no other (05 R123; 08 R194). -/
def State.mayPerform (s : State) (c : Access) (q : Piece) : Bool :=
  let b := { c with kind := s.effKind c q }
  !q.settled && !q.miss && !s.targetAbsent c q &&
    (!c.kind.atomic || (c.pieces.takeWhile fun p => p != q).all fun p => p.settled || p.miss) &&
    (s.earlier c).all fun a =>
      match a.kind with
      | .fence k => !fenceHolds k b.kind
      | _ => a.pieces.all fun p => p.done || !s.mustPrecede a p b q

/-- A higher lane of the instruction writes the same address: the lower lane's store is never seen (05 R116). -/
def Access.overshadowed (a : Access) (p : Piece) : Bool := a.pieces.any fun q => q.lane > p.lane && q.addr == p.addr

/-- Write one element of a record store, with what asks for its bytes: whole bytes as a plain store, parts of bytes as one
indivisible step (08 R205). -/
def State.putElem (a : Access) (p : Piece) (b : BufRec) (e : RecElem) (x : Nat) (s : State × Asker) : State × Asker :=
  (List.range (ceilDiv (e.bitpos % 8 + b.bits) 8)).foldl (fun (s : State × Asker) i =>
    match s.1.findFor a p (e.bitpos / 8 + i) needWR with
    | .at l =>
      let q := s.2.after l
      if b.bits ≥ 8 then (s.1.writeLoc s.2 (s.1.how a) l 1 (x / 256 ^ i % 256) 1, q)
      else
        let w : How := { strong := true, atomic := true, scope := 5, multi := false }
        let r := s.1.readLoc s.2 w l 1
        let shifted := x * 2 ^ (e.bitpos % 8) / 256 ^ i % 256
        let mask := (2 ^ b.bits - 1) * 2 ^ (e.bitpos % 8) / 256 ^ i % 256
        (r.1.writeLoc q w l 1 (Nat.lor (Nat.land r.2 (255 - mask)) (Nat.land shifted mask)) 1, q)
    | _ => s) s

/-- The elements of a record store piece that are performed: inside the extent, and not written by a higher lane; in PRV each lane
writes its own slice (05 R111, R116). -/
def State.recWrites (s : State) (a : Access) (p : Piece) (r n : Nat) : List (RecElem × Nat) :=
  let b := s.bufRec a.launch r
  let slot := s.recSlot a.launch b
  let higher := if a.space = 1 then [] else (a.pieces.filter fun q => q.lane > p.lane).flatMap fun q => (List.range n).map fun k => b.elem slot q.addr k
  (List.range n).filterMap fun k =>
    let e := b.elem slot p.addr k
    if e.inside && !higher.any (fun h => h.inside && h.bitpos == e.bitpos) then
      some (e, b.narrow slot a.rm (BitVec.ofNat 32 (p.data / 4294967296 ^ k)))
    else none

/-- The words a record load returns from the bytes read (08 R202-R204); outside the extent zero or an undefined value. -/
def State.recWords (s : State) (a : Access) (p : Piece) (r n seed : Nat) (bytes : List Nat) : List W32 :=
  let b := s.bufRec a.launch r
  let slot := s.recSlot a.launch b
  let step (acc : List W32 × List Nat) (k : Nat) : List W32 × List Nat :=
    let e := b.elem slot p.addr k
    if !e.inside then (acc.1 ++ [if bit b.flags 1 then 0 else Config.freeWord seed (p.lane * 4 + k)], acc.2)
    else
      let nb := (b.elemBytes e).length
      let sb := (b.scaleBytes e).length
      let raw := ofBytes (acc.2.take nb) / 2 ^ (e.bitpos % 8) % 2 ^ b.bits
      let sc := if sb = 0 then none else some (ofBytes ((acc.2.drop nb).take sb))
      (acc.1 ++ [b.widen slot a.rm raw sc], acc.2.drop (nb + sb))
  ((List.range n).foldl step ([], bytes)).1

/-- The samples SXL returns from the texels read, in the order of `chunks` (13 R317). -/
def Access.texWords (a : Access) (p : Piece) (g : Bool) (vals : List Nat) : List W32 :=
  let d := TexDesc.of (ofWords ((a.extra[0]?).getD []))
  let w (i : Nat) : W32 := BitVec.ofNat 32 (p.data / 4294967296 ^ i)
  let step (acc : List W32 × List Nat) (lam : W32) : List W32 × List Nat :=
    match texSpec d lam with
    | none => (acc.1 ++ [f32NaN], acc.2)
    | some sp =>
      let ts := texTerms d g (w 0) (w 1) (w 2) sp
      (acc.1 ++ [texSum d (List.zipWith (fun (x : Nat) (t : Nat × Nat) => (x, t.2)) (acc.2.take ts.length) ts)], acc.2.drop ts.length)
  (((a.extra[1 + p.part]?).getD []).foldl step ([], vals)).1

/-- A piece has been performed with these result words. -/
def State.pieceDone (s : State) (a : Access) (k : Nat) (ws : List W32) : State :=
  let s1 := s.modPiece a.id k fun p => { p with done := true, result := ws }
  if a.order = 2 || a.order = 4 then s1.acquireAt a.core a.launch (reachScope a.space a.scope) (s.multiOf a.block) else s1

/-- A path, or any that the fork of its wave made, as the access's thread. -/
def Access.thread (a : Access) : Nat := threadNo a.uid a.second

/-- Is the access strong at a scope that covers other waves (09 R207, R209)? -/
def Access.synchronises (a : Access) : Bool := a.strong && reachScope a.space a.scope != 0

/-- What an access that issues notes of a writer: a release what its path knows, a strong store what the path knew at a release
fence, which its performing is to leave; a release fence that its path knows it (09 R210). -/
def Access.noted (a : Access) (w : Written) : Written :=
  match a.kind with
  | .fence k => if k = 1 || a.scope = 0 then w else w.relFence a.thread
  | _ =>
    if a.kind.stores && a.synchronises && (w.relay.contains a.thread || (decide (3 ≤ a.order) && w.known.contains a.thread)) then
      { w with places := accPlace a.id :: w.places }
    else w

/-- What a piece of an access that has been performed at these places makes of a writer: a strong load reads the order left there, an
acquire takes it; a store leaves that of its own issue, and keeps what was there only as a read-modify-write (09 R210, R211). -/
def Access.passed (a : Access) (kind : AKind) (ps : List Place3) (w : Written) : Written :=
  let w1 :=
    if kind.loads && a.synchronises && ps.any w.places.contains then
      (if a.order = 2 || a.order = 4 then w.learn a.thread else { w with read := insertNat a.thread w.read })
    else w
  let w2 := if kind.stores && !kind.atomic then w1.overwrite ps else w1
  if kind.stores && w2.places.contains (accPlace a.id) then { w2 with places := ps.filter (!w2.places.contains ·) ++ w2.places } else w2

/-- Perform a piece whose chunks have been found (05 R115-R125; 08 R204, R205; 13 R299, R300, R317, R318). All elements of a lane of
a record access, and a bridge atomic on host memory towards the host's agents too, are one step (DEDUCED: log 28). -/
def State.performAt (s : State) (q : Asker) (a : Access) (k : Nat) (p : Piece) (ls : List Loc) : State :=
  let w := s.how a
  let sizes := (s.chunks a p).map (·.2)
  let r := s.readChunks q a (ls.zip sizes)
  let l0 := ls.headD (.spd 0)
  let v0 := r.2.headD 0
  match a.kind with
  | .load n sgn => r.1.pieceDone a k (if sgn then [BitVec.ofInt 32 (sx v0 (8 * n))] else toWords v0 (if n ≤ 4 then 1 else n / 4))
  | .waitRead _ => r.1.pieceDone a k (toWords v0 1)
  | .hload => r.1.pieceDone a k (toWords v0 16)
  | .recLoad i n =>
    let d := r.1.draw
    d.2.pieceDone a k (s.recWords a p i n d.1 r.2)
  | .rbox => (r.1.countCore a.core 8 8 4).pieceDone a k (rboxOut ((a.extra[p.part]?).getD []) (toWords v0 32))
  | .rtri c =>
    (r.1.countCore a.core 9 8 1).pieceDone a k (rtriOut c ((a.extra[p.part]?).getD []) (r.2.flatMap fun x => toWords x 4))
  | .sxl g =>
    let x := s.readTexels q a (((s.chunks a p).map (·.1)).zip (ls.zip sizes)) a.texels
    let t := { x.1 with accs := x.1.accs.map fun (b : Access) =>
      if b.id == a.id then { b with extra := b.extra.take (1 + b.pieces.length) ++ x.2.2 } else b }
    (t.countCore a.core 10 8 ((a.extra[1 + p.part]?).getD []).length).pieceDone a k (a.texWords p g x.2.1)
  | .store n => (if a.overshadowed p then s else s.writeLoc q w l0 n p.data (2 ^ n - 1)).pieceDone a k []
  | .hstore => (s.writeLoc q w l0 64 p.data (2 ^ 64 - 1)).pieceDone a k []
  | .recStore i n =>
    ((s.recWrites a p i n).foldl (fun (t : State × Asker) x => State.putElem a p (s.bufRec a.launch i) x.1 x.2 t) (s, q)).1.pieceDone a k []
  | .rmw op n ret =>
    let s2 := match rmwNew op n v0 p.data with
      | some x => r.1.writeLoc (q.after l0) w l0 n x (2 ^ n - 1)
      | none => r.1
    s2.pieceDone a k (if ret then toWords v0 (n / 4) else [])
  | .film =>
    let x := filmStep (BitVec.ofNat 32 v0, BitVec.ofNat 32 (v0 / 4294967296)) (BitVec.ofNat 32 p.data)
    (r.1.writeLoc (q.after l0) w l0 8 (x.1.toNat + 4294967296 * x.2.toNat) 255).pieceDone a k []
  | .joinSub => (r.1.writeLoc (q.after l0) w l0 4 ((v0 + p.data) % 4294967296) 15).pieceDone a k []
  | .ldred _ _ => s
  | .fence _ => s

/-- One slot read of a group reduction at its pool node, once its access has been sent: the element's pattern, and whether the slot
is present (13 R327; 19 R402, R403). -/
def State.performLdred (s : State) (a : Access) (k : Nat) (p : Piece) (g enc : Nat) : State :=
  if (a.taken p.lane).isNone then s
  else match s.ldredSlot a p g enc with
  | none => s.modPiece a.id k fun p => { p with fault := some ⟨cPermission, p.addr, a.word, 0⟩ }
  | some (_, false) => s.pieceDone a k [0, 0]
  | some (key, true) =>
    let s1 := s.writeBackAll false fun x => x.pool && (x.owner == a.core || x.owner == l2Of (dieOf a.core))
    s1.pieceDone a k [BitVec.ofNat 32 (localRead Config.seedPool s1.pool key (if enc = encBf16 then 2 else 4)), 1]

/-- The reduction and the status word of one lane of an LDRED, from its slot reads in slot order (13 R327). -/
def ldredWords (enc : Nat) (ps : List Piece) : List W32 :=
  let here (p : Piece) : Bool := p.result.getD 1 0 != 0
  let val (p : Piece) : XR := if here p then decodeEl enc (p.result.getD 0 0).toNat else .fin false 0 1
  let ab := (ps.filter fun p => !here p).map (·.part)
  [f32Of (pairSum 8 (ps.map val)), BitVec.ofNat 32 (ab.length % 128 + 256 * (ab.headD 255) + 65536 * ps.length)]

/-- The access as its lanes see it: the slot reads of an LDRED are one piece a lane. -/
def Access.joined (a : Access) : Access :=
  match a.kind with
  | .ldred _ enc =>
    { a with pieces := (a.pieces.filter fun p => p.part == 0).map fun p =>
        let ps := a.pieces.filter fun q => q.lane == p.lane
        match ps.find? fun q => q.fault.isSome with
        | some q => { p with done := false, fault := q.fault }
        | none => { p with done := ps.all Piece.done, result := ldredWords enc ps } }
  | _ => a

/-- The address a fault of a piece reports: a private access's own virtual address (04 R99). -/
def State.faultAddr (s : State) (a : Access) (p : Piece) : Nat :=
  if a.space = 1 then (match s.waveOf a.uid with | some w => s.sliceAddr w p.addr p.lane | none => p.addr) else p.addr

/-- A task wave whose path is already parked, whatever for, or has ended, when one of its accesses misses becomes a future too (18
R382). -/
def State.futureParked (s : State) (uid : Nat) : State :=
  match s.waveOf uid with
  | none => s
  | some w =>
    match w.pa.phase with
    | .parked _ => s.toFuture uid
    | .ending => s.toFuture uid
    | _ => s

/-- What becomes of a piece also becomes of a block access's other pieces that are not settled: its block is translated once (05
R118). -/
def State.modBlockPieces (s : State) (a : Access) (k : Nat) (f : Piece → Piece) : State :=
  if a.isBlock then
    { s with accs := s.accs.map fun (b : Access) =>
        if b.id == a.id then { b with pieces := b.pieces.map fun p => if p.settled then p else f p } else b }
  else s.modPiece a.id k f

/-- The place of a block access's block is kept (05 R118). -/
def State.keepVia (s : State) (a : Access) (p : Piece) (ls : List Loc) : State :=
  match a.blockAddr, ls with
  | some x, l :: _ =>
    let d := p.addr - x
    let base := match l with
      | .sec h i => .sec h (i - d)
      | .spd k => .spd (k - d)
      | .gran k => .gran (k - d)
      | .peer k => .peer (k - d)
    { s with accs := s.accs.map fun (b : Access) => if b.id == a.id then { b with via := some base } else b }
  | _, _ => s

/-- The sectors of cached memory that a piece touches. -/
def State.sectorsOf (s : State) (a : Access) (p : Piece) : List (Bool × Nat × Nat) :=
  match s.reach a p with
  | .ok ls => ls.filterMap fun l => match l with | .sec h _ => some (h.pool, h.asid, h.line) | _ => none
  | _ => []

/-- What names the requests of a piece: the sectors of cached memory it touches; of MOOT and of a pool window the sector its address
lies in (08 R187; 13 R327; 19 R404). -/
def State.reqKeys (s : State) (a : Access) (p : Piece) : List (Bool × Nat × Nat) :=
  match a.kind with
  | .ldred _ _ => [(true, a.asid, p.addr / 128)]
  | _ => if a.space = 6 then [(false, 0, p.addr / 128)] else s.sectorsOf a p

/-- The keys that lists of keys join to those given, over `n` rounds. -/
def joinKeys (ks : List (List (Bool × Nat × Nat))) (cur : List (Bool × Nat × Nat)) : Nat → List (Bool × Nat × Nat)
  | 0 => cur
  | n + 1 =>
    let more := ((ks.filter fun l => l.any cur.contains).flatMap id).filter fun x => !cur.contains x
    if more.isEmpty then cur else joinKeys ks (cur ++ more) n

/-- The pieces of an access whose requests a piece shares, itself among them: those that fall in one sector with it, or with one that
does (08 R187). -/
def State.mates (s : State) (a : Access) (k : Nat) : List Nat :=
  let ks := a.pieces.map (s.reqKeys a)
  let all := joinKeys ks ((ks[k]?).getD []) ks.length
  (List.range ks.length).filter fun j => j == k || ((ks[j]?).getD []).any all.contains

/-- The sectors that the pieces performed so far have asked for: the lanes that share one share its request, which is counted once
(08 R187, 20 R430). -/
def State.asked (s : State) (a : Access) : List (Bool × Nat × Nat) :=
  if s.bar.isEmpty then [] else (a.pieces.filter Piece.done).flatMap (s.sectorsOf a)

/-- Perform a piece of an access where it may be (04 R101; 05 R118, R121; 08 R187, R194, R197). -/
def State.performOne (s : State) (id k : Nat) : State :=
  match s.accs.find? fun a => a.id == id with
  | none => s
  | some a =>
    match a.pieces[k]? with
    | none => s
    | some p =>
      if !s.mayPerform a p then s
      else
        match a.kind with
        | .ldred g enc => s.performLdred a k p g enc
        | _ =>
          match s.reach a p with
          | .miss x v =>
            ((s.addMiss x v a.kind.stores.toNat a.core).modBlockPieces a k fun p => { p with miss := true }).futureParked a.uid
          | .fault c d x =>
            let addr := match a.kind with
              | .sxl _ => x
              | _ => s.faultAddr a p
            let r : TrapRec := ⟨c, addr, if c = cDeparted then d else a.word, 0⟩
            let n := s.xlName a p x
            if c = cMemError then s.modPiece id k fun p => { p with fault := some r }
            else (if n.1 = 0 || n.1 = 5 then s.countFault (dieOf a.core) n.2.1 n.2.2 c else s).modBlockPieces a k fun p => { p with fault := some r }
          | .ok ls =>
            let s1 := (s.chunks a p).foldl (fun (s : State) c =>
              let n := s.xlName a p c.1
              s.noteXlat a.core n.2.1 n.2.2 n.1) (s.keepVia a p ls)
            let s2 := if a.order = 3 || a.order = 4 then
                s1.releaseAt a.core a.launch (reachScope a.space a.scope) (s.multiOf a.block)
              else s1
            (s2.performAt { a.asker with again := s.asked a } a k p ls).modOrder
              (a.passed (s.effKind a p) ((ls.zip (s.chunks a p)).map fun x => x.1.place x.2.2))

/-- Are two pieces of an access halves of different kind, which are performed in either order (05 R117)? -/
def Access.apart (a : Access) (p q : Piece) : Bool :=
  match a.kind with
  | .load _ _ => p.part != q.part
  | .store _ => p.part != q.part
  | _ => false

/-- Perform a piece, and with it the lanes of a load or store whose requests it shares (08 R187). The halves of a b128 and the words
of a block are performed apart, in any order (05 R117). -/
def State.performPiece (s : State) (id k : Nat) : State :=
  let s1 := s.performOne id k
  match s.accs.find? fun a => a.id == id with
  | none => s1
  | some a =>
    if a.pieces.length ≤ 1 || a.kind.atomic || a.isBlock || (a.space ≠ 0 && a.space ≠ 1 && a.space ≠ 5) then s1
    else
      match a.pieces[k]? with
      | none => s1
      | some p =>
        ((s.mates a k).filter fun j => j != k && match a.pieces[j]? with | some q => !a.apart p q | none => false).foldl
          (fun (s : State) j => s.performOne id j) s1

/-- Result words a piece of an access returns. -/
def Access.wordsPer (a : Access) : Nat :=
  match a.kind with
  | .load n _ => if n ≤ 4 then 1 else n / 4
  | .recLoad _ n => n
  | .rmw _ n _ => n / 4
  | .hload => 16
  | .rbox => 8
  | .rtri _ => 4
  | .sxl _ => if a.wpk then 8 else 4
  | .ldred _ _ => 2
  | .waitRead _ => 1
  | _ => 0

/-- Write one piece's words to the destination of its access (05 R111, R131; 08 R187; 13 R309). -/
def Wave.land (w : Wave) (a : Access) (p : Piece) (ws : List W32) : Wave :=
  match a.dst with
  | [] => w
  | (Cls.w, i) :: _ => (ws.zipIdx).foldl (fun w x => w.setW i p.lane x.2 x.1) w
  | (Cls.h, i) :: _ => w.setH i (BitVec.ofNat 512 (ofWords ws))
  | _ =>
    let off := match a.kind with | .load _ _ => p.part * a.wordsPer | _ => 0
    ((a.dst.drop off).zip ws).foldl (fun w x => w.setReg x.1 p.lane x.2) w

/-- Write every piece's result at once; a faulted piece gives undefined values (04 R101, 08 R187). -/
def Wave.landAll (w : Wave) (a : Access) (seed : Nat) : Wave :=
  a.pieces.foldl (fun w p =>
    w.land a p (if p.done then p.result
      else (List.range a.wordsPer).map fun j => Config.freeWord seed (p.lane * 64 + p.part * 16 + j))) w

/-- The one trap record of an access's faults: that of the lowest faulting lane, with every faulting lane (04 R437); a block
access reports its block's address and every lane of its mask (05 R118). -/
def Access.faultRec (a : Access) : Option TrapRec :=
  match leastBy (fun (p : Piece) => [p.lane, p.part]) (a.pieces.filter fun p => p.fault.isSome) with
  | none => none
  | some p =>
    p.fault.map fun r =>
      let addr := a.blockAddr.getD (match a.kind with
        | .load _ _ => if p.addr = r.addr then p.addr - 8 * p.part else r.addr
        | _ => r.addr)
      { r with addr := addr, lanes := if a.scalar then 0 else maskOfList ((a.pieces.filter fun p => a.isBlock || p.fault.isSome).map (·.lane)) }

/-- The word of a WAIT's condition has arrived (05 R155, 19 R400). -/
def PathSt.gotWord (p : PathSt) (k : Nat) (x : W32) : PathSt :=
  match p.phase with
  | .parked (.wait w) => { p with phase := .parked (.wait { w with reads := (k, x) :: w.reads }) }
  | _ => p

/-- Are the faults of an access not taken: of an aborted launch, or of a wave that END has ended in trap mode (03 R86, 18 R366)? -/
def State.takesNone (s : State) (a : Access) : Bool :=
  s.abortedL a.launch || match s.waveOf a.uid with | some w => w.tm && w.ended | none => true

/-- A path's access has a fault to take at its slot boundary (04 R101). -/
def State.pendFault (s : State) (a : Access) (r : TrapRec) : State :=
  if s.takesNone a then { s with accs := s.accs.filter fun b => b.id != a.id }
  else s.updPath a.uid a.second fun p => { p with pend := p.pend ++ [r] }

/-- Conclude an access all of whose pieces are settled: its destination is written together, its fault waits for the slot
boundary (04 R101, R437; 08 R187). -/
def State.settle (s : State) (id : Nat) : State :=
  match s.accs.find? fun a => a.id == id with
  | none => s
  | some a =>
    if !a.settled then s
    else
      let gone := { s with accs := s.accs.filter fun b => b.id != id }
      match a.kind with
      | .joinSub =>
        if a.faultRec.isSome then gone.modLaunch a.launch fun l => { l with joinLost := l.joinLost + 1 } else gone
      | _ =>
        match a.faultRec with
        | none =>
          (match a.kind with
            | .waitRead k => gone.updPath a.uid a.second fun p => p.gotWord k ((a.pieces.flatMap Piece.result).headD 0)
            | _ => if a.dst.isEmpty then gone else gone.modWave a.uid fun w => w.landAll a.joined 0).settleFences.tryFinish a.uid
        | some r =>
          let d := s.draw
          let s1 := if a.dst.isEmpty then s else d.2.modWave a.uid fun w => w.landAll a.joined d.1
          let s2 := { s1 with accs := s1.accs.map fun (b : Access) => if b.id == id then { b with dst := [] } else b }
          (s2.pendFault a r).settleFences.tryFinish a.uid

/-- Perform pieces of an access in the order given, and conclude it where all are settled. -/
def State.performPieces (s : State) (id : Nat) (ks : List Nat) : State :=
  match s.accs.find? fun a => a.id == id with
  | some a => if a.settled then s else (ks.foldl (fun (s : State) k => s.performPiece id k) s).settle id
  | none => s

/-- Is the access of an id one that STORE_PERFORM performs? -/
def State.silentAcc (s : State) (id : Nat) : Bool :=
  match s.accs.find? fun a => a.id == id with
  | some a => a.kind.silent
  | none => false

end Sys2Proof.Machine
end

