-- ==== Sys2Proof/Machine/Mem.lean ====
section
/-! DEFINITION. The memory instructions at issue: LD, ST, LDB, STB, LDL, STL, ATOM, RED, FENCE, CINV, CFLUSH, PREF, HLD, HST,
HSETF, HGETF and FILMADD (02 R82, R83; 05 R111-R132; 13 R318). -/

namespace Sys2Proof.Machine

open Sys2Proof (Operand RF MF FenceF W32 W64 Byte Mask SMap SMap.get? SMap.set SMap.getD SMap.modify SMap.del)
open Sys2Proof.Config (dieOf)

/-- The offset of the instruction word in progress. -/
def State.wordOff (s : State) : Nat := (s.cw.pa.here + 8 * (s.cw.pa.slot + 1)) % 2 ^ 32

/-- Is an access of these operands a scalar access, and which lanes take part (05 R111)? -/
def State.accessLanes (s : State) (data addr : Operand) : Bool × List Nat :=
  if clsOf data == Cls.v || clsOf addr == Cls.v then (false, s.active false) else (true, [0])

/-- The effective address of a lane (01 R29): 64 bits in DEV and POOL, an unbounded integer in the other spaces. -/
def State.effAddr (s : State) (addr : Operand) (space : Nat) (off : BitVec 16) (e l : Nat) : Int :=
  if addrRegs space = 2 then ((s.rd64L addr l).toNat + off.toInt * e) % 2 ^ 64 else (s.rdL addr l).toNat + off.toInt * e

/-- Are `n` bytes outside the scratchpad, the cluster memory or the granary as a block sees them (08 R176, R177; 13 R319)? -/
def State.outOfRangeB (s : State) (block space : Nat) (x : Int) (n : Nat) : Bool :=
  let a := x.toNat
  let spd := s.spdOf block
  match space with
  | 2 => x < 0 || a + n > spd
  | 3 =>
    let cores := match SMap.get? s.blocks block with | some b => b.cores | none => []
    x < 0 || a ≥ 2 ^ 23 || !cores.any (fun c => Config.posOf c == a / 2 ^ 20) || a % 2 ^ 20 + n > spd
  | _ => x < 0 || a + n > Config.granSize

/-- Is an access of `n` bytes outside its space's range (08 R176, R177; 13 R319; 19 R404)? -/
def State.outOfRange (s : State) (space : Nat) (x : Int) (n : Nat) : Bool :=
  let a := x.toNat
  match space with
  | 0 => false
  | 5 => false
  | 1 => x < 0 || a + n > s.lrec.privbytes
  | 6 => x < 0 || a / 2 ^ 20 ≥ (s.lrec.gpkgs + 1) * (s.lrec.gridx * s.lrec.gridy * s.lrec.gridz) || a % 2 ^ 20 + n > s.spdOf s.cw.block
  | 7 => true
  | _ => s.outOfRangeB s.cw.block space x n

/-- May a wave of the block use MOOT (13 R328, R329)? A task wave's accesses fail their range instead (13 R319). -/
def State.mootOpen (s : State) : Bool :=
  match s.blk with
  | some b => b.isTask || (b.attached && !b.detached)
  | none => false

/-- The spaces every LD and ST takes, those of atomics and blocks, of shape registers and of films (05 R113, 13 R318). -/
def allSpaces : List Nat := [0, 1, 2, 3, 4, 5, 6]
def sharedSpaces : List Nat := [0, 2, 3, 4, 5, 6]
def hSpaces : List Nat := [0, 2, 3, 4]

/-- The address a trap record holds: 32 bits in the 32-bit spaces (04 R99). -/
def trapAddr (space : Nat) (x : Int) : Nat := if addrRegs space = 2 then (x % 2 ^ 64).toNat else (x % 2 ^ 32).toNat

/-- Is the space refused (05 R112, R113; 13 R328)? The trap's TADDR and TLANES are 0, as the dashes of 04 R99 have it (log 55). -/
def State.badSpace (s : State) (ok : List Nat) (space : Nat) : Bool := !ok.contains space || (space == 6 && !s.mootOpen)

/-- The checks of every lane, alignment before range; the lowest faulting lane is reported (05 R112, 04 R437). -/
def laneTrap (space : Nat) (scalar : Bool) (xs : List (Nat × Int)) (misaligned : Int → Bool) (outside : Int → Bool) :
    Option TrapRec :=
  let bad := xs.filter fun x => misaligned x.2 || outside x.2
  match bad with
  | [] => none
  | x :: _ =>
    let lanes := if scalar then 0 else maskOfList (bad.map (·.1))
    some ⟨if misaligned x.2 then cAlign else cRange, trapAddr space x.2, 0, lanes⟩

/-- A piece not yet performed. -/
def Piece.fresh (lane part addr data : Nat) : Piece :=
  { lane := lane, part := part, addr := addr, data := data, done := false, result := [], miss := false, fault := none }

/-- An access of the path in focus, with what it captures at issue (04 R101). -/
def State.newAcc (s : State) (kind : AKind) (space scope order cache asid : Nat) (scalar : Bool) (dst : List (Cls × Nat))
    (extra : List (List W32)) (pieces : List Piece) : Access :=
  { id := s.nextId, uid := s.cw.uid, second := s.cw.second, both := false, core := s.cw.core, launch := s.cw.launch, block := s.cw.block,
    kind := kind, space := space, scope := scope, order := order, cache := cache, asid := asid, word := s.wordOff, rm := s.cw.rm,
    ftz := s.cw.ftz, wpk := s.cw.wpk, scalar := scalar, dst := dst, extra := extra, pieces := pieces, since := s.ref, sent := [] }

/-- The path in focus notes that it has written `n` bytes of scratchpad at each key, which no operation reads in order before an
MFENCE.OP (10 R245). -/
def State.noteStored (s : State) (ks : List (Nat × Nat)) : State :=
  s.onPa fun p => { p with unfenced := ks.foldl (fun m k => (List.range k.2).foldl (fun m i => SMap.set m (2 * (k.1 + i)) ()) m) p.unfenced }

/-- The scratchpad bytes an access stores to, as keys and lengths. -/
def State.storedBytes (s : State) (a : Access) : List (Nat × Nat) :=
  if !a.kind.stores || (a.space ≠ 2 && a.space ≠ 3) then []
  else
    a.pieces.flatMap fun p => (s.chunks a p).filterMap fun c =>
      match s.findFor a p c.1 0 with
      | .at (.spd k) => some (k, c.2)
      | _ => none

/-- List an access of the path in focus (04 R101). -/
def State.addAcc (s : State) (kind : AKind) (space scope order cache asid : Nat) (scalar : Bool) (dst : List (Cls × Nat))
    (extra : List (List W32)) (pieces : List Piece) : State :=
  let a := s.newAcc kind space scope order cache asid scalar dst extra pieces
  let t := { (s.newId).2.modOrder a.noted with accs := s.accs ++ [a] }
  match s.storedBytes a with
  | [] => t
  | ks => t.noteStored ks

/-- The bytes of a lane access of scratchpad whose granules are absent; a MOOT access waits at its target (05 R121, 19 R404). -/
def State.granulesNeed (s : State) (space : Nat) (xs : List (Nat × Int)) (n : Nat) : List (Nat × Nat) :=
  if space = 2 || space = 3 then
    xs.filterMap fun x =>
      match s.find s.cw.core s.cw.launch s.cw.block 0 space x.2.toNat 0 with
      | .at (.spd k) => if s.presentAt k n then none else some (k, n)
      | _ => none
  else []

/-- The granules a lane access touches are present, or the instruction does not wait for presence (05 R121). -/
def State.granulesOk (s : State) (space : Nat) (xs : List (Nat × Int)) (n : Nat) : Bool := (s.granulesNeed space xs n).isEmpty

/-- Pieces of `n` bytes at lane addresses: 16 bytes are two halves (05 R117); PRV lies in the lane's slice (08 R178). -/
def State.lanePieces (s : State) (space : Nat) (xs : List (Nat × Int)) (n : Nat) (data : Nat → Nat) : List Piece :=
  xs.flatMap fun x =>
    let a := if space = 1 then s.sliceAddr s.cw x.2.toNat x.1 else if addrRegs space = 2 then x.2.toNat % 2 ^ 56 else x.2.toNat
    if n = 16 then [Piece.fresh x.1 0 a (data x.1 % 2 ^ 64), Piece.fresh x.1 1 (a + 8) (data x.1 / 2 ^ 64)]
    else [Piece.fresh x.1 0 a (data x.1)]

/-- A plain, strong or atomic access without a record: its checks, and then the access (05 R111-R125). -/
def State.memAccess (s : State) (f : MF) (kind : AKind) (e : Nat) (ok : List Nat) (dst : List (Cls × Nat)) (data : Nat → Nat) : State :=
  let sp := f.space.val
  let who := s.accessLanes f.data f.addr
  let xs := who.2.map fun l => (l, s.effAddr f.addr sp f.off e l)
  if xs.isEmpty then s.slotDone
  else if s.badSpace ok sp then s.trapHere (plainRec cSpace)
  else
    match laneTrap sp who.1 xs (fun x => x % e != 0) (fun x => s.outOfRange sp x e) with
    | some r => s.trapHere r
    | none =>
      if kind.loads && !s.granulesOk sp xs e then s.park (.granule (s.granulesNeed sp xs e))
      else
        (s.addAcc kind (if sp = 1 then 0 else sp) f.scope.val f.order.val f.cache.val s.lrec.asid who.1 dst []
          (s.lanePieces sp xs e data)).slotDone

/-- An access through a buffer record (05 R119, R120; 08 R200-R205, R435). -/
def State.recAccess (s : State) (f : MF) (n : Nat) (store width : Bool) (ok : List Nat) : State :=
  let sp := f.space.val
  let who := s.accessLanes f.data f.addr
  if who.2.isEmpty then s.slotDone
  else if s.badSpace ok sp then s.trapHere (plainRec cSpace)
  else
    match s.recTrap s.cw.launch sp f.rcd.val width store with
    | some r => s.trapHere r
    | none =>
      let b := s.bufRec s.cw.launch f.rcd.val
      let slot := s.recSlot s.cw.launch b
      let norm (x : Int) : Int := if addrRegs sp = 2 then x % 2 ^ 56 else x
      let xs := who.2.map fun l => (l, norm (s.effAddr f.addr sp f.off b.esize l))
      let outside (x : Int) : Bool :=
        s.outOfRange sp x b.esize || (b.touched slot x n (!store)).any fun y => s.outOfRange sp y 1
      match laneTrap sp who.1 xs (fun x => (x - b.base) % b.esize != 0) outside with
      | some r => s.trapHere r
      | none =>
        let touched := xs.flatMap fun x => (b.touched slot x.2 n (!store)).map fun (y : Nat) => (x.1, (y : Int))
        if !store && !s.granulesOk sp touched 1 then s.park (.granule (s.granulesNeed sp touched 1))
        else
          let cache := if f.cache.val = 0 && bit b.flags 3 then 2 else f.cache.val
          let asid := if addrRegs sp = 2 then b.asid else s.lrec.asid
          let kind : AKind := if store then .recStore f.rcd.val n else .recLoad f.rcd.val n
          (s.addAcc kind sp f.scope.val f.order.val cache asid who.1 (if store then [] else s.regsOf f.data n) []
            (xs.map fun x => Piece.fresh x.1 0 x.2.toNat (ofWords (s.rdWords f.data n x.1)))).slotDone

/-- LD of `e` bytes (05 R115). -/
def State.load (s : State) (f : MF) (e : Nat) (sgn : Bool) : State :=
  if f.rcd.val = 255 then s.memAccess f (.load (if e = 16 then 8 else e) sgn) e allSpaces (s.regsOf f.data (ceilDiv e 4)) fun _ => 0
  else s.recAccess f (ceilDiv e 4) false (e ≥ 4) allSpaces

/-- The value a lane stores or combines, `n` bytes (01 R36, 05 R111). -/
def State.storeData (s : State) (o : Operand) (n l : Nat) : Nat := ofWords (s.rdWords o (ceilDiv n 4) l) % 2 ^ (8 * n)

/-- ST of `e` bytes (05 R116). -/
def State.store (s : State) (f : MF) (e : Nat) : State :=
  if f.rcd.val = 255 then s.memAccess f (.store (if e = 16 then 8 else e)) e allSpaces [] fun l => s.storeData f.data e l
  else s.recAccess f (ceilDiv e 4) true (e ≥ 4) allSpaces

/-- LD.zx8 (05 R115). -/
def execLdZx8 (f : MF) (s : State) : Res := .next (s.load f 1 false)
/-- LD.sx8 (05 R115). -/
def execLdSx8 (f : MF) (s : State) : Res := .next (s.load f 1 true)
/-- LD.zx16 (05 R115). -/
def execLdZx16 (f : MF) (s : State) : Res := .next (s.load f 2 false)
/-- LD.sx16 (05 R115). -/
def execLdSx16 (f : MF) (s : State) : Res := .next (s.load f 2 true)
/-- LD.b32 (05 R115). -/
def execLdB32 (f : MF) (s : State) : Res := .next (s.load f 4 false)
/-- LD.b64 (05 R115). -/
def execLdB64 (f : MF) (s : State) : Res := .next (s.load f 8 false)
/-- LD.b128 (05 R115). -/
def execLdB128 (f : MF) (s : State) : Res := .next (s.load f 16 false)
/-- ST.b8 (05 R116). -/
def execStB8 (f : MF) (s : State) : Res := .next (s.store f 1)
/-- ST.b16 (05 R116). -/
def execStB16 (f : MF) (s : State) : Res := .next (s.store f 2)
/-- ST.b32 (05 R116). -/
def execStB32 (f : MF) (s : State) : Res := .next (s.store f 4)
/-- ST.b64 (05 R116). -/
def execStB64 (f : MF) (s : State) : Res := .next (s.store f 8)
/-- ST.b128 (05 R116). -/
def execStB128 (f : MF) (s : State) : Res := .next (s.store f 16)

/-- LDB and STB: one 128-byte block, a word a lane of the mask (05 R118). -/
def State.blockAccess (s : State) (f : MF) (store : Bool) : State :=
  let sp := f.space.val
  let lanes := s.active false
  let x := s.effAddr f.addr sp f.off 128 0
  if lanes.isEmpty then s.slotDone
  else if s.badSpace sharedSpaces sp then s.trapHere (plainRec cSpace)
  else
    match laneTrap sp false (lanes.map fun l => (l, x)) (fun x => x % 128 != 0) (fun x => s.outOfRange sp x 128) with
    | some r => s.trapHere r
    | none =>
      if !store && !s.granulesOk sp [(0, x)] 128 then s.park (.granule (s.granulesNeed sp [(0, x)] 128))
      else
        let a := if addrRegs sp = 2 then x.toNat % 2 ^ 56 else x.toNat
        (s.addAcc (if store then .store 4 else .load 4 false) sp 0 0 f.cache.val s.lrec.asid false
          (if store then [] else s.regsOf f.data 1) [[BitVec.ofNat 32 a, BitVec.ofNat 32 (a / 4294967296)]]
          (lanes.map fun l => Piece.fresh l 0 (a + 4 * l) (s.rdL f.data l).toNat)).slotDone

/-- LDB (05 R118). -/
def execLdb (f : MF) (s : State) : Res := .next (s.blockAccess f false)
/-- STB (05 R118). -/
def execStb (f : MF) (s : State) : Res := .next (s.blockAccess f true)

/-- LDL and STL of `e` bytes: CACHE bit 0 is ALL, bit 1 the trap area (02 R82, 08 R178). -/
def State.privAccess (s : State) (f : MF) (e : Nat) (store : Bool) : State :=
  let ta := f.cache.val ≥ 2
  let lanes := s.active (f.cache.val % 2 == 1)
  let limit := if ta then 512 else s.lrec.privbytes
  let xs := lanes.map fun l => (l, s.effAddr f.addr 1 f.off e l)
  match laneTrap 1 false xs (fun x => x % e != 0) (fun x => x < 0 || x.toNat + e > limit) with
  | some r => s.trapHere r
  | none =>
    if xs.isEmpty then s.slotDone
    else
      let base := if ta then s.lrec.privbytes else 0
      let n := if e = 16 then 8 else e
      (s.addAcc (if store then .store n else .load n false) 0 0 0 0 s.lrec.asid false (if store then [] else s.regsOf f.data (e / 4)) []
        (s.lanePieces 1 (xs.map fun x => (x.1, x.2 + base)) e fun l => s.storeData f.data e l)).slotDone

/-- LDL.b32 (02 R82). -/
def execLdlB32 (f : MF) (s : State) : Res := .next (s.privAccess f 4 false)
/-- LDL.b64 (02 R82). -/
def execLdlB64 (f : MF) (s : State) : Res := .next (s.privAccess f 8 false)
/-- LDL.b128 (02 R82). -/
def execLdlB128 (f : MF) (s : State) : Res := .next (s.privAccess f 16 false)
/-- STL.b32 (02 R82). -/
def execStlB32 (f : MF) (s : State) : Res := .next (s.privAccess f 4 true)
/-- STL.b64 (02 R82). -/
def execStlB64 (f : MF) (s : State) : Res := .next (s.privAccess f 8 true)
/-- STL.b128 (02 R82). -/
def execStlB128 (f : MF) (s : State) : Res := .next (s.privAccess f 16 true)

/-- ATOM of operation `op` on `n` bytes; CAS takes a compare and a new value (05 R122). -/
def State.atom (s : State) (f : MF) (op n : Nat) : State :=
  s.memAccess f (.rmw op n true) n sharedSpaces (s.regsOf f.data (n / 4)) fun l => s.storeData f.data (if op = 9 then 2 * n else n) l

/-- ATOM.ADD (05 R122). -/
def execAtomAdd (f : MF) (s : State) : Res := .next (s.atom f 0 4)
/-- ATOM.SMIN (05 R122). -/
def execAtomSmin (f : MF) (s : State) : Res := .next (s.atom f 1 4)
/-- ATOM.SMAX (05 R122). -/
def execAtomSmax (f : MF) (s : State) : Res := .next (s.atom f 2 4)
/-- ATOM.UMIN (05 R122). -/
def execAtomUmin (f : MF) (s : State) : Res := .next (s.atom f 3 4)
/-- ATOM.UMAX (05 R122). -/
def execAtomUmax (f : MF) (s : State) : Res := .next (s.atom f 4 4)
/-- ATOM.AND (05 R122). -/
def execAtomAnd (f : MF) (s : State) : Res := .next (s.atom f 5 4)
/-- ATOM.OR (05 R122). -/
def execAtomOr (f : MF) (s : State) : Res := .next (s.atom f 6 4)
/-- ATOM.XOR (05 R122). -/
def execAtomXor (f : MF) (s : State) : Res := .next (s.atom f 7 4)
/-- ATOM.XCHG (05 R122). -/
def execAtomXchg (f : MF) (s : State) : Res := .next (s.atom f 8 4)
/-- ATOM.CAS (05 R122). -/
def execAtomCas (f : MF) (s : State) : Res := .next (s.atom f 9 4)
/-- ATOM.FADD (05 R124). -/
def execAtomFadd (f : MF) (s : State) : Res := .next (s.atom f 10 4)
/-- ATOM.ADD.b64 (05 R122). -/
def execAtomAddB64 (f : MF) (s : State) : Res := .next (s.atom f 0 8)
/-- ATOM.UMIN.b64 (05 R122). -/
def execAtomUminB64 (f : MF) (s : State) : Res := .next (s.atom f 3 8)
/-- ATOM.UMAX.b64 (05 R122). -/
def execAtomUmaxB64 (f : MF) (s : State) : Res := .next (s.atom f 4 8)
/-- ATOM.XCHG.b64 (05 R122). -/
def execAtomXchgB64 (f : MF) (s : State) : Res := .next (s.atom f 8 8)
/-- ATOM.CAS.b64 (05 R122). -/
def execAtomCasB64 (f : MF) (s : State) : Res := .next (s.atom f 9 8)

/-- RED of operation `op` on `n` bytes; through a record it is an encoding fault (05 R119, R125). -/
def State.red (s : State) (f : MF) (op n : Nat) : State :=
  if f.rcd.val = 255 then s.memAccess f (.rmw op n false) n sharedSpaces [] fun l => s.storeData f.data n l
  else s.recAccess f 1 true false sharedSpaces

/-- RED.ADD (05 R125). -/
def execRedAdd (f : MF) (s : State) : Res := .next (s.red f 0 4)
/-- RED.SMIN (05 R125). -/
def execRedSmin (f : MF) (s : State) : Res := .next (s.red f 1 4)
/-- RED.SMAX (05 R125). -/
def execRedSmax (f : MF) (s : State) : Res := .next (s.red f 2 4)
/-- RED.UMIN (05 R125). -/
def execRedUmin (f : MF) (s : State) : Res := .next (s.red f 3 4)
/-- RED.UMAX (05 R125). -/
def execRedUmax (f : MF) (s : State) : Res := .next (s.red f 4 4)
/-- RED.AND (05 R125). -/
def execRedAnd (f : MF) (s : State) : Res := .next (s.red f 5 4)
/-- RED.OR (05 R125). -/
def execRedOr (f : MF) (s : State) : Res := .next (s.red f 6 4)
/-- RED.XOR (05 R125). -/
def execRedXor (f : MF) (s : State) : Res := .next (s.red f 7 4)
/-- RED.FADD (05 R124). -/
def execRedFadd (f : MF) (s : State) : Res := .next (s.red f 10 4)
/-- RED.ADD.b64 (05 R125). -/
def execRedAddB64 (f : MF) (s : State) : Res := .next (s.red f 0 8)

/-- FILMADD (13 R318). -/
def execFilmadd (f : MF) (s : State) : Res :=
  .next (s.memAccess f .film 8 hSpaces [] fun l => (s.rdL f.data l).toNat)

/-- The fences a FENCE is made of: AR is an ACQ and a REL, which leaves earlier stores and later loads free (05 R126). -/
def fenceKinds (kind : Nat) : List Nat := if kind = 0 then [1, 2] else [kind]

/-- FENCE: an entry among the path's accesses, over at once where it orders nothing outstanding (05 R126). -/
def execFence (f : FenceF) (s : State) : Res :=
  .next ((fenceKinds f.kind.val).foldl (fun (s : State) k => s.addAcc (.fence k) 0 f.scope.val 0 0 0 true [] [] []) s).settleFences.slotDone

/-- The sectors of the cache line of an address that the core's L1 holds, and where `l2` the die's L2 too (05 R127, 08 R184). -/
def lineOf (core asid line : Nat) (pool l2 : Bool) (x : Sector) : Bool :=
  x.pool == pool && x.asid == asid && x.line / 4 == line / 4 && (x.owner == core || (l2 && x.owner == l2Of (dieOf core)))

/-- The canonical name of an address as the filter and the tables give it; its own where no translation is left (08 R197). -/
def State.nameOf (s : State) (core asid va : Nat) (pool : Bool) : Nat × Nat :=
  match s.xlateG pool (dieOf core) asid va 0 with
  | .ok _ ca cv => (ca, cv)
  | _ => (asid, va)

/-- The unsettled accesses of the path in focus that a test selects. -/
def State.unsettled (s : State) (sel : Access → Bool) : List Nat :=
  (s.accs.filter fun a => a.ofPath s.cw.uid s.cw.second && !a.settled && sel a).map (·.id)

/-- CINV and CFLUSH on each line named, after the path's earlier stores have been performed (05 R127). -/
def State.cacheLines (s : State) (f : MF) (drop : Bool) : State :=
  let sp := f.space.val
  let lanes := if clsOf f.addr == Cls.v then s.active false else [0]
  let wait := s.unsettled fun a => a.kind.stores && (a.space == 0 || a.space == 1 || a.space == 5)
  if lanes.isEmpty then s.slotDone
  else if s.badSpace [0, 5] sp then s.trapHere (plainRec cSpace)
  else if !wait.isEmpty then s.park (.accesses wait)
  else
    (lanes.foldl (fun (s : State) l =>
      let va := (s.effAddr f.addr sp f.off 1 l).toNat % 2 ^ 56
      let n := s.nameOf s.cw.core s.lrec.asid va (sp == 5)
      s.writeBackAll drop (lineOf s.cw.core n.1 (n.2 / 128) (sp == 5) (f.cache.val == 2))) s).slotDone

/-- CINV (05 R127). -/
def execCinv (f : MF) (s : State) : Res := .next (s.cacheLines f true)
/-- CFLUSH (05 R127). -/
def execCflush (f : MF) (s : State) : Res := .next (s.cacheLines f false)

/-- PREF: fill the line of each active lane's address; what has no translation is dropped (05 R128, 08 R192). -/
def State.prefetch (s : State) (f : MF) : State :=
  let sp := f.space.val
  let lanes := if clsOf f.addr == Cls.v then s.active false else [0]
  if lanes.isEmpty then s.slotDone
  else if s.badSpace [0, 5] sp then s.trapHere (plainRec cSpace)
  else
    let q : Asker := { core := s.cw.core, launch := s.cw.launch, l2Only := f.cache.val == 2 }
    (lanes.foldl (fun (s : State) l =>
      let va := (s.effAddr f.addr sp f.off 1 l).toNat % 2 ^ 56 / 512 * 512
      (List.range 4).foldl (fun (s : State) k =>
        match s.find s.cw.core s.cw.launch s.cw.block s.lrec.asid sp (va + 128 * k) needRD with
        | .at (.sec h _) => (s.noteXlat s.cw.core s.lrec.asid (va + 128 * k) sp).bring q h .l1
        | _ => s) s) s).slotDone

/-- PREF (05 R128). -/
def execPref (f : MF) (s : State) : Res := .next (s.prefetch f)

/-- HLD and HST: one access of 64 bytes, whatever the mask (05 R131). -/
def State.shapeAccess (s : State) (f : MF) (store : Bool) : State :=
  let sp := f.space.val
  let x := s.effAddr f.addr sp f.off 64 0
  if s.badSpace hSpaces sp then s.trapHere (plainRec cSpace)
  else
    match laneTrap sp true [(0, x)] (fun x => x % 64 != 0) (fun x => s.outOfRange sp x 64) with
    | some r => s.trapHere r
    | none =>
      if !store && !s.granulesOk sp [(0, x)] 64 then s.park (.granule (s.granulesNeed sp [(0, x)] 64))
      else
        let a := if addrRegs sp = 2 then x.toNat % 2 ^ 56 else x.toNat
        (s.addAcc (if store then .hstore else .hload) sp 0 0 f.cache.val s.lrec.asid true (if store then [] else s.regsOf f.data 1) []
          [Piece.fresh 0 0 a (if store then (s.cw.hreg (idxOf f.data)).toNat else 0)]).slotDone

/-- HLD (05 R131). -/
def execHld (f : MF) (s : State) : Res := .next (s.shapeAccess f false)
/-- HST (05 R131). -/
def execHst (f : MF) (s : State) : Res := .next (s.shapeAccess f true)

/-- The low bit and width of the shape field SUB selects (05 R129, R132). -/
def shapeField (sub : Nat) : Nat × Nat :=
  match sub with
  | 0 => (0, 56)
  | 1 => (56, 3)
  | 2 => (59, 3)
  | 3 => (64, 6)
  | 4 => (70, 20)
  | 5 => (90, 3)
  | 6 => (93, 2)
  | 7 => (96, 16)
  | _ => if sub ≤ 12 then (128 + 24 * (sub - 8), 24) else if sub ≤ 16 then (256 + 40 * (sub - 13), 40) else (416 + 12 * (sub - 17), 12)

/-- The fields of 64 bits in HSETF and HGETF (05 R132). -/
def shapeWide (sub : Nat) : Bool := sub == 0 || (13 ≤ sub && sub ≤ 16)

/-- Replace bits [lo+n-1 : lo] of a shape register. -/
def setBits512 (h : BitVec 512) (lo n x : Nat) : BitVec 512 :=
  let m : BitVec 512 := BitVec.ofNat 512 ((2 ^ n - 1) * 2 ^ lo)
  (h &&& ~~~m) ||| (BitVec.ofNat 512 (x % 2 ^ n * 2 ^ lo))

/-- HSETF (05 R132). -/
def execHsetf (f : RF) (s : State) : Res :=
  let r := shapeField f.sub.val
  let x := if shapeWide f.sub.val then (s.rd64 f.a).toNat else (s.rdS f.a).toNat
  .next (s.onWave fun w => w.setH (idxOf f.dst) (setBits512 (w.hreg (idxOf f.dst)) r.1 r.2 x)).slotDone

/-- HGETF (05 R132). -/
def execHgetf (f : RF) (s : State) : Res :=
  let r := shapeField f.sub.val
  let x := fld (s.cw.hreg (idxOf f.a)).toNat r.1 r.2
  .next (if shapeWide f.sub.val then s.wr64 f.dst (BitVec.ofNat 64 x) else s.wrS f.dst (BitVec.ofNat 32 x)).slotDone

end Sys2Proof.Machine
end

