-- ==== Sys2Proof/Machine/Shape.lean ====
section
/-! DEFINITION. Shape registers, the walks of the copies, tile moves and drains over elements, and how an asynchronous operation
reads and writes an element (05 R129, R134-R137, R141, R436; 10 R239-R242, R257). -/

namespace Sys2Proof.Machine

open Sys2Proof (Operand W32 W64 Byte Mask SMap SMap.get? SMap.set SMap.getD SMap.modify SMap.del)

/-- A shape register's fields (05 R129); `strides` has 0 for dimension 0. -/
structure Shp where
  base : Nat
  space : Nat
  rank : Nat
  enc : Nat
  eoff : Nat
  fslot : Nat
  fill : Nat
  rsvd : Bool
  dims : List Nat
  strides : List Nat
  boxes : List Nat
deriving DecidableEq, Repr

/-- The fields of a shape register (05 R129); `rsvd` where a reserved field or FLAGS is not zero. -/
def Shp.of (h : BitVec 512) : Shp :=
  let x := h.toNat
  { base := fld x 0 56, space := fld x 56 3, rank := fld x 59 3, enc := fld x 64 6, eoff := fld x 70 20, fslot := fld x 90 3,
    fill := fld x 93 2,
    rsvd := fld x 62 2 != 0 || bit x 95 || fld x 96 32 != 0 || fld x 248 8 != 0 || fld x 476 36 != 0,
    dims := (List.range 5).map fun k => fld x (128 + 24 * k) 24,
    strides := 0 :: (List.range 4).map fun k => fld x (256 + 40 * k) 40,
    boxes := (List.range 5).map fun k => fld x (416 + 12 * k) 12 }

/-- Is the descriptor malformed (05 R134, 10 R242)? -/
def Shp.malformed (h : Shp) : Bool := h.rank = 0 || h.rank > 5 || h.fill = 3 || !encAssigned h.enc || h.rsvd

/-- Bits of an element. -/
def Shp.bits (h : Shp) : Nat := encBits h.enc

/-- Element k of a list of naturals, 0 beyond it. -/
def nth (l : List Nat) (k : Nat) : Nat := (l[k]?).getD 0

/-- The bit address of an element (05 R135). -/
def Shp.bitAddr (h : Shp) (y : List Nat) : Nat :=
  8 * h.base + (h.eoff + nth y 0) * h.bits + 8 * (List.zipWith (· * ·) y h.strides).foldl (· + ·) 0

/-- Is a coordinate inside the tensor: below DIM in every dimension below RANK, and 0 above? -/
def Shp.inside (h : Shp) (x : List Int) : Bool :=
  (x.zipIdx).all fun c => if c.2 < h.rank then decide (0 ≤ c.1 ∧ c.1 < nth h.dims c.2) else c.1 == 0

/-- A coordinate clamped into the tensor (05 R136). -/
def Shp.clamp (h : Shp) (x : List Int) : List Nat := (x.zipIdx).map fun c => (clampI c.1 0 ((nth h.dims c.2 : Int) - 1)).toNat

/-- Coordinate of an index of a walk, dimension 0 fastest (05 R135). -/
def unrank : List Nat → Nat → List Nat
  | [], _ => []
  | b :: t, k => k % b :: unrank t (k / b)

/-- Exchange coordinates 0 and 1 (05 R135 `Swap01`). -/
def swap01 {α : Type} : List α → List α
  | a :: b :: t => b :: a :: t
  | l => l

/-- Coordinate of the origin, below the rank (05 R133, 10 R238). -/
def originAt (args : List W32) (rank k : Nat) : Int := if k < rank then (((args[k]?).getD 0).toInt) else 0

/-- One element of a walk: where it is read, whether it takes a fill pattern instead, and where it is written; an element
with neither source nor fill nor destination is left untouched. -/
structure Elem where
  src : Option (List Nat)
  fill : Bool
  dst : Option (List Nat)
deriving DecidableEq, Repr

/-- An element left untouched. -/
def Elem.untouched : Elem := ⟨none, false, none⟩

/-- FLAGS bits by position. -/
def AOp.flag (o : AOp) (i : Nat) : Bool := bit o.flags i
def AOp.trn (o : AOp) : Bool := o.flag 23
def AOp.zfill (o : AOp) : Bool := o.flag 22
def AOp.sat (o : AOp) : Bool := o.flag 21
def AOp.csum (o : AOp) : Bool := o.flag 20

/-- A captured scalar argument. -/
def AOp.arg (o : AOp) (k : Nat) : Nat := ((o.args[k]?).getD 0).toNat

/-- Is it a copy, COPYC or CPFILL? -/
def AOp.isCopy (o : AOp) : Bool := o.kind == .copy || o.kind == .copyc || o.kind == .cpfill

/-- The destination shape of the operations that write memory through one. -/
def AOp.dshape (o : AOp) : Shp := Shp.of ((o.shapes[0]?).getD 0)
/-- The source shape: the second of a copy, the only one of a tile load. -/
def AOp.sshape (o : AOp) : Shp :=
  match o.kind with
  | .tld => Shp.of ((o.shapes[0]?).getD 0)
  | .tldc => Shp.of ((o.shapes[0]?).getD 0)
  | _ => Shp.of ((o.shapes[1]?).getD 0)

/-- Fields of a tile control word (10 R235). -/
def ctlEnc (w : Nat) : Nat := fld w 0 6
def ctlRows (w : Nat) : Nat := fld w 6 7
def ctlCols (w : Nat) : Nat := fld w 13 15
def ctlDtb (w : Nat) : Nat := fld w 28 1
def ctlState0 (w : Nat) : Nat := fld w 29 9

/-- Does the operation read memory through a shape element by element? -/
def OKind.reads : OKind → Bool
  | .copy => true
  | .copyc => true
  | .tld => true
  | .tldc => true
  | _ => false

/-- Does it write memory through a shape element by element? -/
def OKind.writes : OKind → Bool
  | .copy => true
  | .copyc => true
  | .cpfill => true
  | .tst => true
  | .mdrain => true
  | .mdrainP => true
  | _ => false

/-- M and N of a drain (10 R256). -/
def AOp.drainM (o : AOp) : Nat := fld (o.arg 3) 0 7
def AOp.drainN (o : AOp) : Nat := fld (o.arg 3) 16 7

/-- Elements of the operation's walk. -/
def AOp.count (o : AOp) : Nat :=
  let prod (h : Shp) : Nat := (h.boxes.take h.rank).foldl (· * ·) 1
  let tile : Nat := ctlRows (nth o.ctl 0) * ctlCols (nth o.ctl 0)
  match o.kind with
  | .copy => prod o.sshape
  | .copyc => prod o.sshape
  | .cpfill => prod o.dshape
  | .tld => tile
  | .tldc => tile
  | .tst => tile
  | .mdrain => o.drainM * o.drainN
  | .mdrainP => 2 * o.drainM * o.drainN
  | _ => 0

/-- What is read at a coordinate of a source: the element, its fill, or nothing (05 R135, R136; 10 R239). The ZFILL of TLDC
fills index 0 whatever the shape's FILL (10 R240). -/
def AOp.source (o : AOp) (x : List Int) (dst : Option (List Nat)) : Elem :=
  let h := o.sshape
  if h.inside x then ⟨some (x.map Int.toNat), false, dst⟩
  else if o.zfill then (if h.fill = 2 && o.kind != .tldc then ⟨some (h.clamp x), false, dst⟩ else ⟨none, true, dst⟩)
  else Elem.untouched

/-- A destination coordinate, where it is inside the tensor (05 R141, 10 R241, R257). -/
def AOp.target (o : AOp) (x : List Int) : Elem :=
  if o.dshape.inside x then ⟨none, true, some (x.map Int.toNat)⟩ else Elem.untouched

/-- The coordinate of a tile or fragment element (i, j) in a shape (10 R239, R241, R257). -/
def AOp.tileCoord (o : AOp) (rank i j : Nat) (from_ : Nat) : List Int :=
  let c (k : Nat) : Int := (((o.args[k + from_]?).getD 0).toInt)
  let d : Int × Int := if o.trn then (i, j) else (j, i)
  ([c 0 + d.1, c 1 + d.2, c 2, c 3, c 4].take (max rank 1))

/-- Element k of the operation's walk. -/
def AOp.elem (o : AOp) (k : Nat) : Elem :=
  let cols := max (ctlCols (nth o.ctl 0)) 1
  let n := max o.drainN 1
  match o.kind with
  | .cpfill =>
    let h := o.dshape
    o.target (((unrank (h.boxes.take h.rank) k).zipIdx).map fun (c : Nat × Nat) => originAt o.args h.rank c.2 + c.1)
  | .tld => o.source (o.tileCoord o.sshape.rank (k / cols) (k % cols) 0) (some [k / cols, k % cols])
  | .tldc => o.source (o.tileCoord o.sshape.rank (k / cols) (k % cols) 0) (some [k / cols, k % cols])
  | .tst => o.target (o.tileCoord o.dshape.rank (k / cols) (k % cols) 0)
  | .mdrain => o.target (o.tileCoord o.dshape.rank (k / n) (k % n) 0)
  | .mdrainP => o.target (o.tileCoord o.dshape.rank (k / n) (k % n) 0)
  | _ =>
    let h := o.sshape
    let i := unrank (h.boxes.take h.rank) k
    o.source ((i.zipIdx).map fun c => originAt o.args h.rank c.2 + c.1) (some (if o.trn then swap01 i else i))

/-- A range of bits in a space. -/
structure Spot where
  space : Nat
  bitpos : Nat
  bits : Nat
deriving DecidableEq, Repr

/-- The byte addresses of a range of bits; DEV and POOL addresses are 56 bits. -/
def Spot.bytes (p : Spot) : List Nat :=
  (List.range (ceilDiv (p.bitpos % 8 + p.bits) 8)).map fun i =>
    if addrRegs p.space = 2 then (p.bitpos / 8 + i) % 2 ^ 56 else p.bitpos / 8 + i

/-- Where an element is read in memory. -/
def AOp.srcSpot (o : AOp) (k : Nat) : Option Spot :=
  if o.kind.reads then (o.elem k).src.map fun y => ⟨o.sshape.space, o.sshape.bitAddr y, o.sshape.bits⟩ else none

/-- Where an element is written in memory. -/
def AOp.dstSpot (o : AOp) (k : Nat) : Option Spot :=
  if o.kind.writes then (o.elem k).dst.map fun y => ⟨o.dshape.space, o.dshape.bitAddr y, o.dshape.bits⟩ else none

/-- The first element outside its 32-bit space in walk order, with the number of the shape concerned (05 R436). -/
def State.rangeTrap (s : State) (o : AOp) (src dst : Nat) : Option TrapRec :=
  let out (p : Option Spot) : Option Nat :=
    match p with
    | none => none
    | some p =>
      if addrRegs p.space = 2 then none
      else if s.outOfRangeB o.block p.space (p.bitpos / 8) (ceilDiv (p.bitpos % 8 + p.bits) 8) then some (p.bitpos / 8) else none
  (List.range o.count).findSome? fun k =>
    match out (o.srcSpot k), out (o.dstSpot k) with
    | some a, _ => some ⟨cRange, a % 2 ^ 32, 0x340 + src, 0⟩
    | none, some a => some ⟨cRange, a % 2 ^ 32, 0x340 + dst, 0⟩
    | none, none => none

/-- The scope of a copy's accesses by space (05 R139; 09 R208). -/
def spaceScope (space : Nat) : Nat :=
  match space with
  | 2 => 1
  | 3 => 2
  | 5 => 5
  | _ => 3

/-- The asker and the attributes of an operation's accesses (05 R139). -/
def AOp.asker (o : AOp) : Asker := { core := o.core, launch := o.launch, l2Only := false }
def State.opHow (s : State) (o : AOp) (space : Nat) : How :=
  { strong := true, atomic := false, scope := spaceScope space, multi := s.multiOf o.block }

/-- Find a byte for an operation, from one of its cores. -/
def State.opFind (s : State) (o : AOp) (core space addr need : Nat) : Found :=
  match s.findHeld (s.opHow o space) core o.launch o.block (s.lrecOf o.launch).asid space addr need with
  | .miss a v => if o.denied.contains (a, v / 65536) then .fault 0x23 0 else .miss a v
  | f => f

/-- What reading or writing a range of bits answers. -/
inductive Io where
  | ok (s : State) (x : Nat)
  | miss (asid va : Nat)
  | fault (code addr : Nat)

/-- Find the bytes of a spot, before any is touched (05 R139). -/
def State.spotReach (s : State) (o : AOp) (p : Spot) (need : Nat) : Reach :=
  let fs := p.bytes.map fun a => (a, s.opFind o o.core p.space a need)
  match fs.findSome? fun f => match f.2 with | .miss x v => some (x, v) | _ => none with
  | some (x, v) => .miss x v
  | none =>
    match fs.findSome? fun f => match f.2 with | .fault c d => some (c, d, f.1) | _ => none with
    | some (c, d, x) => .fault c d x
    | none =>
      let ls := fs.filterMap fun f => match f.2 with | .at l => some (f.1, l) | _ => none
      match ls.find? fun x => need == needRD && s.locBad x.2 1 with
      | some x => .fault cMemError 0 x.1
      | none => .ok (ls.map (·.2))

/-- The translations of a spot's bytes are noted (08 R195). -/
def State.noteSpot (s : State) (o : AOp) (p : Spot) : State :=
  p.bytes.foldl (fun (s : State) a => s.noteXlat o.core (s.lrecOf o.launch).asid a p.space) s

/-- Read a range of bits (05 R135, 07 R164). -/
def State.readSpot (s : State) (o : AOp) (p : Spot) : Io :=
  match s.spotReach o p needRD with
  | .miss a v => .miss a v
  | .fault c _ x => .fault c x
  | .ok ls =>
    let r := ls.foldl (fun (acc : State × List Nat × Asker) l =>
      let b := acc.1.readLoc acc.2.2 (acc.1.opHow o p.space) l 1
      (b.1, acc.2.1 ++ [b.2], acc.2.2.after l)) (s.noteSpot o p, [], o.asker)
    .ok r.1 (ofBytes r.2.1 / 2 ^ (p.bitpos % 8) % 2 ^ p.bits)

/-- Does a store's value stand over what a copy writes there (05 R121)? -/
def State.keepsStore (s : State) (l : Loc) : Bool := match l with | .spd k => (SMap.get? s.crossed k).isSome | _ => false

/-- Write a range of bits; only its own bits change (05 R135, 07 R164), and no byte that keeps a store's value (05 R121). -/
def State.writeSpot (s : State) (o : AOp) (p : Spot) (x : Nat) : Io :=
  match s.spotReach o p needWR with
  | .miss a v => .miss a v
  | .fault c _ a => .fault c a
  | .ok ls =>
    let sh := p.bitpos % 8
    let r := (ls.zipIdx).foldl (fun (t : State × Asker) l =>
      let s := t.1
      let q := t.2.after l.1
      let mask := (2 ^ p.bits - 1) * 2 ^ sh / 256 ^ l.2 % 256
      let new := x % 2 ^ p.bits * 2 ^ sh / 256 ^ l.2 % 256
      if s.keepsStore l.1 then t
      else if mask = 255 then (s.writeLoc t.2 (s.opHow o p.space) l.1 1 new 1, q)
      else
        let b := s.readLoc t.2 (s.opHow o p.space) l.1 1
        (b.1.writeLoc q (b.1.opHow o p.space) l.1 1 (Nat.lor (Nat.land b.2 (255 - mask)) new) 1, q)) (s.noteSpot o p, o.asker)
    .ok r.1 x

/-- The presence granule of a scratchpad key, as `absent` names it (05 R121). -/
def granuleKey (k : Nat) : Nat := k / 2 ^ 20 * 8192 + k % 2 ^ 20 / 128

/-- The presence granule of a scratchpad byte (05 R121, R137). -/
def State.granuleOf (s : State) (o : AOp) (space addr : Nat) : Option Nat :=
  if space = 2 || space = 3 then
    match s.opFind o o.core space addr 0 with
    | .at (.spd k) => some (granuleKey k)
    | _ => none
  else none

/-- The presence granules of an element's destination. -/
def State.elemGranules (s : State) (o : AOp) (k : Nat) : List Nat :=
  match o.dstSpot k with
  | none => []
  | some p => p.bytes.filterMap fun a => s.granuleOf o p.space a

/-- Has an element still to land? An operation that is over has none (05 R137, R139). -/
def AOp.pending (o : AOp) (k : Nat) : Bool := !o.done && o.fault.isNone && (o.dstSpot k).isSome && !o.landed.contains k

/-- Has every element landed? -/
def AOp.allLanded (o : AOp) : Bool := (List.range o.count).all fun k => !o.pending k

/-- Does an element of an operation in flight keep a granule absent (05 R137)? -/
def State.holdsGranule (s : State) (o : AOp) (g : Nat) : Bool :=
  (List.range o.count).any fun k => o.pending k && (s.elemGranules o k).contains g

/-- Set again the presence of the granules for which nothing is in flight any more (05 R137). -/
def State.refreshPresence (s : State) : State :=
  let m := s.absent.filter fun g => s.ops.any fun o => o.kind.writes && !o.done && s.holdsGranule o g.1
  { s with absent := m, crossed := s.crossed.filter fun k => (SMap.get? m (granuleKey k.1)).isSome }

/-- Clear the presence of the destination granules of an operation that issues (05 R137). -/
def State.clearPresence (s : State) (o : AOp) : State :=
  { s with absent := (List.range o.count).foldl (fun m k => (s.elemGranules o k).foldl (fun m g => SMap.set m g ()) m) s.absent }

/-- Change an operation. -/
def State.modOp (s : State) (id : Nat) (f : AOp → AOp) : State :=
  { s with ops := s.ops.map fun (o : AOp) => if o.id == id then f o else o }

/-- Add a page to a list once. -/
def insertPage (l : List (Nat × Nat)) (x : Nat × Nat) : List (Nat × Nat) := if l.contains x then l else l ++ [x]

/-- A page miss of an operation is posted to the pager, and the operation waits for it (08 R194, 20 R422). -/
def State.opMiss (s : State) (o : AOp) (asid va : Nat) : State :=
  (s.addMiss asid va 3 o.core).modOp o.id fun o => { o with missed := insertPage o.missed (asid, va / 65536) }

/-- An operation by its id. -/
def State.opOf (s : State) (id : Nat) : Option AOp := s.ops.find? fun o => o.id == id

/-- An operation has completed: one without a fault is forgotten, a fault stays held with its batch (04 R101, 05 R144). -/
def State.opDone (s : State) (id : Nat) : State :=
  ({ s with ops := (s.ops.filter fun (o : AOp) => !(o.id == id && o.fault.isNone)).map fun (o : AOp) =>
      if o.id == id then { o with done := true } else o }).refreshPresence

/-- The accesses of the issuing path that come before the operation have been performed (05 R139). -/
def State.opOrdered (s : State) (o : AOp) : Bool :=
  s.accs.all fun a => a.uid != o.uid || a.id > o.id || a.kind == AKind.joinSub || !(a.second == o.second || a.both) ||
    (match a.kind with | .fence _ => false | _ => a.pieces.all fun p => p.done)

/-- The trap record of an operation's memory fault (04 R99). -/
def AOp.memFault (o : AOp) (code addr : Nat) : TrapRec := ⟨code, addr, o.word, 0⟩

/-- Operations of a wave that have not completed (05 R142). -/
def State.outstanding (s : State) (uid : Nat) : Nat := s.ops.countP fun o => o.uid == uid && !o.done

/-- An operation of the path in focus, with nothing captured yet (05 R133). -/
def State.newOp (s : State) (kind : OKind) : AOp :=
  { id := s.nextId, kind := kind, uid := s.cw.uid, second := s.cw.second, core := s.cw.core, launch := s.cw.launch,
    block := s.cw.block, word := s.wordOff, batch := none, done := false, fault := none, started := false, fctl := 0, ha := 0, hb := 0,
    flags := 0, slotDesc := 0, rm := s.cw.rm, ftz := s.cw.ftz, shapes := [], args := [], names := [], ctl := [], bonds := [],
    landed := [], read := [], counted := 0, bad := [], spoil := [], walk := [], missed := [], denied := [], since := s.ref, heard := s.ref, spans := [] }

/-- The completion scope of an operation: of its destination's space, DEVICE for a walk, else BLOCK (05 R139; 09 R224, R228;
10 R242, R262; 13 R306). -/
def AOp.doneScope (o : AOp) : Nat := if o.kind.writes then spaceScope o.dshape.space else if o.kind == .nmwalk then 3 else 1

/-- An operation joins the wave's open set (05 R142); the set's completion scope is the widest (09 R225). -/
def State.addOp (s : State) (o : AOp) : State :=
  { (s.newId).2 with ops := s.ops ++ [o] }.onWave fun w => { w with openScope := max w.openScope o.doneScope }

/-- Issue an operation where the wave has room for it (05 R142). -/
def State.issueOp (s : State) (k : State → State) : State := if s.outstanding s.cw.uid ≥ 64 then s.park (.opLimit []) else k s

/-- The conversion of an element between encodings, with the captured mode (05 R135; 07 R167, R174; 10 R239). -/
def AOp.conv (o : AOp) (src dst e : Nat) (scale : Option Nat) : Nat :=
  if src = dst && scale.isNone then e
  else
    let v := decodeEl src e
    let v := match scale with | some b => XR.mul v (bf16Val b) | none => v
    let flush := (dst == encFp32 && o.ftz) || ((dst == encFp16 || dst == encBf16) && slotSubn o.slotDesc)
    roundTo dst v o.rm ((o.sat || slotSat o.slotDesc) && !(scale.isNone && widens src dst)) flush

/-- The canonical NaN of an encoding, 0 where it has none (07 R175). -/
def canonNaN (enc : Nat) : Nat := match fpFmt enc with | some f => f.canonNaN | none => 0

/-- The fill pattern of a destination encoding where nothing is read (05 R136). -/
def fillPat (fill enc : Nat) : Nat := if fill = 1 then canonNaN enc else 0

/-- Eight scalars from a register. -/
def State.argGroup (s : State) (o : Operand) : List W32 := s.rdWords o 8 0

/-- Is an FP6 or FP4 codebook encoding, or a mismatch of the slot, in the way of a conversion (05 R134, 10 R239)? -/
def convBad (src dst slot : Nat) : Bool := isCbEnc src || isCbEnc dst || slotEnc slot != dst

/-- The spaces a shape of a copy may be in, and those of a tile move or drain (05 R134, 10 R242). -/
def copySpaces : List Nat := [0, 2, 3, 4, 5]
def tileSpaces : List Nat := [0, 2, 3, 4]

/-- A contraction step's fields (10 R266). -/
structure TStep where
  mode : Nat
  dout : Nat
  din : Nat
  shape : Nat
  rsvd : Nat
deriving DecidableEq, Repr

/-- The fields of a step word. -/
def TStep.of (w : W32) : TStep :=
  let x := w.toNat
  { mode := fld x 10 2, dout := fld x 7 3, din := fld x 4 3, shape := fld x 0 4, rsvd := fld x 12 20 }

/-- The sequencer of a wave; that of a wave no longer known does nothing. -/
def State.seqOf (s : State) (uid : Nat) : Seqr := match s.waveOf uid with | some w => w.seqr | none => Wave.free.seqr

/-- Change the sequencer of a wave. -/
def State.setSeq (s : State) (uid : Nat) (q : Seqr) : State := s.modWave uid fun w => { w with seqr := q }

/-- Rows and index table of a run (10 R270). -/
def AOp.rows (o : AOp) : Nat := o.arg 0
def AOp.index (o : AOp) : Nat := o.arg 1

/-- A captured bond register. -/
def AOp.bond (o : AOp) (d : Nat) : Nat := ((o.bonds[d]?).getD 1).toNat

/-- The elements of a core that a step names lie in its space (10 R272). -/
def State.coreOutside (s : State) (o : AOp) (G : Shp) : Bool :=
  addrRegs G.space = 1 && (List.range (nth G.dims 2)).any fun a => (List.range (nth G.dims 1)).any fun j => (List.range (nth G.dims 0)).any fun b =>
    let p := G.bitAddr [b, j, a]
    s.outOfRangeB o.block G.space (p / 8) (ceilDiv (p % 8 + G.bits) 8)

/-- Sub-code 1: a core that a step cannot use (10 R272). -/
def State.coreBad (s : State) (o : AOp) (G : Shp) (p q : Nat) : Bool :=
  G.malformed || G.rank ≠ 3 || (fpFmt G.enc).isNone || !tileSpaces.contains G.space || nth G.dims 2 ≠ p || nth G.dims 0 ≠ q ||
    s.coreOutside o G

/-- The index of a row for step k (10 R270). -/
def State.rowIndex (s : State) (o : AOp) (r k : Nat) : Nat := localRead Config.seedSpd s.spd (spdKey o.block o.core (o.index + 32 * r + 2 * k)) 2

/-- The step that an operation of the sequencer begins with, as the wave's operations before it leave the program at hand: after INIT
the first, after a run to the end none. -/
def State.firstStep (s : State) (o : AOp) : Nat :=
  let q := s.seqOf o.uid
  let before := s.ops.filter fun (p : AOp) => p.uid == o.uid && p.kind.train && !p.done && decide (p.id < o.id)
  if o.started then q.step
  else if o.flag 0 then 0
  else before.foldl (fun k p => if p.kind == .ttrun then q.prog.length else (if p.flag 0 then 0 else k) + (p.kind == .ttstep).toNat) q.step

/-- The steps of a contraction, run and still to run (10 R270). -/
def State.stepsOf (s : State) (o : AOp) : List Nat :=
  let k := s.firstStep o
  match o.kind with
  | .ttstep => if o.landed.isEmpty then [k] else o.landed
  | .ttrun => o.landed ++ (List.range ((s.seqOf o.uid).prog.length - k)).map (k + ·)
  | _ => []

/-- The core elements that step `k` of an operation reads: of every j, or of those its index table names (10 R271). -/
def State.coreSpots (s : State) (o : AOp) (k : Nat) : List Spot :=
  match (s.seqOf o.uid).prog[k]? with
  | none => []
  | some w =>
    let t := TStep.of w
    let G := Shp.of ((o.shapes[t.shape]?).getD 0)
    if t.mode = 3 || s.coreBad o G (o.bond t.din) (o.bond t.dout) then []
    else
      let js := if t.mode = 0 then ((List.range o.rows).map fun r => s.rowIndex o r k).eraseDups else List.range (nth G.dims 1)
      (List.range (nth G.dims 2)).flatMap fun a => js.flatMap fun j => (List.range (nth G.dims 0)).map fun b =>
        ⟨G.space, G.bitAddr [b, j, a], G.bits⟩

/-- What an operation reads other than element by element: the words of a TTPROG, the cores of a contraction (10 R267, R271). -/
def State.sideReads (s : State) (o : AOp) : List Spot :=
  match o.kind with
  | .ttprog => (List.range (o.arg 1)).map fun i => ⟨if o.flag 0 then spGRN else spSPD, 8 * (o.arg 0 + 4 * i), 32⟩
  | .ttstep => (s.stepsOf o).flatMap (s.coreSpots o)
  | .ttrun => (s.stepsOf o).flatMap (s.coreSpots o)
  | _ => []

end Sys2Proof.Machine
end

