-- ==== Sys2Proof/Machine/Copy.lean ====
section
/-! DEFINITION. The copy engine and batches: COPY, COPYC, CPFILL, ACLOSE, the landing of a copy's data, its faults, and the
completion of an asynchronous operation (05 R133-R144, R148). -/

namespace Sys2Proof.Machine

open Sys2Proof (Operand AF AcloseF W32 W64 Byte Mask SMap SMap.get? SMap.set SMap.getD SMap.modify SMap.del)

/-- A byte barrier's fields (05 R148). -/
structure Barr where
  pend : Nat
  arrive : Nat
  members : Nat
  circle : Nat
  phase : Bool
  err : Bool
  rest : Nat
deriving DecidableEq, Repr

/-- The fields of a barrier's 16 bytes. -/
def Barr.of (x : Nat) : Barr :=
  { pend := fld x 0 32, arrive := fld x 32 16, members := fld x 48 16, circle := fld x 64 8, phase := bit x 72, err := bit x 73,
    rest := fld x 74 54 }

/-- The 16 bytes of a barrier. -/
def Barr.image (b : Barr) : Nat :=
  b.pend % 2 ^ 32 + 2 ^ 32 * (b.arrive % 2 ^ 16) + 2 ^ 48 * (b.members % 2 ^ 16) + 2 ^ 64 * (b.circle % 256) +
    2 ^ 72 * b.phase.toNat + 2 ^ 73 * b.err.toNat + 2 ^ 74 * b.rest

/-- A phase that has become complete completes (05 R148). -/
def Barr.settle (b : Barr) : Barr :=
  if b.arrive = 0 && b.pend = 0 && !b.err then { b with phase := !b.phase, arrive := b.members } else b

/-- The barrier at a scratchpad key. -/
def State.barrAt (s : State) (key : Nat) : Barr := Barr.of (localRead Config.seedSpd s.spd key 16)

/-- The paths that wait at a barrier for another phase (05 R150). -/
def State.barxWaiters (s : State) (key : Nat) (phase : Bool) : List (Nat × Bool) :=
  s.allWaves.flatMap fun w => ([false, true].filter fun b =>
    match (w.path b).phase with
    | .parked (.barx k p) => k == key && p != phase
    | _ => false).map fun b => (w.uid, b)

/-- Write a barrier's 16 bytes, a race with the operations in flight that read them (10 R245, R274); where PHASE toggles, the paths
that a `BARX` parked for it go on (05 R150). -/
def State.setBarr (s : State) (key : Nat) (b : Barr) : State :=
  let s1 := { s.raceSpd key 16 with spd := localWrite s.spd key 16 b.image (2 ^ 16 - 1) }
  (s.barxWaiters key b.phase).foldl (fun (s : State) x => s.makeReady x.1 x.2) s1

/-- A copy's barrier: the key of sG+6 in its core's scratchpad (05 R133). -/
def AOp.barKey (o : AOp) : Nat := spdKey o.block o.core (o.arg 6)

/-- Counted units of a copy: bytes of its element stream (05 R138). -/
def AOp.units (o : AOp) : Nat := ceilDiv (o.count * o.dshape.bits) 8

/-- Bytes of segment k of a COPYC (05 R140). -/
def AOp.segBytes (o : AOp) (k : Nat) : Nat := min 4096 (o.units - 4096 * k)
/-- Segments of a COPYC. -/
def AOp.segs (o : AOp) : Nat := ceilDiv o.units 4096

/-- The elements whose bits lie in segment k (05 R140). -/
def AOp.segElems (o : AOp) (k : Nat) : List Nat :=
  let b := max o.dshape.bits 1
  (List.range o.count).filter fun e => 8 * 4096 * k < b * (e + 1) && b * e < 8 * (4096 * k + 4096)

/-- Has every element of a segment landed? -/
def AOp.segLanded (o : AOp) (k : Nat) : Bool := (o.segElems k).all o.landed.contains

/-- The segments that have verified: kept in `ctl` as they do (05 R140). -/
def AOp.verified (o : AOp) : List Nat := o.ctl

/-- Units that may have been counted by now: of landed elements, and the last only when all have landed; a verifying COPYC counts
the verified segments (05 R138, R140). -/
def AOp.unitsNow (o : AOp) : Nat :=
  let n := (List.range o.count).countP fun k => (o.dstSpot k).isNone || o.landed.contains k
  if o.kind == .copyc && o.csum then
    let v := (o.verified.map o.segBytes).foldl (· + ·) 0
    if v ≥ o.units && !o.allLanded then o.units - 1 else v
  else if o.allLanded && o.fault.isNone then o.units
  else min (n * o.dshape.bits / 8) (o.units - 1)

/-- Subtract from the barrier what has landed since the last time (05 R138). -/
def State.countUnits (s : State) (id : Nat) : State :=
  match s.opOf id with
  | none => s
  | some o =>
    let n := o.unitsNow - o.counted
    if !o.flag 1 || n = 0 then s
    else
      let b := s.barrAt o.barKey
      (s.setBarr o.barKey ({ b with pend := (b.pend + 2 ^ 32 - n % 2 ^ 32) % 2 ^ 32 }).settle).modOp id fun o => { o with counted := o.counted + n }

/-- Set the ERR of a copy's barrier (05 R139, R140). -/
def State.barErr (s : State) (o : AOp) : State :=
  if o.flag 1 then s.setBarr o.barKey { s.barrAt o.barKey with err := true } else s

/-- One step of CRC-32C over a byte, reflected (05 R140). -/
def crcByte (crc byte : Nat) : Nat :=
  (List.range 8).foldl (fun c _ => if c % 2 = 1 then Nat.xor (c / 2) 0x82F63B78 else c / 2) (Nat.xor crc (byte % 256))

/-- CRC-32C of bytes (05 R140). -/
def crc32c (bs : List Nat) : Nat := Nat.xor (bs.foldl crcByte 0xFFFFFFFF) 0xFFFFFFFF

/-- The pattern a COPYC read for an element. -/
def AOp.readOf (o : AOp) (k : Nat) : Nat := ((o.landed.zip o.read).lookup k).getD 0

/-- The bytes of segment k of the source element stream, packed from the low bit (05 R140). -/
def AOp.segStream (o : AOp) (k : Nat) : List Nat :=
  let b := o.dshape.bits
  let base := 8 * 4096 * k
  let x := (o.segElems k).foldl (fun acc e =>
    let v := o.readOf e
    if b * e ≥ base then acc + v * 2 ^ (b * e - base) else acc + v / 2 ^ (base - b * e)) 0
  toBytes x (o.segBytes k)

/-- What landing an element answers. -/
inductive Landing where
  | ok (s : State) (x : Nat)
  | miss (asid va : Nat) (write : Bool)
  | fault (r : TrapRec)

/-- The value a copy writes for an element, with the pattern read (05 R135, R136, R141). -/
def State.copyValue (s : State) (o : AOp) (k : Nat) : Io :=
  let D := o.dshape
  if o.kind == .cpfill then .ok s (o.arg 5 % 2 ^ D.bits)
  else
    let S := o.sshape
    match o.srcSpot k with
    | none => .ok s (fillPat S.fill D.enc)
    | some p =>
      match s.readSpot o p with
      | .ok t e => .ok t (o.conv S.enc D.enc e (if o.flag 0 then some (o.arg 5) else none))
      | r => r

/-- Land one element of a copy (05 R135, R139): an element whose destination overlaps another copy's is undefined. 05 R135 gives the
bytes no order: the model lands the bytes of one element in one step (DESIGN CHOICE: log 31). -/
def State.landElem (s : State) (o : AOp) (k : Nat) : Landing :=
  match o.dstSpot k with
  | none => .ok s 0
  | some p =>
    match s.spotReach o p needWR with
    | .miss a v => .miss a v true
    | .fault c _ x => .fault (o.memFault c x)
    | .ok _ =>
      match s.copyValue o k with
      | .miss a v => .miss a v false
      | .fault c x => .fault (o.memFault c x)
      | .ok t x =>
        let d := t.draw
        let r : State × Nat := if o.raced || o.spoil.contains k then (d.2, (Config.freeWord d.1 k).toNat % 2 ^ p.bits) else (t, x)
        match r.1.writeSpot o p r.2 with
        | .ok u _ => .ok u x
        | .miss a v => .miss a v true
        | .fault c x => .fault (o.memFault c x)

/-- Land an element of the copy of an id where it is still to land: its requests have been answered (19 R394); a miss is posted, a
fault waits for COPY_FAULT. -/
def State.landOne (s : State) (id k : Nat) : State :=
  match s.opOf id with
  | none => s
  | some o =>
    if !o.pending k then s
    else
      match s.landElem o k with
      | .ok t x => t.modOp id fun o => { o with landed := o.landed ++ [k], read := o.read ++ [x], heard := s.ref }
      | .miss a v _ => s.opMiss o a v
      | .fault _ => s

/-- Entry k of a COPYC's table (05 R140). -/
def AOp.crcSpot (o : AOp) (k : Nat) : Spot := ⟨spDEV, 8 * ((o.arg 8 + 4294967296 * o.arg 9 + 4 * k) % 2 ^ 56), 32⟩

/-- The bits of element `e`, which goes to a spot, that lie in segment `k` of the element stream (05 R140). -/
def AOp.inSegment (o : AOp) (k e : Nat) (p : Spot) : Spot :=
  let b := o.dshape.bits
  let lo := max (b * e) (32768 * k) - b * e
  let hi := min (b * (e + 1)) (32768 * (k + 1)) - b * e
  ⟨p.space, p.bitpos + lo, hi - lo⟩

/-- The destination bytes of a segment that did not verify are undefined, and its barrier's ERR is set (05 R140). -/
def State.crcMismatch (s : State) (o : AOp) (k : Nat) : State :=
  let d := s.draw
  let s1 := (o.segElems k).foldl (fun (s : State) e =>
    match o.dstSpot e with
    | none => s
    | some p => match s.writeSpot o (o.inSegment k e p) (Config.freeWord d.1 e).toNat with | .ok t _ => t | _ => s) d.2
  (s1.barErr o).modOp o.id fun o => { o with bad := o.bad ++ [k] }

/-- A landed segment of a COPYC has its CRC written, or compared with its entry (05 R140). -/
def State.crcSegment (s : State) (id k : Nat) : State :=
  match s.opOf id with
  | none => s
  | some o =>
    if o.kind != .copyc || o.ctl.contains k || o.bad.contains k || !o.segLanded k || o.fault.isSome then s
    else
      let crc := crc32c (o.segStream k)
      if o.csum then
        match s.readSpot o (o.crcSpot k) with
        | .ok t e => if e = crc then t.modOp id fun o => { o with ctl := o.ctl ++ [k] } else t.crcMismatch o k
        | .miss a v => s.opMiss o a v
        | .fault _ _ => s
      else
        match s.writeSpot o (o.crcSpot k) (if o.raced then (Config.freeWord s.fresh k).toNat else crc) with
        | .ok t _ => t.modOp id fun o => { o with ctl := o.ctl ++ [k] }
        | .miss a v => s.opMiss o a v
        | .fault _ _ => s

/-- Is there nothing more for a copy to do? -/
def AOp.copyOver (o : AOp) : Bool :=
  o.fault.isSome || (o.allLanded && (o.kind != .copyc || (List.range o.segs).all fun k => o.ctl.contains k || o.bad.contains k))

/-- Elements of a copy land (05 R135-R138, R140). -/
def State.copyLand (s : State) (id : Nat) (ks : List Nat) : State :=
  match s.opOf id with
  | none => s
  | some o =>
    if !o.isCopy || o.done || !s.opOrdered o then s
    else
      let s1 := ks.foldl (fun (s : State) k => s.landOne id k) s
      let s2 := (List.range o.segs).foldl (fun (s : State) k => s.crcSegment id k) s1
      (s2.countUnits id).refreshPresence

/-- The fault that landing an element, or table entry `k` past the last, meets now (05 R139). -/
def State.copyFaultAt (s : State) (o : AOp) (k : Nat) : Option TrapRec :=
  if k < o.count then
    if o.pending k then (match s.landElem o k with | .fault r => some r | _ => none) else none
  else if o.kind == .copyc && k - o.count < o.segs && o.segLanded (k - o.count) && !o.ctl.contains (k - o.count) &&
      !o.bad.contains (k - o.count) then
    match s.spotReach o (o.crcSpot (k - o.count)) (if o.csum then needRD else needWR) with
    | .fault c _ x => some (o.memFault c x)
    | _ => none
  else none

/-- A copy stops at a fault: what has not landed is undefined, presence is set, the barrier's ERR is set (05 R139). -/
def State.copyStop (s : State) (o : AOp) (r : TrapRec) : State :=
  let d := s.draw
  let s1 := (List.range o.count).foldl (fun (s : State) k =>
    if !o.pending k then s
    else
      match o.dstSpot k with
      | none => s
      | some p => match s.writeSpot o p (Config.freeWord d.1 k).toNat with | .ok t _ => t | _ => s) d.2
  ((s1.modOp o.id fun o => { o with fault := some r }).barErr o).refreshPresence

/-- COPY_UNITS_LAND (05 R138). -/
def execCopyUnitsLand (op : Nat) (elems : List Nat) (s : State) : Res := .next (s.copyLand op elems)

/-- COPY_FAULT (05 R139). -/
def execCopyFault (op elem : Nat) (s : State) : Res :=
  .next (match s.opOf op with
    | none => s
    | some o =>
      if !o.isCopy || o.done || o.fault.isSome || !s.opOrdered o then s
      else match s.copyFaultAt o elem with | some r => s.copyStop o r | none => s)

/-- ASYNC_OP_COMPLETE: a copy whose data has all landed, or that has stopped, completes (05 R139, R144). -/
def execAsyncOpComplete (op : Nat) (s : State) : Res :=
  .next (match s.opOf op with
    | none => s
    | some o =>
      if o.isCopy && !o.done && o.copyOver && s.opOrdered o then (s.countUnits op).opDone op else s)

/-- Row 3 of the table of 05 R134 for one shape: an extent or a box extent of 0. -/
def Shp.flat (h : Shp) (box : Bool) : Bool :=
  (List.range h.rank).any fun k => nth h.dims k == 0 || (box && nth h.boxes k == 0)

/-- A box element's destination lies outside the destination tensor (05 R134). -/
def boxOutside (D S : Shp) (trn : Bool) : Bool :=
  let ext := (List.range 5).map fun k => if k < S.rank then nth S.boxes k else 1
  let ext := if trn then swap01 ext else ext
  !ext.contains 0 && (ext.zipIdx).any fun e => if e.2 < D.rank then decide (e.1 > nth D.dims e.2) else e.1 != 1

/-- A box not wholly inside the source tensor (05 R140). -/
def boxLeaves (S : Shp) (args : List W32) : Bool :=
  (List.range S.rank).any fun k =>
    let c := originAt args S.rank k
    decide (c < 0) || decide (c + nth S.boxes k > nth S.dims k)

/-- The checks of a copy's barrier (05 R134). -/
def State.barTrap (s : State) (o : AOp) : Option TrapRec :=
  if !o.flag 1 then none
  else if o.arg 6 % 16 ≠ 0 then some ⟨cAlign, o.arg 6, 0, 0⟩
  else if o.arg 6 + 16 > s.spdOf o.block then some ⟨cRange, o.arg 6, 0, 0⟩
  else none

/-- The first of a list of checks that fails. -/
def firstTrap (l : List (Bool × TrapRec)) : Option TrapRec := (l.find? (·.1)).map (·.2)

/-- The issue checks of COPY and COPYC in order (05 R134, R140, R436). -/
def State.copyTrap (s : State) (o : AOp) : Option TrapRec :=
  let D := o.dshape
  let S := o.sshape
  let conv := S.enc != D.enc || o.flag 0
  let d (c : Nat) : TrapRec := dataRec c (0x340 + o.ha)
  let u (c : Nat) : TrapRec := dataRec c (0x340 + o.hb)
  let table := o.arg 8 + 4294967296 * o.arg 9
  (firstTrap [(D.malformed, d cDescriptor), (S.malformed, u cDescriptor),
    (!copySpaces.contains D.space || !copySpaces.contains S.space, plainRec cSpace),
    (D.flat true || boxOutside D S o.trn, d cShape), (S.flat true || (o.trn && S.rank < 2), u cShape),
    (o.kind == .copyc && conv, d cShape), (conv && convBad S.enc D.enc o.slotDesc, d cShape),
    (o.kind == .copyc && (o.zfill || boxLeaves S o.args), u cShape)]).or
    ((s.barTrap o).or
      ((firstTrap [(o.kind == .copyc && table % 4 != 0, ⟨cAlign, table, 0, 0⟩)]).or (s.rangeTrap o o.hb o.ha)))

/-- The issue checks of CPFILL (05 R141). -/
def State.fillTrap (s : State) (o : AOp) : Option TrapRec :=
  let D := o.dshape
  let d (c : Nat) : TrapRec := dataRec c (0x340 + o.ha)
  (firstTrap [(D.malformed, d cDescriptor), (!copySpaces.contains D.space, plainRec cSpace), (D.flat true, d cShape)]).or
    ((s.barTrap o).or (s.rangeTrap o o.hb o.ha))

/-- Bits of a byte of memory: which memory, the byte, and the bits of it from the low one. -/
structure Bits8 where
  mem : Nat
  byte : Nat
  lo : Nat
  hi : Nat
deriving DecidableEq, Repr

/-- Do two ranges share a bit? -/
def Bits8.meets (x y : Bits8) : Bool := x.mem == y.mem && x.byte == y.byte && decide (x.lo < y.hi && y.lo < x.hi)

/-- The bits of a spot, byte by byte, named so that equal bytes have equal names. -/
def State.spotPlaces (s : State) (o : AOp) (p : Option Spot) : List Bits8 :=
  match p with
  | none => []
  | some p => (p.bytes.zipIdx).map fun a =>
    let b : Nat × Nat := match s.opFind o o.core p.space a.1 0 with
      | .at (.sec h i) => (h.kind, h.addr + i)
      | .at (.spd k) => (3, k)
      | .at (.gran k) => (4, k)
      | _ => (6 + p.space, a.1)
    { mem := b.1, byte := b.2, lo := if a.2 = 0 then p.bitpos % 8 else 0, hi := min 8 (p.bitpos % 8 + p.bits - 8 * a.2) }

/-- The CRC table of a COPYC: with CSUM it is read, else written (05 R140). -/
def AOp.table (o : AOp) (read : Bool) : List Spot :=
  if o.kind == .copyc && o.csum == read then (List.range o.segs).map o.crcSpot else []

/-- The bits an operation reads, and those it writes element by element. -/
def State.srcPlaces (s : State) (o : AOp) : List Bits8 :=
  ((List.range o.count).flatMap fun k => s.spotPlaces o (o.srcSpot k)) ++
    (o.table true ++ s.sideReads o).flatMap fun p => s.spotPlaces o (some p)
def State.dstPlaces (s : State) (o : AOp) : List Bits8 := (List.range o.count).flatMap fun k => s.spotPlaces o (o.dstSpot k)

/-- The elements of an operation whose destination meets some bits. -/
def State.meets (s : State) (o : AOp) (ps : List Bits8) : List Nat :=
  if ps.isEmpty then [] else (List.range o.count).filter fun k => (s.spotPlaces o (o.dstSpot k)).any fun x => ps.any x.meets

/-- The scratchpad bytes that an engine operation writes other than through a shape: COMP scales, boundary and record (10 R259, R268,
R269, R271). -/
def AOp.sideWrites (o : AOp) : List (Nat × Nat) :=
  let scales (halves : Nat) : List (Nat × Nat) :=
    if o.flag 16 then [(spdKey o.block o.core (o.arg 6), 2 * ceilDiv o.drainN (slotBlk o.slotDesc) * o.drainM * halves)] else []
  match o.kind with
  | .mdrain => scales 1
  | .mdrainP => scales 2
  | .ttstep => o.spans.map fun x => (x.1, x.2 + 16)
  | .ttrun => o.spans.map fun x => (x.1, x.2 + 16)
  | .ttbuf => [(spdKey o.block o.core (o.arg 0 + 2 * o.arg 1), 16)]
  | _ => []

/-- Does an access of the path, performed while an operation it issued before is in flight, conflict with it? A copy's scratchpad
destination is ordered by its presence bits, and takes a store's value or its own (05 R121, R137; 09 R228). DEDUCED: a strong
access conflicts as a weak one does (log 17). -/
def State.racesWith (s : State) (a : Access) (p : Piece) (o : AOp) : Bool :=
  let mine : List Bits8 := (s.placesOf a p).map fun x => { mem := x.1, byte := x.2, lo := 0, hi := 8 }
  o.uid == a.uid && o.second == a.second && o.id < a.id && !o.done && !o.raced && (o.kind.reads || o.kind.writes || o.kind.train) &&
    ((s.dstPlaces o).any (fun x => (x.mem != 3 || (!o.isCopy && a.kind.stores)) && mine.any x.meets) ||
      (((o.table false).flatMap fun p => s.spotPlaces o (some p)).any fun x => mine.any x.meets) ||
      (a.kind.stores && (s.srcPlaces o).any fun x => mine.any x.meets) ||
      mine.any fun x => x.mem == 3 && o.sideWrites.any (spansMeet (x.byte, 1)))

/-- The regions of memory a walk writes (first) and reads: result buffer, rays, descriptor and nodes (13 R305-R307). -/
def AOp.walkParts (o : AOp) : List (Nat × Nat) :=
  let at_ (k : Nat) : Nat := (o.arg k + 4294967296 * o.arg (k + 1)) % 2 ^ 56
  [(at_ 4, 16 + 8 * o.arg 3), (at_ 0, 32 * o.arg 2), (at_ 6, 32)] ++ (if o.started then [(nth o.ctl 0 % 2 ^ 56, 128 * nth o.ctl 2)] else [])

/-- Where the bytes of a region of an operation's address space lie: memory, first byte and length, page by page, so that two names
of one location are one place (08 R199); a page without a translation keeps its own name. -/
def State.realParts (s : State) (o : AOp) (r : Nat × Nat) : List (Nat × Nat × Nat) :=
  (List.range ((r.1 % 65536 + r.2 + 65535) / 65536)).map fun k =>
    let lo := max r.1 ((r.1 / 65536 + k) * 65536)
    let n := min (r.1 + r.2) ((r.1 / 65536 + k + 1) * 65536) - lo
    match s.opFind o o.core spDEV (lo % 2 ^ 56) 0 with
    | .at (.sec h i) => (h.kind, h.addr + i, n)
    | _ => (9, lo % 2 ^ 56, n)

/-- Do two lists of places share a byte? -/
def partsMeet (x y : List (Nat × Nat × Nat)) : Bool := x.any fun a => y.any fun b => a.1 == b.1 && spansMeet a.2 b.2

/-- Does an access of the path conflict with a walk it issued before (09 R228)? -/
def State.racesWalk (s : State) (a : Access) (p : Piece) (o : AOp) : Bool :=
  o.uid == a.uid && o.second == a.second && o.id < a.id && !o.done && !o.raced && o.kind == .nmwalk && a.space == 0 &&
    let mine := (s.placesOf a p).map fun x => (x.1, x.2, 1)
    match o.walkParts with
    | [] => false
    | res :: ins => partsMeet mine (s.realParts o res) || (a.kind.stores && ins.any fun r => partsMeet mine (s.realParts o r))

/-- What the destination of an operation holds is undefined: what has landed now, and what lands later (09 R228). -/
def State.raced (s : State) (o : AOp) : State :=
  let d := s.draw
  let free (s : State) (p : Spot) (k : Nat) : State := match s.writeSpot o p (Config.freeWord d.1 k).toNat with | .ok t _ => t | _ => s
  let s0 := o.landed.foldl (fun (s : State) k => match o.dstSpot k with | none => s | some p => free s p k) d.2
  let s1 := if o.kind == .copyc && !o.csum then o.ctl.foldl (fun (s : State) k => free s (o.crcSpot k) (o.count + k)) s0 else s0
  s1.modOp o.id fun o => { o with spoil := raceMark :: o.spoil }

/-- After a store has gone from `s` to `t`, over absent granules: each byte at the keys that a copy in flight writes ends with the
store's value or the copy's, a free choice for each byte; one that keeps an earlier store's value against the copy takes a later
store's (05 R121). -/
def State.crossKeys (s t : State) (keys : List Nat) : State :=
  let gone := keys.filter fun k => (SMap.get? s.absent (granuleKey k)).isSome
  if gone.isEmpty then t
  else
    let copied := (s.ops.filter fun (o : AOp) => o.kind.writes && !o.done && o.fault.isNone).flatMap fun o => s.dstPlaces o
    let d := t.draw
    (gone.filter fun k => copied.any fun x => x.mem == 3 && x.byte == k).foldl (fun (u : State) k =>
      if (SMap.get? u.crossed k).isSome then u
      else if Config.freeBool d.1 k then { u with crossed := SMap.set u.crossed k () }
      else { u with spd := match SMap.get? s.spd k with | some b => SMap.set u.spd k b | none => SMap.del u.spd k }) d.2

/-- The pieces of an access that have been performed between two states. -/
def Access.performed (a : Access) (t : State) : List Piece :=
  match t.accs.find? fun b => b.id == a.id with
  | some b => (a.pieces.zip b.pieces).filterMap fun x => if !x.1.done && x.2.done then some x.1 else none
  | none => a.pieces.filter fun p => !p.done

/-- The races of the pieces that have been performed between two states with the operations of their path (09 R215, R228), and
their bytes over absent granules (05 R121). -/
def State.races (s t : State) (id : Nat) : State :=
  if s.ops.isEmpty then t
  else
    match s.accs.find? fun a => a.id == id with
    | none => t
    | some a =>
      let now := a.performed t
      let u := if a.kind.stores then
          s.crossKeys t ((now.flatMap fun p => s.placesOf a p).filterMap fun x => if x.1 = 3 then some x.2 else none)
        else t
      (s.ops.filter fun o => now.any fun p => s.racesWith a p o || s.racesWalk a p o).foldl
        (fun (t : State) o => match t.opOf o.id with | some p => t.raced p | none => t) u

/-- MEMORY_RESPONSE: pieces of a load or atomic are performed (05 R115; 08 R187; 09 R228). -/
def execMemoryResponse (id : Nat) (pieces : List Nat) (s : State) : Res :=
  .next (if s.silentAcc id then s else s.races (s.performPieces id pieces) id)

/-- STORE_PERFORM: pieces of a store or reduction are performed (05 R116; 09 R221, R228). -/
def execStorePerform (id : Nat) (pieces : List Nat) (s : State) : Res :=
  .next (if s.silentAcc id then s.races (s.performPieces id pieces) id else s)

/-- A copy that issues: overlaps with its own source and with the copies in flight are noted on both sides, and presence is
cleared (05 R135, R137). -/
def State.startCopy (s : State) (o : AOp) : State :=
  let live := s.ops.filter fun p => p.isCopy && !p.done && !p.copyOver
  let mine := s.dstPlaces o
  let o1 := { o with spoil := s.meets o (s.srcPlaces o ++ live.flatMap fun p => s.dstPlaces p) }
  let s1 := { s with ops := s.ops.map fun (p : AOp) =>
    if p.isCopy && !p.done && !p.copyOver then { p with spoil := p.spoil ++ s.meets p mine } else p }
  ((s1.addOp o1).clearPresence o1).slotDone

/-- What COPY and COPYC capture (05 R133, R140). -/
def State.copyOp (s : State) (kind : OKind) (f : AF) : AOp :=
  { s.newOp kind with
    ha := f.ha, hb := f.hb, flags := f.flags.toNat, slotDesc := (s.lrec.slots[f.fslot.val]?).getD 0
    shapes := [s.cw.hreg f.ha, s.cw.hreg f.hb]
    args := s.argGroup f.opa ++ (if kind == .copyc then s.rdWords f.opb 2 0 else []) }

/-- COPY (05 R133-R139). -/
def execCopy (f : AF) (s : State) : Res :=
  let o := s.copyOp .copy f
  .next (match s.copyTrap o with
    | some r => s.trapHere r
    | none => s.issueOp fun s => s.startCopy o)

/-- COPYC (05 R140). -/
def execCopyc (f : AF) (s : State) : Res :=
  let o := s.copyOp .copyc f
  .next (match s.copyTrap o with
    | some r => s.trapHere r
    | none => s.issueOp fun s => s.startCopy o)

/-- CPFILL (05 R141). -/
def execCpfill (f : AF) (s : State) : Res :=
  let o := { s.newOp .cpfill with ha := f.ha.val, flags := f.flags.toNat, shapes := [s.cw.hreg f.ha], args := s.argGroup f.opa }
  .next (match s.fillTrap o with
    | some r => s.trapHere r
    | none => s.issueOp fun s => s.startCopy o)

/-- ACLOSE (05 R143); the batch's completion scope is the widest of its operations (09 R225). -/
def execAclose (f : AcloseF) (s : State) : Res :=
  let close (m : SMap Written) : SMap Written :=
    m.map fun x => if x.2.uid = s.cw.uid && x.2.batch.isNone then (x.1, { x.2 with batch := some f.n.val }) else x
  .next ({ s with
    tileWrites := close s.tileWrites, pairWrites := close s.pairWrites
    ops := s.ops.map fun (o : AOp) => if o.uid == s.cw.uid && o.batch.isNone then { o with batch := some f.n.val } else o }.onWave fun w =>
      { w with openScope := 0, batchScope := SMap.set w.batchScope f.n.val (max w.openScope (SMap.getD w.batchScope f.n.val 0)) }).slotDone

end Sys2Proof.Machine
end

