-- ==== Sys2Proof/Machine/Sync.lean ====
section
/-! DEFINITION. Circle barriers, byte barriers and WAIT (05 R145-R155). -/

namespace Sys2Proof.Machine

open Sys2Proof (Operand BarF BaraF BarwF BcntF BarxF WaitF W32 W64 Byte Mask SMap SMap.get? SMap.set SMap.getD SMap.modify SMap.del)

/-- Is the wave in focus a member of a circle (04 R93, R94)? -/
def State.isMember (s : State) (c : Nat) : Bool :=
  match s.blk with
  | some b => (s.members b c).contains s.cw.widx
  | none => false

/-- A circle of the block of the wave in focus. -/
def State.circ (s : State) (c : Nat) : Circle :=
  match s.blk with
  | some b => b.circle c
  | none => { gen := 0, arrived := [], prev := [] }

/-- A release at BLOCK scope: the path's earlier accesses are performed first, then its dirty sectors go out (09 R210, R220). -/
def State.releaseBlock (s : State) (k : State → State) : State :=
  let wait := s.unsettled fun a => a.kind != .joinSub
  if !wait.isEmpty then s.park (.accesses wait) else k (s.releaseAt s.cw.core s.cw.launch 1 (s.multiOf s.cw.block))

/-- An acquire at BLOCK scope. -/
def State.acquireBlock (s : State) : State := s.acquireAt s.cw.core s.cw.launch 1 (s.multiOf s.cw.block)

/-- The completion of a generation of a circle is waited for no more: an acquire (05 R146, 09 R211). -/
def State.circleDone (s : State) (c : Nat) (g : W32) : State := s.acquireBlock.takeOrder (circlePlace s.cw.block c g.toNat)

/-- The reduction of a `BAR` (05 R146). -/
def barReduce (op : Nat) (xs : List W32) : W32 :=
  match xs with
  | [] => 0
  | x :: t => t.foldl (fun a b =>
    match op with
    | 1 => a + b
    | 2 => minW true a b
    | 3 => maxW true a b
    | 4 => a &&& b
    | _ => a ||| b) x

/-- The generation a `BAR` waits for is complete: acquire, and the reduction of the members' values (05 R146). -/
def State.barDone (s : State) (c op : Nat) (dst : Operand) : State :=
  let s1 := s.circleDone c ((s.circ c).gen - 1)
  if op = 0 then s1 else s1.wrS dst (barReduce op ((s.circ c).prev.filterMap id))

/-- The checks of an arrival: a live fork before membership (05 R147). -/
def State.arriveTrap (s : State) (c : Nat) : Option TrapRec :=
  if s.cw.forked && !s.cw.tm then some (dataRec cBarFork c)
  else if !s.isMember c then some (dataRec cCircle c)
  else none

/-- Arrive in a circle, or wait to arrive in the next generation (05 R147); `k` goes on with the generation arrived in. -/
def State.arrive (s : State) (c : Nat) (x : Option W32) (k : W32 → State → State) : State :=
  match s.arriveTrap c with
  | some r => s.trapHere r
  | none =>
    let ci := s.circ c
    if (ci.arrived.lookup s.cw.widx).isSome then s.park (.rearrive c ci.gen.toNat)
    else s.releaseBlock fun s => k ci.gen (s.circleArrive s.cw.block c s.cw.widx x)

/-- BAR (05 R146). A member that arrives by OP 0 or by BARA gives no value to another's reduction, and members of different OP each
reduce all the values by their own (DESIGN CHOICE: log 25). -/
def execBar (f : BarF) (s : State) : Res :=
  let c := f.circle.val
  let op := f.op.val
  .next (s.arrive c (if op = 0 then none else some (s.rdS f.a)) fun g s =>
    if (s.circ c).gen ≠ g then (s.barDone c op f.dst).slotDone else s.park (.circle c g.toNat op f.dst))

/-- BARA (05 R146). -/
def execBara (f : BaraF) (s : State) : Res := .next (s.arrive f.circle.val none fun g s => (s.wrS f.dst g).slotDone)

/-- Has the generation a token names completed (05 R146)? -/
def tokenOver (g t : W32) : Bool := let d := (g - t).toNat; decide (1 ≤ d) && decide (d < 2147483648)

/-- BARW (05 R146, R147). -/
def execBarw (f : BarwF) (s : State) : Res :=
  let c := f.circle.val
  let t := s.rdS f.a
  .next (if !s.isMember c then s.trapHere (dataRec cCircle c)
    else if tokenOver (s.circ c).gen t then (s.circleDone c t).slotDone
    else s.park (.circleTok c t))

/-- The address checks of a byte barrier (05 R149, R150). -/
def State.barrTrap (s : State) (a : Nat) : Option TrapRec :=
  if a % 16 ≠ 0 then some ⟨cAlign, a, 0, 0⟩
  else if a + 16 > s.spdOf s.cw.block then some ⟨cRange, a, 0, 0⟩
  else none

/-- The path in focus updates a byte barrier, a strong store that releases (05 R149, R150; 09 R209, R210). -/
def State.putBarr (s : State) (key : Nat) (b : Barr) : State := ((s.putOrder (barrPlace key)).setBarr key b).noteStored [(key, 16)]

/-- A copy still counts to the barrier at a key (05 R149). -/
def State.counted (s : State) (key : Nat) : Bool :=
  s.ops.any fun o => o.isCopy && !o.done && o.flag 1 && o.barKey == key && decide (o.counted < o.units)

/-- BCNT (05 R149). -/
def execBcnt (f : BcntF) (s : State) : Res :=
  let a := (s.rdS f.addr).toNat
  .next (match s.barrTrap a with
    | some r => s.trapHere r
    | none => s.releaseBlock fun s =>
      let key := spdKey s.cw.block s.cw.core a
      let n := match s.blk with
        | some b => ((s.members b f.circle.val).filter fun m => !b.ended.contains m).length
        | none => 0
      let s := s.modOrder (Written.overwrite [barrPlace key])
      let s := { s with barriers := if s.barriers.contains key then s.barriers else key :: s.barriers }
      if s.counted key then
        let d := s.draw
        (d.2.putBarr key (Barr.of (ofWords ((List.range 4).map fun i => Config.freeWord d.1 i)))).slotDone
      else
        (s.putBarr key { pend := 0, arrive := n, members := n, circle := f.circle.val, phase := false, err := false, rest := 0 }).slotDone)

/-- BARX (05 R150): fork, alignment, range, n, then membership of the barrier's circle. -/
def execBarx (f : BarxF) (s : State) : Res :=
  let a := (s.rdS f.addr).toNat
  let n := (s.rdS f.bytes).toNat
  let key := spdKey s.cw.block s.cw.core a
  let b := s.barrAt key
  .next (if s.cw.forked && !s.cw.tm then s.trapHere (dataRec cBarFork (if (s.barrTrap a).isSome then 0 else b.circle))
    else
      match s.barrTrap a with
      | some r => s.trapHere r
      | none =>
        if n ≥ 2147483648 then s.trapHere (dataRec cDescriptor (toField f.bytes))
        else if !s.isMember b.circle then s.trapHere (dataRec cCircle b.circle)
        else if b.arrive = 0 then s.park (.barx key b.phase)
        else s.releaseBlock fun s =>
          ((s.putBarr key ({ b with pend := (b.pend + n) % 2 ^ 32, arrive := b.arrive - 1 }).settle).wrS f.dst (ofFlag b.phase)).slotDone)

/-- Word i of a condition. -/
def condWord (c : List W32) (i : Nat) : Nat := (c.getD i 0).toNat
/-- KIND of a condition, SPACE and SCOPE of a memory word, address, and the presence range (05 R153). -/
def condKind (c : List W32) : Nat := fld (condWord c 0) 0 4
def condSpace (c : List W32) : Nat := fld (condWord c 0) 8 3
def condScope (c : List W32) : Nat := fld (condWord c 0) 11 3
def condAddr (c : List W32) : Nat := condWord c 1 + 4294967296 * condWord c 2
def condPresent (c : List W32) : Nat × Nat := if bit (condWord c 1) 31 then (spCMN, fld (condWord c 1) 0 31) else (spSPD, condWord c 1)

/-- The malformed conditions (05 R153). -/
def condBad (c : List W32) : Bool :=
  let w := condWord c
  match condKind c with
  | 1 => fld (w 0) 4 4 ≠ 0 || fld (w 0) 11 21 ≠ 0 || w 1 ≠ 0 || w 2 ≠ 0 || w 3 ≠ 0
  | 2 => fld (w 0) 4 4 ≠ 0 || fld (w 0) 9 23 ≠ 0 || w 2 ≠ 0 || w 3 ≠ 0
  | 3 => fld (w 0) 14 18 ≠ 0 || fld (w 0) 4 4 > 9 || condScope c > 5 || condSpace c = spPRV || condSpace c = 7 ||
      (addrRegs (condSpace c) = 1 && w 2 ≠ 0)
  | 4 => fld (w 0) 4 28 ≠ 0 || w 2 = 0 || w 2 > 786432 || w 3 ≠ 0
  | 5 => fld (w 0) 4 4 ≠ 0 || fld (w 0) 16 16 ≠ 0 || w 2 ≠ 0 || w 3 ≠ 0
  | 6 => fld (w 0) 4 28 ≠ 0 || w 3 ≠ 0
  | _ => true

/-- The issue checks of one condition in order (05 R153). -/
def State.condTrap (s : State) (field : Nat) (c : List W32) : Option TrapRec :=
  if condBad c then some (dataRec cDescriptor field)
  else
    match condKind c with
    | 2 => s.barrTrap (condWord c 1)
    | 3 =>
      if condSpace c = spMOOT && !s.mootOpen then some (plainRec cSpace)
      else if condAddr c % 4 ≠ 0 then some ⟨cAlign, condAddr c, 0, 0⟩
      else if s.outOfRange (condSpace c) (condAddr c) 4 then some ⟨cRange, condAddr c, 0, 0⟩
      else none
    | 4 =>
      let r := condPresent c
      if s.outOfRange r.1 r.2 (condWord c 2) then some ⟨cRange, r.2, 0, 0⟩ else none
    | 5 => let k := fld (condWord c 0) 8 8; if s.isMember k then none else some (dataRec cCircle k)
    | _ => none

/-- What evaluating a condition finds; `unread` where its word cannot be read yet. -/
structure CondEval where
  st : State
  held : Bool
  err : Bool
  unread : Bool
  trap : Option TrapRec

/-- A condition that is not to be judged yet. -/
def CondEval.later (s : State) : CondEval := ⟨s, false, false, true, none⟩

/-- A condition whose read takes a fault. -/
def CondEval.fault (s : State) (r : TrapRec) : CondEval := ⟨s, false, false, false, some r⟩

/-- The address of a memory word, of 56 bits in DEV and POOL. -/
def condWordAt (c : List W32) : Nat := if addrRegs (condSpace c) = 2 then condAddr c % 2 ^ 56 else condAddr c

/-- The access that reads memory word `k` of a WAIT: synchronous and strong, RLX at the descriptor's SCOPE (05 R155; 09 R209). -/
def State.condAcc (s : State) (k : Nat) (c : List W32) : Access :=
  s.newAcc (.waitRead k) (condSpace c) (condScope c) 1 0 s.lrec.asid true [] [] [Piece.fresh 0 0 (condWordAt c) 0]

/-- How the word of a condition is read (05 R155). -/
def State.condHow (s : State) (c : List W32) : How :=
  { strong := true, atomic := false, scope := reachScope (condSpace c) (condScope c), multi := s.multiOf s.cw.block }

/-- Where the word of a condition lies. -/
def State.condFind (s : State) (c : List W32) : Found :=
  s.orDenied (s.findHeld (s.condHow c) s.cw.core s.cw.launch s.cw.block s.lrec.asid (condSpace c) (condWordAt c) needRD)

/-- Is the word one of POOL or MOOT, whose value comes later (19 R400, R404)? -/
def condRemote (c : List W32) : Bool := condKind c == 3 && (condSpace c == spPOOL || condSpace c == spMOOT)

/-- May the word be read now: the path's earlier accesses and fences do not hold the read back (09 R213, R215, R216, R222)? -/
def State.condOpen (s : State) (k : Nat) (c : List W32) : Bool :=
  let a := s.condAcc k c
  a.pieces.all fun p => s.mayPerform a p

/-- Does a WAIT of the path in focus read a word whose page the pager has not settled (08 R194)? -/
def State.waitMissed (s : State) (w : WaitPark) : Bool :=
  w.conds.any fun c => condKind c == 3 && !condRemote c &&
    match s.condFind c with
    | .miss x v => s.misses.any fun (m : Miss) => m.asid == x && m.page == v % 2 ^ 56 / 65536
    | _ => false

/-- A task wave whose WAIT reads a word of a missing page becomes a future (18 R382). -/
def State.futureWait (s : State) (w : WaitPark) : State := if s.waitMissed w then s.toFuture s.cw.uid else s

/-- Does a memory word hold its condition? -/
def condHolds (c : List W32) (x : W32) : Bool := icond (fld (condWord c 0) 4 4) x (c.getD 3 0)

/-- The read of a memory-word condition: a synchronous strong access, which waits for its page, its presence and the accesses before
it (05 R121, R155; 08 R194). A word behind the fabric can be judged once its first read has come back (19 R400); it is then judged at
every evaluation by what it holds at that evaluation, since the conditions hold at once (05 R154). A word whose page misses is one
not yet read, and not a condition that fails (DESIGN CHOICE: log 32). -/
def State.condRead (s : State) (w : WaitPark) (k : Nat) (c : List W32) : CondEval :=
  if condRemote c && (w.reads.lookup k).isNone then .later s
  else if !condRemote c && !s.condOpen k c then .later s
  else
    let sp := condSpace c
    let a := condWordAt c
    match s.condFind c with
    | .miss x v => .later (s.addMiss x v 0 s.cw.core)
    | .fault code d => .fault s ⟨code, a, if code = cDeparted then d else s.wordOff, 0⟩
    | .at l =>
      if s.locBad l 4 then .fault s ⟨cMemError, a, s.wordOff, 0⟩
      else if (match l with | .spd k => !s.presentAt k 4 | _ => false) then .later s
      else
        let q : Asker := { core := s.cw.core, launch := s.cw.launch, l2Only := false }
        let r := (s.noteXlat s.cw.core s.lrec.asid a sp).readLoc q (s.condHow c) l 4
        ⟨r.1, condHolds c (BitVec.ofNat 32 r.2), false, false, none⟩

/-- Evaluate condition `k` (05 R153, R155): a batch that holds a fault gives it, complete or not. -/
def State.condEval (s : State) (w : WaitPark) (k : Nat) (c : List W32) : CondEval :=
  match condKind c with
  | 1 =>
    let n := fld (condWord c 0) 8 3
    let ended := s.batchDone s.cw.uid n
    match s.batchFault s.cw.uid n with
    | some (r, id) => .fault (if ended then (s.dropOp id).observeBatch n else s.dropOp id) r
    | none => ⟨s, ended, false, false, none⟩
  | 2 =>
    let b := s.barrAt (spdKey s.cw.block s.cw.core (condWord c 1))
    ⟨s, b.phase != bit (condWord c 0) 8 || b.err, b.err, false, none⟩
  | 3 => s.condRead w k c
  | 4 =>
    let r := condPresent c
    match s.find s.cw.core s.cw.launch s.cw.block 0 r.1 r.2 0 with
    | .at (.spd k) => ⟨s, s.presentAt k (condWord c 2), false, false, none⟩
    | _ => ⟨s, false, false, false, none⟩
  | 5 => ⟨s, tokenOver (s.circ (fld (condWord c 0) 8 8)).gen (c.getD 1 0), false, false, none⟩
  | _ => ⟨s, decide (s.ptp ≥ condAddr c), false, false, none⟩

/-- What evaluating the conditions finds: which hold, with ERR of a byte barrier; whether a word is still to be read; a trap. -/
structure CondsEval where
  st : State
  seen : List (Nat × Bool × Bool)
  unread : Bool
  trap : Option TrapRec

/-- Evaluate conditions in order up to the first trap (05 R154, R155). -/
def State.condsEval (s : State) (w : WaitPark) : List (Nat × List W32) → CondsEval
  | [] => ⟨s, [], false, none⟩
  | (k, c) :: t =>
    let e := s.condEval w k c
    match e.trap with
    | some r => ⟨e.st, [], false, some r⟩
    | none =>
      let r := e.st.condsEval w t
      { r with seen := (k, e.held, e.err) :: r.seen, unread := e.unread || r.unread }

/-- A memory-word condition that holds is an acquire at its SCOPE (05 R153; 09 R210, R211). -/
def State.wordAcquire (s : State) (c : List W32) : State :=
  let sc := reachScope (condSpace c) (condScope c)
  let t := s.acquireAt s.cw.core s.cw.launch sc (s.multiOf s.cw.block)
  match s.condFind c with
  | .at l => if sc = 0 then t else t.takeOrder (l.place 4)
  | _ => t

/-- The acquires of the conditions that hold (05 R153; 09 R225). -/
def State.condsAcquire (s : State) (held : List (List W32)) : State :=
  held.foldl (fun (s : State) c =>
    match condKind c with
    | 1 => s.observeBatch (fld (condWord c 0) 8 3)
    | 2 => s.acquireBlock.takeOrder (barrPlace (spdKey s.cw.block s.cw.core (condWord c 1)))
    | 3 => s.wordAcquire c
    | _ => s) s

/-- The WAIT of the path in focus is over: it reads no further words. -/
def State.endReads (s : State) : State :=
  { s with accs := s.accs.filter fun a => !(a.uid == s.cw.uid && a.second == s.cw.second && a.kind.ofWait) }

/-- The conditions with their numbers, batches first: a held fault is taken even where another condition holds (05 R155). -/
def WaitPark.ordered (w : WaitPark) : List (Nat × List W32) :=
  let all : List (Nat × List W32) := (w.conds.zipIdx).map fun x => (x.2, x.1)
  (all.filter fun x => condKind x.2 == 1) ++ all.filter fun x => condKind x.2 != 1

/-- One evaluation of a WAIT: it traps, completes, expires or goes on waiting; a TIMEOUT of 0 expires at the first evaluation at
which every word has been read (05 R154, R155; DESIGN CHOICE: log 32). While the other path runs its handler the WAIT is evaluated,
but a trap of it waits for the end of trap mode (05 R154; 04 R103; log 32). -/
def State.waitEval (s : State) (w : WaitPark) (late : Bool) (done idle : State → State) : State :=
  let r := s.condsEval w w.ordered
  match r.trap with
  | some t => if s.cw.tm && !s.cw.pa.inTrap then idle s else (r.st.endReads).trapHere t
  | none =>
    let held := r.seen.filter fun x => x.2.1
    let ok := if w.all then held.length == r.seen.length else !held.isEmpty
    if !ok && !late && !(w.timeout == 0 && !r.unread) then idle r.st
    else
      let bits (xs : List (Nat × Bool × Bool)) : Nat := (xs.map fun x => 2 ^ x.1).foldl (· + ·) 0
      let res := bits held + 256 * bits (held.filter fun x => x.2.2) + (if ok then 0 else 2147483648)
      done (((r.st.condsAcquire (held.filterMap fun x => w.conds[x.1]?)).wrS w.dst (BitVec.ofNat 32 res)).endReads)

/-- Ask for the words behind the fabric, again where all have arrived (05 R154, 19 R400). -/
def State.pollWords (s : State) (w : WaitPark) : State :=
  let far := w.ordered.filter fun x => condRemote x.2
  if far.any fun x => s.accs.any fun a => a.ofPath s.cw.uid s.cw.second && a.kind == .waitRead x.1 then s
  else
    let s1 := far.foldl (fun (s : State) x =>
      let a := s.condAcc x.1 x.2
      { (s.newId).2 with accs := s.accs ++ [a] }) s
    s1.onPa fun p => { p with phase := .parked (.wait { w with polled := s.ref }) }

/-- Has the time-out of a WAIT or MOOTA come (05 R154)? -/
def expired (ref since timeout : Nat) : Bool := timeout ≠ 0xFFFFFFFF && decide (since + timeout ≤ ref)

/-- The path in focus begins to wait: the words behind the fabric are asked for. -/
def State.pollFor (s : State) (w : WaitPark) : State := if s.cw.pa.phase == .parked (.wait w) then s.pollWords w else s

/-- WAIT (05 R152-R155). -/
def execWait (f : WaitF) (s : State) : Res :=
  let n := f.n.val + 1
  let ws := s.rdWords f.desc (4 * n) 0
  let conds := (List.range n).map fun k => (ws.drop (4 * k)).take 4
  let field (k : Nat) : Nat := toField f.desc + 4 * k
  let w : WaitPark :=
    { dst := f.dst, all := f.all, conds := conds, since := s.ref, timeout := f.timeout.toNat }
  .next (match (conds.zipIdx).findSome? fun c => s.condTrap (field c.2) c.1 with
    | some r => s.trapHere r
    | none => s.waitEval w false State.slotDone fun s => ((s.park (.wait w)).pollFor w).futureWait w)

/-- The waiting data of a path that waits (05 R154). -/
def PathSt.waiting (p : PathSt) : Option WaitPark :=
  match p.phase with
  | .parked (.wait w) => some w
  | _ => none

/-- The data of a path's WAIT where it can be evaluated: its wave is on its core, in either bank, and no fault of the path is to be
taken first (04 R104, R107). -/
def State.waitOf (s : State) (uid : Nat) (second : Bool) : Option WaitPark :=
  match s.waveOf uid with
  | none => none
  | some w =>
    let p := w.path second
    if !p.pend.isEmpty || w.resid == .saved || w.resid == .future then none else p.waiting

/-- Evaluate the WAIT of a path, `late` at its time-out. -/
def State.waitTurn (s : State) (uid : Nat) (second late : Bool) : State :=
  match s.waitOf uid second with
  | none => s
  | some w =>
    if late && !expired s.ref w.since w.timeout then s
    else (s.focus uid second).waitEval w late State.finishSlot fun t => (t.pollWords w).futureWait w

/-- WAIT_EVALUATE (05 R154). -/
def execWaitEvaluate (uid : Nat) (second : Bool) (s : State) : Res := .next (s.waitTurn uid second false)

/-- WAIT_TIMEOUT (05 R154). -/
def execWaitTimeout (uid : Nat) (second : Bool) (s : State) : Res := .next (s.waitTurn uid second true)

/-- A WAIT that an event has ended completes at once; an evaluation at which it goes on waiting leaves no trace (05 R154). -/
def State.settleWait (s : State) (x : Nat × Bool) : State :=
  match s.waitOf x.1 x.2 with
  | none => s
  | some w => ((s.focus x.1 x.2).waitEval w false State.finishSlot fun _ => s).focus s.cw.uid s.cw.second

/-- The paths that wait in a WAIT. -/
def State.waiters (s : State) : List (Nat × Bool) :=
  s.allWaves.flatMap fun w => ([false, true].filter fun b => (w.path b).waiting.isSome).map fun b => (w.uid, b)

/-- Every WAIT is evaluated after each event (05 R154). -/
def State.settleWaits (s : State) : State := s.waiters.foldl State.settleWait s

end Sys2Proof.Machine
end

