-- ==== Sys2Proof/Machine/Tile.lean ====
section
/-! DEFINITION. Tiles, accumulator fragments, decode banks and activation tables as memories, the checks of names and control
words, what each engine operation touches, and the control instructions MTTC, BDSET, MFENCE, VCVT (10 R232-R246, R253, R263-R265;
12 R281, R289, R290). -/

namespace Sys2Proof.Machine

open Sys2Proof (Operand RF MfenceAccF W32 W64 Byte Mask SMap SMap.get? SMap.set SMap.getD SMap.modify SMap.del)

/-- A block's place on a core, as the engine memories name it. -/
def place (block core : Nat) : Nat := block * 8 + Config.posOf core

/-- Tiles and KiB of accumulator memory of a block; a task wave holds none (10 R232, 13 R319). -/
def State.tilesOf (s : State) (block : Nat) : Nat :=
  match SMap.get? s.blocks block with
  | some b => if b.isTask then 0 else (s.lrecOf b.launch).tiles
  | none => 0
def State.accOf (s : State) (block : Nat) : Nat :=
  match SMap.get? s.blocks block with
  | some b => if b.isTask then 0 else (s.lrecOf b.launch).acckib
  | none => 0

/-- Key of a block tile. -/
def tileKey (block core tile : Nat) : Nat := place block core * 64 + tile

/-- The control word of a block tile; 0 at block start (10 R235). -/
def State.ctlOf (s : State) (block core tile : Nat) : Nat := (SMap.getD s.tctl (tileKey block core tile) 0).toNat

/-- The block tile a name reaches (10 R233). -/
def State.tileNo (s : State) (o : Operand) : Nat := s.cw.tbase + idxOf o

/-- A tile or fragment name beyond the block's allocation (10 R233). -/
def State.nameTrap (s : State) (o : Operand) : Option TrapRec :=
  match clsOf o with
  | .t => if s.tileNo o ≥ s.tilesOf s.cw.block then some (dataRec cShape (toField o)) else none
  | .acc => if 16 * (idxOf o + 1) > s.accOf s.cw.block then some (dataRec cShape (toField o)) else none
  | _ => none

/-- The check of a tile's control word (10 R236). -/
def ctlTrap (ctl field : Nat) : Option TrapRec :=
  let enc := ctlEnc ctl
  let rows := ctlRows ctl
  let bits := ctlCols ctl * encBits enc
  if !encAssigned enc then some (dataRec cDescriptor field)
  else if rows = 0 || rows > 64 || ctlCols ctl = 0 || ctlCols ctl > 16384 || bits % 8 ≠ 0 || rows * (bits / 8) > 4096 then
    some (dataRec cShape field)
  else none

/-- Bytes of a tile, as one function of the byte number. -/
abbrev Bytes := Nat → Nat

/-- A tile of undefined values. -/
def freeBytes (seed : Nat) : Bytes := fun i => (Config.freeByte seed i).toNat

/-- Bits [pos+n-1 : pos] of bytes. -/
def bitsOf (m : Bytes) (pos n : Nat) : Nat :=
  ofBytes ((List.range (ceilDiv (pos % 8 + n) 8)).map fun i => m (pos / 8 + i)) / 2 ^ (pos % 8) % 2 ^ n

/-- The first bit of tile element (i, j) (10 R236). -/
def tilePos (ctl i j : Nat) : Nat := i * ctlCols ctl * encBits (ctlEnc ctl) + j * encBits (ctlEnc ctl)

/-- Tile element (i, j). -/
def tileElem (m : Bytes) (ctl i j : Nat) : Nat := bitsOf m (tilePos ctl i j) (encBits (ctlEnc ctl))

/-- Write `n` bits of a block tile; only they change (08 R205, 10 R263). -/
def State.tilePut (s : State) (key pos n x : Nat) : State :=
  { s with tiles := (List.range (ceilDiv (pos % 8 + n) 8)).foldl (fun m i =>
      let a := key * 4096 + pos / 8 + i
      let mask := (2 ^ n - 1) * 2 ^ (pos % 8) / 256 ^ i % 256
      let new := x % 2 ^ n * 2 ^ (pos % 8) / 256 ^ i % 256
      SMap.set m a (BitVec.ofNat 8 (Nat.lor (Nat.land (undefByte Config.seedTile m a).toNat (255 - mask)) new))) s.tiles }

/-- Write all 4096 bytes of a block tile; its words are good again (12 R290). -/
def State.tileFill (s : State) (key : Nat) (f : Nat → Byte) : State :=
  { s with
    tiles := (List.range 4096).foldl (fun m i => SMap.set m (key * 4096 + i) (f i)) s.tiles
    badWords := s.badWords.filter fun w => !(w.1 == 3 && w.2 / 1024 == key) }

/-- The words of a tile that a write has written whole are good again; `wrote` tells the bits written (12 R290). -/
def State.healTile (s : State) (key : Nat) (wrote : Nat → Bool) : State :=
  { s with badWords := s.badWords.filter fun w =>
      !(w.1 == 3 && w.2 / 1024 == key && (List.range 32).all fun i => wrote (32 * (w.2 % 1024) + i)) }

/-- Key of a fragment, and a word of it; undefined at block start (10 R234). -/
def fragKey (block core frag : Nat) : Nat := place block core * 16 + frag
def State.fragWord (s : State) (key m n : Nat) : W32 :=
  match SMap.get? s.accm (key * 4096 + 64 * m + n) with
  | some x => x
  | none => Config.freeWord Config.seedAcc (key * 4096 + 64 * m + n)

/-- Write a word of a fragment (10 R234, 12 R290). -/
def State.fragPut (s : State) (key m n : Nat) (x : W32) : State :=
  { s with
    accm := SMap.set s.accm (key * 4096 + 64 * m + n) x
    badWords := s.badWords.filter fun w => !(w.1 == 4 && w.2 == key * 4096 + 64 * m + n) }

/-- Write the words (m, n) of a fragment that lists give. -/
def State.fragPuts (s : State) (key : Nat) (ws : List (Nat × Nat × W32)) : State :=
  ws.foldl (fun (s : State) w => s.fragPut key w.1 w.2.1 w.2.2) s

/-- The element pairs (m, n) of an M × N result in row order. -/
def grid (M N : Nat) : List (Nat × Nat) := (List.range M).flatMap fun m => (List.range N).map fun n => (m, n)

/-- An entry of a decode bank; undefined at block start (10 R253). -/
def State.bankWord (s : State) (block core bank i : Nat) : Nat :=
  let k := (place block core * 2 + bank) * 512 + i
  match SMap.get? s.banks k with
  | some x => x.toNat
  | none => (Config.freeWord Config.seedBank k).toNat

/-- A word of an activation table; undefined at block start (10 R260). -/
def State.actWord (s : State) (block core i : Nat) : W32 :=
  let k := place block core * 1024 + i
  match SMap.get? s.acts k with
  | some x => x
  | none => Config.freeWord Config.seedAct k

/-- Scratchpad bytes as the engine of a core reads them for a block. -/
def State.spdRead (s : State) (block core off n : Nat) : Nat := localRead Config.seedSpd s.spd (spdKey block core off) n

/-- The units of the engine (12 R281): 0 array, 1 tile unit, 2 drain unit. -/
def OKind.unit : OKind → Nat
  | .mma => 0
  | .mmas => 0
  | .mmap => 0
  | .ttstep => 0
  | .ttrun => 0
  | .mdrain => 2
  | .mdrainP => 2
  | .azero => 2
  | _ => 1

/-- Operations of the matrix engine (12 R281). -/
def OKind.engine : OKind → Bool
  | .copy => false
  | .copyc => false
  | .cpfill => false
  | .nmwalk => false
  | _ => true

/-- Pair operations (12 R284). -/
def OKind.pair : OKind → Bool
  | .mmap => true
  | .mdrainP => true
  | _ => false

/-- The cores whose engine an operation has entered (12 R281, R285). -/
def AOp.onCores (o : AOp) : List Nat := if o.kind.pair then [o.core, o.core + 1] else [o.core]

/-- Engine operations in a core's queue. -/
def State.queueOf (s : State) (core : Nat) : List AOp := s.ops.filter fun o => o.kind.engine && !o.done && o.onCores.contains core

/-- The fragments an operation names, by key (10 R244). -/
def AOp.frags (o : AOp) : List Nat :=
  match o.kind with
  | .mma => [fragKey o.block o.core (nth o.names 0)]
  | .mmas => [fragKey o.block o.core (nth o.names 0)]
  | .azero => [fragKey o.block o.core (nth o.names 0)]
  | .mdrain => [fragKey o.block o.core (nth o.names 0)]
  | .mmap => o.onCores.map fun c => fragKey o.block c (nth o.names 0)
  | .mdrainP => o.onCores.map fun c => fragKey o.block c (nth o.names 0)
  | _ => []

/-- The fragments an operation names as destination: a drain only with CLR (12 R289). -/
def AOp.fragDst (o : AOp) : List Nat :=
  match o.kind with
  | .mdrain => if o.flag 0 then o.frags else []
  | .mdrainP => if o.flag 0 then o.frags else []
  | _ => o.frags

/-- The tiles an operation reads, and those it writes, by key. -/
def AOp.tilesRead (o : AOp) : List Nat :=
  match o.kind with
  | .tst => [tileKey o.block o.core (nth o.names 0)]
  | .tmov => [tileKey o.block o.core (nth o.names 1)]
  | .mma => [tileKey o.block o.core (nth o.names 1), tileKey o.block o.core (nth o.names 2)]
  | .mmas => [tileKey o.block o.core (nth o.names 1), tileKey o.block o.core (nth o.names 2)]
  | .mmap => [tileKey o.block o.core (nth o.names 1), tileKey o.block o.core (nth o.names 2),
      tileKey o.block (o.core + 1) (nth o.names 1)]
  | _ => []
def AOp.tilesWritten (o : AOp) : List Nat :=
  match o.kind with
  | .tld => [tileKey o.block o.core (nth o.names 0)]
  | .tldc => [tileKey o.block o.core (nth o.names 0)]
  | .tzero => [tileKey o.block o.core (nth o.names 0)]
  | .tmov => [tileKey o.block o.core (nth o.names 0)]
  | _ => []

/-- The tiles over which two operations in flight conflict (10 R244). -/
def AOp.clash (o p : AOp) : List Nat :=
  (o.tilesWritten.filter fun t => p.tilesWritten.contains t || p.tilesRead.contains t) ++
    o.tilesRead.filter fun t => p.tilesWritten.contains t

/-- Room for one more entry in the queue of each core an operation enters (12 R281). -/
def State.engineRoom (s : State) (cores : List Nat) : Bool := cores.all fun c => decide ((s.queueOf c).length < 128)

/-- Does the operation read tiles whose writer's completion is not ordered before it: known to the path in focus, and an MFENCE.OP
of it since (10 R244, R245)? -/
def State.unobserved (s : State) (o : AOp) : Bool :=
  o.tilesRead.any fun t => match SMap.get? s.tileWrites t with | some w => !w.fenced.contains s.thread | none => false

/-- Does the operation, of one core alone, name a fragment that a pair operation wrote whose completion the path in focus does not
know of (10 R252)? -/
def State.fragLost (s : State) (o : AOp) : Bool :=
  !o.kind.pair && o.frags.any fun k => match SMap.get? s.pairWrites k with | some w => !w.known.contains s.thread | none => false

/-- Does the operation read tiles or scratchpad that the path in focus has written since its last MFENCE.OP (10 R245)? What a
contraction reads is known step by step. -/
def State.unready (s : State) (o : AOp) : Bool :=
  s.cw.pa.unfenced.any fun u =>
    o.tilesRead.any (fun t => u.1 == 2 * t + 1) || (u.1 % 2 == 0 && !o.kind.steps && o.ownSpans.any (spansMeet (u.1 / 2, 1)))

/-- An operation that issues notes what it races with: unfenced accesses of its path, tiles and fragments not known to be written,
and operations in flight that write what it reads, or read or write what it writes (10 R244, R245, R252). -/
def State.noteRaces (s : State) (o : AOp) (live : List AOp) : AOp :=
  let bytes := s.cw.pa.unfenced.filter fun u => u.1 % 2 == 0 && o.kind.steps && (o.indexSpan :: o.ownSpans).any (spansMeet (u.1 / 2, 1))
  { o with spoil := (if s.unready o || s.unobserved o || s.fragLost o then [raceMark] else []) ++ (live.flatMap fun p => o.clash p) ++
      bytes.map fun u => byteMark + u.1 / 2 }

/-- What an operation that issues will have written: tiles, and for a pair operation the follower's fragment. -/
def State.noteWritten (s : State) (o : AOp) : State :=
  let w : Written := { op := o.id, uid := o.uid, batch := none, known := [], fenced := [], relay := [], read := [], places := [] }
  let far := if o.kind.pair then o.fragDst.drop 1 else []
  { s with
    fragWriters := o.fragDst.foldl (fun m k => SMap.set m k o.id) s.fragWriters
    tileWrites := o.tilesWritten.foldl (fun m k => SMap.set m k w) s.tileWrites
    pairWrites := far.foldl (fun m k => SMap.set m k w) (o.fragDst.foldl (fun m k => SMap.del m k) s.pairWrites) }

/-- Issue an engine operation: it waits for room, notes its conflicts, and clears presence (05 R137, R142; 10 R244; 12 R281). -/
def State.issueEngine (s : State) (o : AOp) : State :=
  if s.outstanding s.cw.uid ≥ 64 || !s.engineRoom o.onCores then s.park (.opLimit o.onCores)
  else
    let live := s.ops.filter fun p => p.kind.engine && !p.done
    let o1 := s.noteRaces o live
    let s1 := { s with ops := s.ops.map fun (p : AOp) => if p.kind.engine && !p.done then { p with spoil := p.spoil ++ p.clash o } else p }
    (((s1.noteWritten o).addOp o1).clearPresence o1).slotDone

/-- Issue an engine operation whose checks have been made. -/
def State.engineOp (s : State) (r : Option TrapRec) (o : AOp) : State :=
  match r with
  | some r => s.trapHere r
  | none => s.issueEngine o

/-- A tile's bytes as an operation reads them: undefined where it conflicts with another in flight, or raced (10 R244, R245). -/
def State.opTile (s : State) (o : AOp) (key seed : Nat) : Bytes :=
  if o.raced || o.spoil.contains key then freeBytes seed
  else fun i => (undefByte Config.seedTile s.tiles (key * 4096 + i)).toNat

/-- After an operation has written a tile that another in flight reads or writes, the tile is undefined (10 R244). -/
def State.spoilTile (s : State) (o : AOp) (key : Nat) : State :=
  if !o.spoil.contains key then s
  else
    let d := s.draw
    d.2.tileFill key fun i => Config.freeByte d.1 i

/-- The low bit and width of the control field MTTC writes (10 R235, R237). -/
def mttcField (sub : Nat) : Nat × Nat :=
  match sub with
  | 0 => (0, 6)
  | 1 => (6, 7)
  | 2 => (13, 15)
  | 3 => (28, 1)
  | _ => (29, 9)

/-- MTTC (10 R237). DEDUCED: SUB 5 writes TBASE, and its t0 names no tile (log 34). -/
def execMttc (f : RF) (s : State) : Res :=
  let x := (s.rdS f.a).toNat
  .next (if f.sub.val = 5 then (s.onWave fun w => { w with tbase := x % 64 }).slotDone
    else
      match s.nameTrap f.dst with
      | some r => s.trapHere r
      | none =>
        let r := mttcField f.sub.val
        let k := tileKey s.cw.block s.cw.core (s.tileNo f.dst)
        let old := (SMap.getD s.tctl k 0).toNat
        let new := old - fld old r.1 r.2 * 2 ^ r.1 + x % 2 ^ r.2 * 2 ^ r.1
        ({ s with tctl := SMap.set s.tctl k (BitVec.ofNat 64 new) }).slotDone)

/-- BDSET (10 R265). -/
def execBdset (f : RF) (s : State) : Res := .next (s.onWave fun w => w.setD (idxOf f.dst) (s.rdS f.a)).slotDone

/-- MFENCE.OP: what the path has written, and what it knows to be complete, is ordered before later reads (10 R245). -/
def execMfenceOp (s : State) : Res :=
  let wait := s.unsettled fun a => a.kind != .joinSub
  .next (if wait.isEmpty then
      ((s.modOrder (Written.ready s.thread)).onPa fun p => { p with unfenced := [] }).slotDone
    else s.park (.accesses wait))

/-- Operations issued on the core that name one of the fragments of the wave's block that are listed (10 R246); as destination those
of the pair's other core too, which have entered the core's queue (12 R289). -/
def State.namers (s : State) (frags : List Nat) (dst : Bool) : List Nat :=
  let keys := frags.map fun n => fragKey s.cw.block s.cw.core n
  ((s.queueOf s.cw.core).filter fun o => (dst || o.core == s.cw.core) && (if dst then o.fragDst else o.frags).any keys.contains).map (·.id)

/-- The pair operations that have completed, issued on the core before `limit` and naming fragments of the wave's block that are
listed: what they wrote on the pair's other core happens before the path's later accesses (10 R246, R252). -/
def State.learnPairs (s : State) (frags : List Nat) (limit : Nat) : State :=
  { s with pairWrites := s.pairWrites.map fun x =>
      if x.1 / 16 == place s.cw.block s.cw.core + 1 && frags.contains (x.1 % 16) && decide (x.2.op < limit) &&
          !s.ops.any (fun o => o.id == x.2.op && !o.done) then (x.1, x.2.learn s.thread) else x }

/-- MFENCE.ACC (10 R246): `waited` once the operations found at first have completed. -/
def execMfenceAcc (f : MfenceAccF) (s : State) : Res :=
  let frags := (List.range 16).filter fun n => f.mask.getLsbD n
  let wait := if s.cw.pa.waited then [] else s.namers frags false
  .next (if !wait.isEmpty then (s.onPa fun p => { p with waitId := s.nextId }).park (.ops wait)
    else if frags.isEmpty then s.slotDone
    else (s.acquireBlock.learnPairs frags (if s.cw.pa.waited then s.cw.pa.waitId else s.nextId)).slotDone)

/-- The lanes of VCVT whose element lies in the tile, with the element's column (10 R263). -/
def vcvtLanes (lanes : List Nat) (ctl r c : Nat) : List (Nat × Nat) :=
  (lanes.filter fun l => r < ctlRows ctl && c + l < ctlCols ctl).map fun l => (l, c + l)

/-- Does an operation in flight read or write a tile (10 R244)? -/
def State.tileBusy (s : State) (key : Nat) : Bool :=
  s.ops.any fun o => o.kind.engine && !o.done && (o.tilesRead ++ o.tilesWritten).contains key

/-- A tile is undefined, as is what the operations in flight make of it (10 R244). -/
def State.spoilFor (s : State) (key : Nat) : State :=
  let d := s.draw
  { (d.2.tileFill key fun i => Config.freeByte d.1 i) with
    ops := s.ops.map fun (o : AOp) =>
      if o.kind.engine && !o.done && (o.tilesRead ++ o.tilesWritten).contains key then { o with spoil := o.spoil ++ [key] } else o }

/-- VCVT (10 R263; 07 R167): names, control word, then slot. To FP32 it rounds as R263 writes it (DEDUCED: log 34). A tile that an
operation in flight reads or writes is left undefined (10 R244). -/
def execVcvt (f : RF) (s : State) : Res :=
  let slot := (s.lrec.slots[f.fslot.val]?).getD 0
  let enc := slotEnc slot
  .next (match s.nameTrap f.dst with
    | some r => s.trapHere r
    | none =>
      let key := tileKey s.cw.block s.cw.core (s.tileNo f.dst)
      let ctl := s.ctlOf s.cw.block s.cw.core (s.tileNo f.dst)
      match ctlTrap ctl (toField f.dst) with
      | some r => s.trapHere r
      | none =>
        if enc ≠ ctlEnc ctl || isCbEnc enc then s.trapHere ⟨cFormat, 0, f.fslot.val, maskOfList (s.active f.all)⟩
        else
          let val (l : Nat) : Nat :=
            let x := s.rdL f.a l
            roundTo enc (if isIntEnc enc then XR.ofInt x.toInt else fp32Val x) s.cw.rm (bit f.mod.val 0 || slotSat slot)
              (slotSubn slot && (enc == encFp16 || enc == encBf16))
          let lanes := vcvtLanes (s.active f.all) ctl (s.rdS f.b).toNat (s.rdS f.c).toNat
          let put := lanes.foldl
            (fun (s : State) x => s.tilePut key (tilePos ctl (s.rdS f.b).toNat x.2) (encBits enc) (val x.1)) s
          let put := put.healTile key fun pos => lanes.any fun x =>
            decide (tilePos ctl (s.rdS f.b).toNat x.2 ≤ pos && pos < tilePos ctl (s.rdS f.b).toNat x.2 + encBits enc)
          let put := if lanes.isEmpty then put else put.onPa fun p => { p with unfenced := SMap.set p.unfenced (2 * key + 1) () }
          (if !lanes.isEmpty && s.tileBusy key then put.spoilFor key else put).slotDone)

/-- The lanes whose fragment word is uncorrectable take one delivered fault (12 R290). -/
def State.fragFault (s : State) (lanes : List (Nat × Nat)) : State :=
  match lanes with
  | [] => s
  | (_, off) :: _ =>
    s.onPa fun p => { p with pend := p.pend ++ [⟨cMemError, off + 2 * 4294967296, s.wordOff, maskOfList (lanes.map (·.1))⟩] }

/-- VCVT.ACC (10 R264; 12 R289, R290): it waits for the operations counted before it, those of the pair's other core among them, and
reads what they wrote. An operation that enters while it waits races with the read: the values are undefined then. -/
def execVcvtAcc (f : RF) (s : State) : Res :=
  let n := idxOf f.a
  let r := (s.rdS f.b).toNat
  let c := (s.rdS f.c).toNat
  .next (match s.nameTrap f.a with
    | some t => s.trapHere t
    | none =>
      let wait := s.namers [n] true
      let key := fragKey s.cw.block s.cw.core n
      if !s.cw.pa.waited && !wait.isEmpty then (s.onPa fun p => { p with waitId := s.nextId }).park (.ops wait)
      else
        let racy := s.cw.pa.waited && (match SMap.get? s.fragWriters key with | some id => decide (s.cw.pa.waitId ≤ id) | none => false)
        let inside (l : Nat) : Bool := r < 64 && c + l < 64
        let bad := ((s.active f.all).filter fun l => inside l && s.badWords.contains (4, key * 4096 + 64 * r + c + l)).map
          fun l => (l, 16384 * n + 256 * r + 4 * (c + l))
        let d := s.draw
        ((d.2.wrLanes f.dst (s.active f.all) fun l =>
          if inside l && !racy && !(bad.map (·.1)).contains l then s.fragWord key r (c + l) else Config.freeWord d.1 l).fragFault bad).slotDone)

end Sys2Proof.Machine
end

