-- ==== Sys2Proof/Machine/Matrix.lean ====
section
/-! DEFINITION. The tile moves and the matrix operations: TLD, TLDC, TST, TZERO, TMOV, AZERO, MMA, MMAS, MMAP and MDTAB
(10 R238-R255; 07 R170-R173; 12 R286-R290). -/

namespace Sys2Proof.Machine

open Sys2Proof (Operand RF AF W32 W64 Byte Mask SMap SMap.get? SMap.set SMap.getD SMap.modify SMap.del)

/-- The trap record of an uncorrectable word of engine storage: its offset and kind (12 R290). -/
def AOp.badRec (o : AOp) (off kind : Nat) : TrapRec := ⟨cMemError, off + kind * 4294967296, o.word, 0⟩

/-- The uncorrectable words among bytes [lo, hi) of a tile, by offset in the block's tiles. -/
def State.badTile (s : State) (key lo hi : Nat) : List Nat :=
  (s.badWords.filter fun w => w.1 == 3 && w.2 / 1024 == key && decide (4 * (w.2 % 1024) < hi && lo < 4 * (w.2 % 1024) + 4)).map
    fun w => 4096 * (key % 64) + 4 * (w.2 % 1024)

/-- The bytes of row i of a tile. -/
def rowSpan (ctl i : Nat) : Nat × Nat :=
  let p := ctlCols ctl * encBits (ctlEnc ctl) / 8
  (p * i, p * i + p)

/-- An operation completes at once where it wrote nothing; its fault is recorded (12 R283). -/
def State.opFault (s : State) (id : Nat) (r : TrapRec) : State :=
  let s1 := match s.opOf id with
    | some o => s.countFault (Config.dieOf o.core) (s.lrecOf o.launch).asid r.addr r.cause
    | none => s
  s1.modOp id fun o => { o with fault := some r }

/-- The outcome of an engine operation's work: done, or held up by a page miss. -/
inductive Work where
  | done (s : State)
  | miss (asid va : Nat) (write : Bool)

/-- The value TLD and TLDC write to an element: moved, converted or filled (10 R239, R240). -/
def State.tldValue (s : State) (o : AOp) (k : Nat) : Io :=
  let S := o.sshape
  let enc := ctlEnc (nth o.ctl 0)
  match o.srcSpot k with
  | none => .ok s (if o.kind == .tldc then 0 else fillPat S.fill enc)
  | some p =>
    match s.readSpot o p with
    | .ok t e => .ok t (o.conv S.enc enc e (if o.kind == .tld && o.flag 0 then some (o.arg 5) else none))
    | r => r

/-- Load the tile elements from a list; at a fault the rest that a load writes are undefined (05 R139; 10 R239, R242). DEDUCED: the
elements before it in the order of the walk have landed (log 34). -/
def State.tldGo (s : State) (o : AOp) (key : Nat) : List Nat → Work
  | [] => .done s
  | k :: ks =>
    let ctl := nth o.ctl 0
    let pos := tilePos ctl (k / max (ctlCols ctl) 1) (k % max (ctlCols ctl) 1)
    let bits := encBits (ctlEnc ctl)
    if (o.elem k).dst.isNone then s.tldGo o key ks
    else
      match s.tldValue o k with
      | .ok t x =>
        let d := t.draw
        if o.raced then (d.2.tilePut key pos bits (Config.freeWord d.1 k).toNat).tldGo o key ks else (t.tilePut key pos bits x).tldGo o key ks
      | .miss a v => .miss a v false
      | .fault c x =>
        let d := s.draw
        .done ((((k :: ks).filter fun j => (o.elem j).dst.isSome).foldl (fun (s : State) j =>
          s.tilePut key (tilePos ctl (j / max (ctlCols ctl) 1) (j % max (ctlCols ctl) 1)) bits (Config.freeWord d.1 j).toNat) d.2).opFault o.id
            (o.memFault c x))

/-- The words of a tile that a load wrote whole are good again (12 R290). -/
def State.tldHeal (s : State) (o : AOp) (key : Nat) : State :=
  let ctl := nth o.ctl 0
  let bits := encBits (ctlEnc ctl)
  s.healTile key fun bitpos => (List.range o.count).any fun k =>
    let pos := tilePos ctl (k / max (ctlCols ctl) 1) (k % max (ctlCols ctl) 1)
    (o.elem k).dst.isSome && decide (pos ≤ bitpos && bitpos < pos + bits)

/-- TLD and TLDC (10 R239, R240). -/
def State.workTld (s : State) (o : AOp) : Work :=
  let key := tileKey o.block o.core (nth o.names 0)
  match s.tldGo o key (List.range o.count) with
  | .done t => .done ((t.tldHeal o key).spoilTile o key)
  | w => w

/-- Write the elements listed of a destination, undefined from the first fault on (05 R139), in the order of the list (DEDUCED: log
34). -/
def State.writeElems (s : State) (o : AOp) : List (Nat × Nat) → Work
  | [] => .done s
  | (k, x) :: ks =>
    match o.dstSpot k with
    | none => s.writeElems o ks
    | some p =>
      match s.writeSpot o p x with
      | .ok t _ => t.writeElems o ks
      | .miss a v => .miss a v true
      | .fault c a =>
        let d := s.draw
        .done ((((k, x) :: ks).foldl (fun (s : State) y =>
          match o.dstSpot y.1 with
          | none => s
          | some q => match s.writeSpot o q (Config.freeWord d.1 y.1).toNat with | .ok t _ => t | _ => s) d.2).opFault o.id (o.memFault c a))

/-- TST (10 R241). An uncorrectable word of the tile is reported before a fault of the destination (DEDUCED: log 37). -/
def State.workTst (s : State) (o : AOp) : Work :=
  let ctl := nth o.ctl 0
  let key := tileKey o.block o.core (nth o.names 0)
  let d := s.draw
  let m := s.opTile o key d.1
  let cols := max (ctlCols ctl) 1
  let bad (k : Nat) : Bool :=
    let pos := tilePos ctl (k / cols) (k % cols)
    !(s.badTile key (pos / 8) ((pos + encBits (ctlEnc ctl) + 7) / 8)).isEmpty
  let val (k : Nat) : Nat :=
    if o.raced || bad k then (Config.freeWord d.1 k).toNat else o.conv (ctlEnc ctl) o.dshape.enc (tileElem m ctl (k / cols) (k % cols)) none
  match d.2.writeElems o ((List.range o.count).map fun k => (k, val k)) with
  | .done t =>
    match s.badTile key 0 (rowSpan ctl (ctlRows ctl)).1 with
    | off :: _ => .done (t.opFault o.id (o.badRec off 1))
    | [] => .done t
  | w => w

/-- TZERO (10 R243). -/
def State.workTzero (s : State) (o : AOp) : Work :=
  let key := tileKey o.block o.core (nth o.names 0)
  .done ((s.tileFill key fun _ => 0).spoilTile o key)

/-- TMOV (10 R243). -/
def State.workTmov (s : State) (o : AOp) : Work :=
  let key := tileKey o.block o.core (nth o.names 0)
  let src := tileKey o.block o.core (nth o.names 1)
  let d := s.draw
  let m := s.opTile o src d.1
  let bad := s.badTile src 0 4096
  let b (i : Nat) : Byte :=
    if bad.contains (4096 * (src % 64) + i / 4 * 4) then Config.freeByte d.1 i else BitVec.ofNat 8 (m i)
  let t := (d.2.tileFill key b).spoilTile o key
  .done (match bad with | off :: _ => t.opFault o.id (o.badRec off 1) | [] => t)

/-- AZERO (10 R243): undefined where it races with a pair operation (10 R252). -/
def State.workAzero (s : State) (o : AOp) : Work :=
  let d := s.draw
  .done (d.2.fragPuts (fragKey o.block o.core (nth o.names 0)) ((grid 64 64).map fun p =>
    (p.1, p.2, if o.raced then Config.freeWord d.1 (64 * p.1 + p.2) else 0)))

/-- The indices of a codebook row walked through a bank: the entries used in order (10 R255, 12 R287). -/
def State.decodeRow (s : State) (o : AOp) (core bank : Nat) : Nat → List Nat → List Nat
  | _, [] => []
  | st, c :: cs =>
    let i := (st + c) % 512
    i :: s.decodeRow o core bank (fld (s.bankWord o.block core bank i) 16 9) cs

/-- The values of a row of an operand tile (10 R249, R255). -/
def State.rowVals (s : State) (o : AOp) (core : Nat) (m : Bytes) (ctl i : Nat) : List XR :=
  let enc := ctlEnc ctl
  let raw := (List.range (ctlCols ctl)).map fun j => tileElem m ctl i j
  if isCbEnc enc then (s.decodeRow o core (ctlDtb ctl) (ctlState0 ctl) raw).map fun e => bf16Val (s.bankWord o.block core (ctlDtb ctl) e)
  else raw.map (decodeEl enc)

/-- An uncorrectable word that reading a row meets: in the tile, or in the bank that decodes it (12 R290). -/
def State.rowBad (s : State) (o : AOp) (core tile : Nat) (m : Bytes) (ctl i : Nat) : Option (Nat × Nat) :=
  if s.badWords.isEmpty then none
  else
    let key := tileKey o.block core tile
    let sp := rowSpan ctl i
    match s.badTile key sp.1 sp.2 with
    | off :: _ => some (off, 1)
    | [] =>
      if isCbEnc (ctlEnc ctl) then
        let b := ctlDtb ctl
        let used := s.decodeRow o core b (ctlState0 ctl) ((List.range (ctlCols ctl)).map fun j => tileElem m ctl i j)
        (used.find? fun e => s.badWords.contains (5, (place o.block core * 2 + b) * 512 + e)).map fun e => (4 * e, 3)
      else none

/-- Does element (i, j) of an operand tile depend on an uncorrectable word: one of its own bits, or what decodes its row up to it
(12 R287, R290)? -/
def State.elemBad (s : State) (o : AOp) (core tile : Nat) (m : Bytes) (ctl i j : Nat) : Bool :=
  if s.badWords.isEmpty then false
  else
    let key := tileKey o.block core tile
    let cb := isCbEnc (ctlEnc ctl)
    let from_ := tilePos ctl i (if cb then 0 else j)
    let end_ := tilePos ctl i j + encBits (ctlEnc ctl)
    !(s.badTile key (from_ / 8) ((end_ + 7) / 8)).isEmpty ||
      (cb &&
        (s.decodeRow o core (ctlDtb ctl) (ctlState0 ctl) ((List.range (j + 1)).map fun k => tileElem m ctl i k)).any fun e =>
          s.badWords.contains (5, (place o.block core * 2 + ctlDtb ctl) * 512 + e))

/-- The exact sum of the products of two lists (07 R172). -/
def dotSum (a b : List XR) : XR := XR.sum 0 (List.zipWith XR.mul a b)

/-- Elements of a K-step (07 R172, R173; 10 R248). -/
def kStep (ea eb : Nat) : Nat :=
  let wide (e : Nat) : Bool := e == encFp16 || e == encBf16 || isCbEnc e
  if wide ea || wide eb then 32 else 64

/-- One element of an FP product: K-steps in order, one rounding each (07 R170, R172; 10 R249). `blk` is the block size and
`sa`, `sb` the scales where it is scaled. -/
def mmaFp (step : Nat) (blk : Nat) (a b : List XR) (sa sb : Nat → Nat) (scaled : Bool) (acc : W32) : W32 :=
  (List.range (ceilDiv a.length step)).foldl (fun (acc : W32) t =>
    let lo := t * step
    let n := min step (a.length - lo)
    let part (l : List XR) (from_ cnt : Nat) : List XR := (l.drop from_).take cnt
    let terms : List XR :=
      if scaled then
        (List.range (n / blk)).map fun i =>
          scaleBlock (dotSum (part a (lo + i * blk) blk) (part b (lo + i * blk) blk)) (sa (lo / blk + i)) (sb (lo / blk + i))
      else List.zipWith XR.mul (part a lo n) (part b lo n)
    BitVec.ofNat 32 (roundTo encFp32 (XR.sum 0 (fp32Val acc :: terms)) 0 false false)) acc

/-- The integer an exact integer value is. -/
def XR.toInt : XR → Int
  | .fin s n _ => if s then -(n : Int) else n
  | _ => 0

/-- One element of an integer product (07 R173). -/
def mmaInt (sat : Bool) (a b : List XR) (acc : W32) : W32 :=
  (List.range (ceilDiv a.length 64)).foldl (fun (acc : W32) t =>
    let part (l : List XR) : List XR := (l.drop (64 * t)).take 64
    let x := acc.toInt + (List.zipWith (fun (x y : XR) => x.toInt * y.toInt) (part a) (part b)).foldl (· + ·) 0
    if sat then satS32 x else BitVec.ofInt 32 x) acc

/-- M, N and K of a matrix operation (10 R248). -/
def AOp.dimM (o : AOp) : Nat := ctlRows (nth o.ctl 0)
def AOp.dimN (o : AOp) : Nat := if o.trn then ctlCols (nth o.ctl 1) else ctlRows (nth o.ctl 1)
def AOp.dimK (o : AOp) : Nat := ctlCols (nth o.ctl 0)

/-- Is the operation scaled: MMAS, or MMAP.S (10 R247, R251)? -/
def AOp.scaled (o : AOp) : Bool := o.kind == .mmas || (o.kind == .mmap && o.flag 11)

/-- Column n of B, from its rows (10 R248). -/
def AOp.colB (o : AOp) (rows : List (List XR)) (n : Nat) : List XR :=
  if o.trn then rows.map fun r => (r[n]?).getD XR.nan else (rows[n]?).getD []

/-- One core's half of a matrix operation: its own tile A and fragment, the leader's tile B (10 R249-R251; 12 R286, R290). -/
def State.mmaHalf (s : State) (o : AOp) (core ctlA : Nat) : State :=
  let d := s.draw
  let tA := s.opTile o (tileKey o.block core (nth o.names 1)) d.1
  let tB := s.opTile o (tileKey o.block o.core (nth o.names 2)) (d.1 + 1)
  let ctlB := nth o.ctl 1
  let rowsB := ctlRows ctlB
  let A := (List.range o.dimM).map fun m => s.rowVals o core tA ctlA m
  let B := (List.range rowsB).map fun r => s.rowVals o o.core tB ctlB r
  let badA := (List.range o.dimM).map fun m => s.rowBad o core (nth o.names 1) tA ctlA m
  let badB := (List.range rowsB).map fun r => s.rowBad o o.core (nth o.names 2) tB ctlB r
  let key := fragKey o.block core (nth o.names 0)
  let badD (m n : Nat) : Bool := !o.flag 0 && s.badWords.contains (4, key * 4096 + 64 * m + n)
  let badCol (n : Nat) : Bool :=
    if o.trn then (List.range rowsB).any fun r => s.elemBad o o.core (nth o.names 2) tB ctlB r n else ((badB[n]?).getD none).isSome
  let spoilt (m n : Nat) : Bool := o.raced || ((badA[m]?).getD none).isSome || badD m n || badCol n
  let q := slotBlk o.slotDesc
  let Q := o.dimK / q
  let sa (m i : Nat) : Nat := s.spdRead o.block core (o.arg 0 + 2 * (m * Q + i)) 2
  let sb (n i : Nat) : Nat := s.spdRead o.block o.core (o.arg 1 + 2 * (n * Q + i)) 2
  let isInt := isIntEnc (ctlEnc ctlA)
  let val (m n : Nat) : W32 :=
    let acc : W32 := if o.flag 0 then 0 else s.fragWord key m n
    let a := (A[m]?).getD []
    let b := o.colB B n
    if spoilt m n then Config.freeWord d.1 (64 * m + n)
    else if isInt then mmaInt o.sat a b acc
    else mmaFp (kStep (ctlEnc ctlA) (ctlEnc ctlB)) q a b (sa m) (sb n) o.scaled acc
  let t := ({ d.2 with fresh := d.2.fresh + 1 }).fragPuts key ((grid o.dimM o.dimN).map fun (p : Nat × Nat) => (p.1, p.2, val p.1 p.2))
  let bad : Option TrapRec :=
    match badA.findSome? id with
    | some (off, k) => some (o.badRec off k)
    | none =>
      match badB.findSome? id with
      | some (off, k) => some (o.badRec off k)
      | none =>
        ((grid o.dimM o.dimN).find? fun (p : Nat × Nat) => badD p.1 p.2).map fun p =>
          o.badRec (16384 * nth o.names 0 + 256 * p.1 + 4 * p.2) 2
  match bad with
  | some r => if (t.opOf o.id).any (·.fault.isSome) then t else t.opFault o.id r
  | none => t

/-- MMA, MMAS and MMAP; the follower's half needs a tile A of the same shape (10 R251), which is reported before an uncorrectable
word (DEDUCED: log 37). -/
def State.workMma (s : State) (o : AOp) : Work :=
  let lead := s.mmaHalf o o.core (nth o.ctl 0)
  if o.kind != .mmap then .done lead
  else if fld o.fctl 0 28 = fld (nth o.ctl 0) 0 28 then .done (lead.mmaHalf o (o.core + 1) o.fctl)
  else .done (lead.opFault o.id ⟨cEngine, 0, 1, 0⟩)

/-- MDTAB (10 R254). -/
def State.workMdtab (s : State) (o : AOp) : Work :=
  let n := o.arg 1
  let d := s.draw
  let ws := (List.range n).map fun i =>
    if o.raced then (Config.freeWord d.1 i).toNat % 2 ^ 25 else s.spdRead o.block o.core (o.arg 0 + 4 * i) 4
  match (ws.zipIdx).find? fun w => w.1 / 2 ^ 25 ≠ 0 with
  | some w => .done (s.opFault o.id ⟨cEngine, 0, w.2, 0⟩)
  | none =>
    let base := (place o.block o.core * 2 + (o.flag 0).toNat) * 512
    .done { d.2 with
      banks := (ws.zipIdx).foldl (fun m w => SMap.set m (base + w.2) (BitVec.ofNat 32 w.1)) s.banks
      badWords := s.badWords.filter fun w => !(w.1 == 5 && decide (base ≤ w.2 && w.2 < base + n)) }

/-- The stage-5 checks of a tile move's shape (10 R242). -/
def tileShapeTrap (h : Shp) (field : Nat) (trn : Bool) (rows : Nat) : Option TrapRec :=
  firstTrap [(h.malformed, dataRec cDescriptor field), (!tileSpaces.contains h.space, plainRec cSpace),
    (h.flat false || (trn && h.rank < 2) || (h.rank = 1 && rows > 1), dataRec cShape field)]

/-- A tile operation's name and control word: TDATA names the operand (10 R233, R236, R438). -/
def State.tileTrap (s : State) (o : Operand) : Option TrapRec :=
  ctlTrap (s.ctlOf s.cw.block s.cw.core (s.tileNo o)) (toField o)

/-- What a tile move captures: names, control word, shape, origin. -/
def State.tileOp (s : State) (kind : OKind) (f : AF) (h : Nat) : AOp :=
  { s.newOp kind with
    ha := h, hb := h, flags := f.flags.toNat, shapes := [s.cw.hreg h], args := s.argGroup f.opb, names := [s.tileNo f.opa],
    ctl := [s.ctlOf s.cw.block s.cw.core (s.tileNo f.opa)] }

/-- The scratchpad bytes that a tile load reads (10 R245). -/
def State.loadSpans (s : State) (o : AOp) : List (Nat × Nat) :=
  if addrRegs o.sshape.space = 2 then []
  else
    (List.range o.count).flatMap fun k =>
      match o.srcSpot k with
      | none => []
      | some p => p.bytes.filterMap fun a => match s.opFind o o.core p.space a 0 with | .at (.spd x) => some (x, 1) | _ => none

/-- TLD and TLDC at issue (10 R239, R240, R438). -/
def State.issueTld (s : State) (f : AF) (kind : OKind) : State :=
  let S := Shp.of (s.cw.hreg f.hb)
  let o := { s.tileOp kind f f.hb with slotDesc := (s.lrec.slots[S.fslot]?).getD 0 }
  let field := 0x340 + f.hb.val
  let enc := ctlEnc (nth o.ctl 0)
  let cb := kind == .tldc
  let conv := S.enc != enc || o.flag 0
  let badEnc := if cb then !isCbEnc S.enc || S.enc != enc
    else isCbEnc S.enc || isCbEnc enc || (conv && slotEnc o.slotDesc != enc)
  s.engineOp ((s.nameTrap f.opa).or ((s.tileTrap f.opa).or ((tileShapeTrap S field o.trn (ctlRows (nth o.ctl 0))).or
    ((firstTrap [(badEnc, dataRec cShape field)]).or (s.rangeTrap o o.hb o.ha))))) { o with spans := s.loadSpans o }

/-- TLD (10 R239). -/
def execTld (f : AF) (s : State) : Res := .next (s.issueTld f .tld)
/-- TLDC (10 R240). -/
def execTldc (f : AF) (s : State) : Res := .next (s.issueTld f .tldc)

/-- TST (10 R241, R242, R438). -/
def execTst (f : AF) (s : State) : Res :=
  let D := Shp.of (s.cw.hreg f.ha)
  let o := { s.tileOp .tst f f.ha with slotDesc := (s.lrec.slots[f.fslot.val]?).getD 0 }
  let field := 0x340 + f.ha.val
  let enc := ctlEnc (nth o.ctl 0)
  .next (s.engineOp ((s.nameTrap f.opa).or ((s.tileTrap f.opa).or ((tileShapeTrap D field o.trn (ctlRows (nth o.ctl 0))).or
    ((firstTrap [(enc != D.enc && convBad enc D.enc o.slotDesc, dataRec cShape field)]).or (s.rangeTrap o o.hb o.ha))))) o)

/-- TZERO (10 R243). -/
def execTzero (f : RF) (s : State) : Res :=
  .next (s.engineOp (s.nameTrap f.dst) { s.newOp .tzero with names := [s.tileNo f.dst] })

/-- TMOV (10 R243). -/
def execTmov (f : RF) (s : State) : Res :=
  .next (s.engineOp ((s.nameTrap f.dst).or (s.nameTrap f.a)) { s.newOp .tmov with names := [s.tileNo f.dst, s.tileNo f.a] })

/-- AZERO (10 R243). -/
def execAzero (f : RF) (s : State) : Res :=
  .next (s.engineOp (s.nameTrap f.dst) { s.newOp .azero with names := [idxOf f.dst] })

/-- The kind of a matrix operand: 1 FP or codebook, 2 integer, 0 neither (10 R248). -/
def mmaClass (enc : Nat) : Nat :=
  if isCbEnc enc || (2 ≤ enc && enc ≤ 8) then 1 else if 9 ≤ enc && enc ≤ 11 then 2 else 0

/-- The scale array of an operand: alignment, then range (10 R250). -/
def State.scaleTrap (s : State) (off n al : Nat) : Option TrapRec :=
  if off % al ≠ 0 then some ⟨cAlign, off, 0, 0⟩
  else if off + n > s.spdOf s.cw.block then some ⟨cRange, off, 0, 0⟩
  else none

/-- Does the block hold both cores of the pair the wave's core leads (10 R251)? -/
def State.leads (s : State) : Bool :=
  match s.blk with
  | some b => s.cw.core % 2 == 0 && b.cores.contains (s.cw.core + 1)
  | none => false

/-- The scale arrays that a scaled operation reads: A's on each core, B's on the leader (10 R250, R251). -/
def State.scaleSpans (s : State) (o : AOp) : AOp :=
  let Q := o.dimK / slotBlk o.slotDesc
  { o with spans := (o.onCores.map fun c => (spdKey s.cw.block c (o.arg 0), 2 * o.dimM * Q)) ++
      [(spdKey s.cw.block s.cw.core (o.arg 1), 2 * o.dimN * Q)] }

/-- MMA, MMAS and MMAP at issue (10 R247-R251, R438). -/
def State.issueMma (s : State) (f : AF) (kind : OKind) : State :=
  let frag : Operand := .acc f.ha
  let sg := (sgOf f).getD (.s 0)
  let o0 := { s.newOp kind with
    ha := f.ha.val, flags := f.flags.toNat, slotDesc := (s.lrec.slots[f.fslot.val]?).getD 0,
    names := [f.ha.val, s.tileNo f.opa, s.tileNo f.opb]
    ctl := [s.ctlOf s.cw.block s.cw.core (s.tileNo f.opa), s.ctlOf s.cw.block s.cw.core (s.tileNo f.opb)]
    fctl := s.ctlOf s.cw.block (s.cw.core + 1) (s.tileNo f.opa) }
  let o := if o0.scaled then s.scaleSpans { o0 with args := s.rdWords sg 2 0 } else o0
  let a (c : Nat) : TrapRec := dataRec c (toField f.opa)
  let ca := nth o.ctl 0
  let cb := nth o.ctl 1
  let kb := if o.trn then ctlRows cb else ctlCols cb
  let isInt := mmaClass (ctlEnc ca) = 2
  let Q := o.dimK / slotBlk o.slotDesc
  s.engineOp ((s.nameTrap frag).or ((s.nameTrap f.opa).or ((s.nameTrap f.opb).or ((s.tileTrap f.opa).or ((s.tileTrap f.opb).or
    ((firstTrap [(o.scaled && slotScale o.slotDesc != 1, dataRec cFormat f.fslot.val),
      (mmaClass (ctlEnc ca) = 0 || mmaClass (ctlEnc ca) ≠ mmaClass (ctlEnc cb) || kb ≠ o.dimK || o.dimN > 64, dataRec cShape (toField f.opb)),
      (o.sat && !isInt, a cShape), (o.scaled && isInt, a cShape), (o.scaled && o.dimK % slotBlk o.slotDesc ≠ 0, a cShape),
      (kind == .mmap && !s.leads, a cShape)]).or
      (if o.scaled then (s.scaleTrap (o.arg 0) (2 * o.dimM * Q) 2).or (s.scaleTrap (o.arg 1) (2 * o.dimN * Q) 2) else none))))))) o

/-- MMA (10 R249). -/
def execMma (f : AF) (s : State) : Res := .next (s.issueMma f .mma)
/-- MMAS (10 R250). -/
def execMmas (f : AF) (s : State) : Res := .next (s.issueMma f .mmas)
/-- MMAP (10 R251). -/
def execMmap (f : AF) (s : State) : Res := .next (s.issueMma f .mmap)

/-- MDTAB (10 R254). -/
def execMdtab (f : AF) (s : State) : Res :=
  let n := (s.rdS f.opb).toNat
  let off := (s.rdS f.opa).toNat
  .next (s.engineOp ((firstTrap [(n = 0 || n > 512, dataRec cDescriptor (toField f.opb))]).or (s.scaleTrap off (4 * n) 4))
    { s.newOp .mdtab with
      flags := f.flags.toNat, args := [s.rdS f.opa, s.rdS f.opb], spans := [(spdKey s.cw.block s.cw.core off, 4 * n)] })

end Sys2Proof.Machine
end

