-- ==== Sys2Proof/Machine/Drain.lean ====
section
/-! DEFINITION. The drains and the activation table: MDRAIN, MDRAIN.P and MACT (10 R256-R262; 12 R291). -/

namespace Sys2Proof.Machine

open Sys2Proof (Operand AF W32 W64 Byte Mask SMap SMap.get? SMap.set SMap.getD SMap.modify SMap.del)

/-- FLAGS of a drain (10 R256). -/
def AOp.bias (o : AOp) : Bool := o.flag 19
def AOp.act (o : AOp) : Bool := o.flag 18
def AOp.rq (o : AOp) : Bool := o.flag 17
def AOp.comp (o : AOp) : Bool := o.flag 16
def AOp.clr (o : AOp) : Bool := o.flag 0
def AOp.i32 (o : AOp) : Bool := o.flag 1

/-- 2^e as an exact value. -/
def pow2 (e : Int) : XR := dyadic false 1 e

/-- The floor of an exact value, clamped to 0 to 255; infinities clamp (10 R260). -/
def floorSeg (x : XR) : Nat :=
  match x with
  | .nan => 0
  | .inf s => if s then 0 else 255
  | .fin s n d => (clampI (if s then -((n + d - 1) / d : Nat) else (n / d : Nat)) 0 255).toNat

/-- The exact value clamped between two (10 R260). -/
def clampX (x lo hi : XR) : XR := if XR.lt x lo then lo else if XR.lt hi x then hi else x

/-- The segment of the activation table a value falls in (10 R260); `t` gives the table's words. -/
def actSeg (t : Nat → W32) (x : W32) : Nat :=
  floorSeg (XR.mul (XR.add 0 (fp32Val x) (fp32Val (t 0)).neg) (pow2 (-(t 1).toInt)))

/-- The table activation (10 R260). -/
def actFn (t : Nat → W32) (x : W32) : W32 :=
  let lo := fp32Val (t 0)
  let v := fp32Val x
  let rnd (y : XR) : W32 := BitVec.ofNat 32 (roundTo encFp32 y 0 false false)
  if v.isNaN then f32NaN
  else
    let i := actSeg t x
    let hi := XR.add 0 lo (XR.mul (XR.fin false 256 1) (pow2 (t 1).toInt))
    let xc := if (t 2).getLsbD 0 then v else clampX v lo hi
    let slope := fp32Val (t (4 + 2 * i))
    let icpt := fp32Val (t (5 + 2 * i))
    if slope.isZero then rnd icpt else rnd (XR.add 0 (XR.mul slope xc) icpt)

/-- The value of a fragment word after BIAS, ACT and RQ, without I32 (10 R257). -/
def AOp.chain (o : AOp) (bias : W32) (t : Nat → W32) (x : W32) : W32 :=
  let rnd (y : XR) : W32 := BitVec.ofNat 32 (roundTo encFp32 y 0 false false)
  let x1 := if o.bias then rnd (XR.add 0 (fp32Val x) (fp32Val bias)) else x
  let x2 := if o.act then actFn t x1 else x1
  if o.rq then rnd (XR.mul (fp32Val x2) (fp32Val (BitVec.ofNat 32 (o.arg 5)))) else x2

/-- Does a drain flush the subnormals of its results: FTZ for FP32, the slot's SUBN for FP16 and BF16 (07 R167, 10 R257)? -/
def AOp.flushes (o : AOp) : Bool :=
  let enc := slotEnc o.slotDesc
  (enc == encFp32 && o.ftz) || ((enc == encFp16 || enc == encBf16) && slotSubn o.slotDesc)

/-- The element a drain writes without COMP: the last stage of the chain, to FP32 too (07 R167; 10 R257; DEDUCED: log 34). -/
def AOp.narrowEl (o : AOp) (x : W32) : Nat :=
  roundTo (slotEnc o.slotDesc) (fp32Val x) o.rm (o.sat || slotSat o.slotDesc) o.flushes

/-- The element a drain writes with I32 (07 R167, 10 R258). -/
def AOp.intEl (o : AOp) (bias x : W32) : Nat :=
  let v := if !o.bias then x else if o.sat then satS32 (x.toInt + bias.toInt) else x + bias
  let y := if o.rq then XR.mul (XR.ofInt v.toInt) (fp32Val (BitVec.ofNat 32 (o.arg 5))) else XR.ofInt v.toInt
  roundTo (slotEnc o.slotDesc) y o.rm (o.sat || slotSat o.slotDesc) o.flushes

/-- The absolute value of an exact value. -/
def XR.abs : XR → XR
  | .nan => .nan
  | .inf _ => .inf false
  | .fin _ n d => .fin false n d

/-- The largest finite value of an encoding (07 R175). -/
def maxFinite (enc : Nat) : XR := match fpFmt enc with | some f => decodeFp f f.maxFin | none => .fin false 1 1

/-- The scale of a block of values (10 R259), as a BF16 pattern. -/
def blockScale (enc : Nat) (xs : List W32) : Nat :=
  let amax := (xs.map fun x => (fp32Val x).abs).foldl (fun (a b : XR) => if b.isNaN then a else if XR.lt a b then b else a) (.fin false 0 1)
  match amax with
  | .inf _ => 0x7F7F
  | .fin _ 0 _ => 0x3F80
  | .fin s n d => roundTo encBf16 (XR.mul (.fin s n d) (maxFinite enc).recip) 3 false false
  | .nan => 0x3F80

/-- An element under its block's scale (10 R259). -/
def AOp.compEl (o : AOp) (scale : Nat) (x : W32) : Nat :=
  roundTo (slotEnc o.slotDesc) (XR.mul (fp32Val x) (bf16Val scale).recip) o.rm true false

/-- The words of the activation table that a value depends on (10 R260). -/
def AOp.actWords (o : AOp) (bias : W32) (t : Nat → W32) (x : W32) : List Nat :=
  let x1 := if o.bias then BitVec.ofNat 32 (roundTo encFp32 (XR.add 0 (fp32Val x) (fp32Val bias)) 0 false false) else x
  if !o.act || (fp32Val x1).isNaN then [] else [0, 1, 2, 4 + 2 * actSeg t x1, 5 + 2 * actSeg t x1]

/-- The chained values of a core's half of a drain, row by row; none where a value depends on an uncorrectable word, and in all of a
drain that raced (10 R245; 12 R290). -/
def State.drainRows (s : State) (o : AOp) (core : Nat) : List (List (Option W32)) :=
  let key := fragKey o.block core (nth o.names 0)
  let t := s.actWord o.block core
  let bias (n : Nat) : W32 := BitVec.ofNat 32 (s.spdRead o.block core (o.arg 4 + 4 * n) 4)
  let bad (m n : Nat) : Bool :=
    !s.badWords.isEmpty &&
      (s.badWords.contains (4, key * 4096 + 64 * m + n) ||
        (o.actWords (bias n) t (s.fragWord key m n)).any fun i => s.badWords.contains (6, place o.block core * 1024 + i))
  (List.range o.drainM).map fun m => (List.range o.drainN).map fun n =>
    if o.raced || bad m n then none
    else if o.i32 then some (s.fragWord key m n)
    else some (o.chain (bias n) t (s.fragWord key m n))

/-- The first uncorrectable word a half of a drain reads: of the fragment, or of the activation table, of which it reads the words
that its elements take (12 R290). -/
def State.drainBad (s : State) (o : AOp) (core : Nat) : Option TrapRec :=
  if s.badWords.isEmpty then none
  else
    let key := fragKey o.block core (nth o.names 0)
    match (grid o.drainM o.drainN).find? fun (p : Nat × Nat) => s.badWords.contains (4, key * 4096 + 64 * p.1 + p.2) with
    | some p => some (o.badRec (16384 * nth o.names 0 + 256 * p.1 + 4 * p.2) 2)
    | none =>
      let t := s.actWord o.block core
      let bias (n : Nat) : W32 := BitVec.ofNat 32 (s.spdRead o.block core (o.arg 4 + 4 * n) 4)
      let used := (grid o.drainM o.drainN).flatMap fun (p : Nat × Nat) => o.actWords (bias p.2) t (s.fragWord key p.1 p.2)
      ((List.range 516).find? fun i => s.badWords.contains (6, place o.block core * 1024 + i) && used.contains i).map
        fun i => o.badRec (4 * i) 4

/-- The scale and the element patterns of a block of values (10 R259), both undefined where one of the values is (12 R290); `free`
gives the undefined values. -/
def AOp.compBlock (o : AOp) (free : Nat → W32) (xs : List (Option W32)) : Nat × List Nat :=
  if xs.all (·.isSome) then
    let scale := blockScale (slotEnc o.slotDesc) (xs.filterMap fun x => x)
    (scale, (xs.filterMap fun x => x).map (o.compEl scale))
  else ((free 64).toNat % 65536, (List.range xs.length).map fun n => (free n).toNat % 2 ^ encBits (slotEnc o.slotDesc))

/-- The scales of row m's blocks and its elements' patterns (10 R257-R259); what depends on an undefined value is undefined (12
R290). -/
def State.drainRow (s : State) (o : AOp) (core seed m : Nat) (row : List (Option W32)) : List Nat × List Nat :=
  let B := slotBlk o.slotDesc
  let free (n : Nat) : W32 := Config.freeWord seed (128 * m + n)
  let bias (n : Nat) : W32 := BitVec.ofNat 32 (s.spdRead o.block core (o.arg 4 + 4 * n) 4)
  if o.comp then
    let blocks := (List.range (ceilDiv row.length B)).map fun q => o.compBlock (fun n => free (q * B + n)) ((row.drop (q * B)).take B)
    (blocks.map (·.1), blocks.flatMap (·.2))
  else
    ([], (row.zipIdx).map fun x =>
      match x.1 with
      | some v => if o.i32 then o.intEl (bias x.2) v else o.narrowEl v
      | none => (free x.2).toNat % 2 ^ encBits (slotEnc o.slotDesc))

/-- Are two operations ordered one after the other, so that the writes of the one are no race with the other (10 R244)? -/
def AOp.inOrder (o p : AOp) : Bool := o.id == p.id || (o.uid == p.uid && o.kind.train && p.kind.train)

/-- An operation writes `n` bytes of its core's scratchpad at an offset, other than through a shape (05 R151; 09 R228; 12 R286). -/
def State.engineSpd (s : State) (o : AOp) (off n x : Nat) : State := s.putSpd (spdKey o.block o.core off) n x (2 ^ n - 1) o.inOrder

/-- MDRAIN and MDRAIN.P: scales, then elements, then the clearing (10 R257-R262; 12 R291). A fault of the destination is
reported before an uncorrectable word (DEDUCED: log 37). -/
def State.workDrain (s : State) (o : AOp) : Work :=
  let d := s.draw
  let halves := o.onCores
  let rows : List (List Nat × List Nat) := halves.flatMap fun c => ((s.drainRows o c).zipIdx).map fun (r : List (Option W32) × Nat) => s.drainRow o c (d.1 + (c - o.core)) r.2 r.1
  let s1 := { d.2 with fresh := d.2.fresh + 1 }
  let scales := rows.flatMap (·.1)
  let s2 := (scales.zipIdx).foldl (fun (s : State) (x : Nat × Nat) => s.engineSpd o (o.arg 6 + 2 * x.2) 2 x.1) s1
  match s2.writeElems o (((rows.flatMap (·.2)).zipIdx).map fun (x : Nat × Nat) => (x.2, x.1)) with
  | .miss a v w => .miss a v w
  | .done t =>
    if (t.opOf o.id).any (fun (p : AOp) => p.fault.isSome) then .done t
    else
      let clear (s : State) (c : Nat) : State :=
        if o.clr then s.fragPuts (fragKey o.block c (nth o.names 0)) ((grid o.drainM o.drainN).map fun (p : Nat × Nat) => (p.1, p.2, 0))
        else s
      let t1 := halves.foldl clear t
      .done (match halves.findSome? fun c => s.drainBad o c with
        | some r => t1.opFault o.id r
        | none => t1)

/-- MACT: the image is checked before the table changes (10 R260). -/
def State.workMact (s : State) (o : AOp) : Work :=
  let d := s.draw
  let w (i : Nat) : W32 := if o.raced then Config.freeWord d.1 i else BitVec.ofNat 32 (s.spdRead o.block o.core (o.arg 0 + 4 * i) 4)
  let lo := fp32Val (w 0)
  let badLo := match lo with | .fin _ _ _ => false | _ => true
  if !o.raced && (badLo || (w 1).toInt < -126 || (w 1).toInt > 127 || (w 2).toNat > 1 || w 3 ≠ 0) then .done (s.opFault o.id ⟨cEngine, 0, 0, 0⟩)
  else
    let base := place o.block o.core * 1024
    .done { d.2 with
      acts := (List.range 516).foldl (fun m i => SMap.set m (base + i) (w i)) s.acts
      badWords := s.badWords.filter fun b => !(b.1 == 6 && decide (base ≤ b.2 && b.2 < base + 516)) }

/-- The slots COMP accepts (10 R259). -/
def compSlot (d : Nat) : Bool := slotScale d == 1 && 4 ≤ slotEnc d && slotEnc d ≤ 8

/-- MDRAIN and MDRAIN.P at issue (10 R256, R259, R261, R438). -/
def State.issueDrain (s : State) (f : AF) (kind : OKind) : State :=
  let o := { s.newOp kind with
    ha := f.ha.val, flags := f.flags.toNat, slotDesc := (s.lrec.slots[f.fslot.val]?).getD 0, shapes := [s.cw.hreg f.ha]
    args := s.argGroup f.opb, names := [idxOf f.opa] }
  let o := if o.bias then { o with spans := o.onCores.map fun c => (spdKey s.cw.block c (o.arg 4), 4 * o.drainN) } else o
  let D := o.dshape
  let field := 0x340 + f.ha.val
  let M := o.drainM
  let N := o.drainN
  let Q := ceilDiv N (slotBlk o.slotDesc)
  s.engineOp ((s.nameTrap f.opa).or
    ((firstTrap [(o.comp && !compSlot o.slotDesc, dataRec cFormat f.fslot.val),
      (M = 0 || M > 64 || N = 0 || N > 64, dataRec cShape (toField f.opb)), (D.malformed, dataRec cDescriptor field),
      (!tileSpaces.contains D.space, plainRec cSpace), (D.flat false || (D.rank ≠ 2 && D.rank ≠ 3), dataRec cShape field),
      (kind == .mdrainP && !s.leads, dataRec cShape (toField f.opa)), (D.enc != slotEnc o.slotDesc || isCbEnc D.enc, dataRec cShape field)]).or
      ((if o.bias then s.scaleTrap (o.arg 4) (4 * N) 4 else none).or
        ((if o.comp then s.scaleTrap (o.arg 6) (2 * Q * M * (if kind == .mdrainP then 2 else 1)) 2 else none).or
          (s.rangeTrap o o.hb o.ha))))) o

/-- MDRAIN (10 R256). -/
def execMdrain (f : AF) (s : State) : Res := .next (s.issueDrain f .mdrain)
/-- MDRAIN.P (10 R261). -/
def execMdrainP (f : AF) (s : State) : Res := .next (s.issueDrain f .mdrainP)

/-- MACT (10 R260). -/
def execMact (f : AF) (s : State) : Res :=
  let off := (s.rdS f.opa).toNat
  .next (s.engineOp (s.scaleTrap off 2064 16) { s.newOp .mact with args := [s.rdS f.opa], spans := [(spdKey s.cw.block s.cw.core off, 2064)] })

end Sys2Proof.Machine
end

