-- ==== Sys2Proof/Machine/Train.lean ====
section
/-! DEFINITION. The tensor-train sequencer: TTPROG, TTBUF, TTSTEP and TTRUN (10 R265-R274; 12 R292). -/

namespace Sys2Proof.Machine

open Sys2Proof (Operand AF W32 W64 Byte Mask SMap SMap.get? SMap.set SMap.getD SMap.modify SMap.del)

/-- The status record (10 R269); `step` is the step it names. The record has 4 bits for the step and 32 for NEED: a step of 16,
after a 16-step program, stands modulo 16, and a NEED that does not fit as 0xFFFF_FFFF, as R273 gives it in TDATA (DESIGN CHOICE:
log 36). -/
def Seqr.image (q : Seqr) (step : Nat) : Nat :=
  step % 16 + 16 * q.half.toNat + 32 * q.ovf.toNat + 64 * q.bnd.toNat + 2 ^ 32 * (q.f % 2 ^ 32) + 2 ^ 64 * (q.d % 2 ^ 16) +
    2 ^ 96 * min q.need 0xFFFFFFFF

/-- Write the status record where a buffer is declared (10 R269). -/
def State.putStatus (s : State) (o : AOp) (q : Seqr) (step : Nat) : State :=
  match q.buf with
  | none => s
  | some (off, h) => s.engineSpd o (off + 2 * h) 16 (q.image step)

/-- The sequencer's new state, with its record. -/
def State.seqStep (s : State) (o : AOp) (q : Seqr) : State := (s.setSeq o.uid q).putStatus o q q.step

/-- An engine fault of the sequencer: the record names the failing step (10 R272). -/
def State.seqFault (s : State) (o : AOp) (q : Seqr) (step sub row : Nat) : State :=
  (s.putStatus o q step).opFault o.id ⟨cEngine, 0, step + 16 * sub + 65536 * row, 0⟩

/-- A boundary overflow (10 R273). -/
def State.seqOverflow (s : State) (o : AOp) (q : Seqr) (need : Nat) : State :=
  (s.seqStep o { q with ovf := true, need := need }).opFault o.id ⟨cBoundary, 0, min need 0xFFFFFFFF, 0⟩

/-- INIT, before any step (10 R270). -/
def State.seqInit (s : State) (o : AOp) : State :=
  let q := s.seqOf o.uid
  match q.prog with
  | [] => s.seqFault o q 0 5 0
  | w :: _ =>
    let t := TStep.of w
    if t.mode = 3 || t.rsvd ≠ 0 then s.seqFault o q 0 5 0
    else
      match q.buf with
      | none => s.seqFault o q 0 4 0
      | some (off, h) =>
        if o.bond t.din ≠ 1 then s.seqFault o q 0 2 0
        else if 4 * o.rows > h then s.seqOverflow o q (4 * o.rows)
        else
          let s1 := (List.range o.rows).foldl (fun (s : State) r => s.engineSpd o (off + 4 * r) 4 0x3F800000) s
          s1.seqStep o { q with step := 0, half := false, f := 1, d := 1, bnd := true, ovf := false, need := 0 }

/-- The checks of a step in their order: the sub-code and row of the first that fails (10 R272). DEDUCED: sub-code 5, not 4, in a
wave with no program loaded (log 56), and the lowest row for sub-code 3 too (log 36). -/
def State.stepTrap (s : State) (o : AOp) (q : Seqr) : Option (Nat × Nat) :=
  match q.prog[q.step]? with
  | none => some (5, 0)
  | some w =>
    let t := TStep.of w
    let G := Shp.of ((o.shapes[t.shape]?).getD 0)
    let p := o.bond t.din
    let d := o.bond t.dout
    let beyond (r : Nat) : Bool := decide (o.index + 32 * r + 2 * q.step + 2 > s.spdOf o.block)
    if t.mode = 3 || t.rsvd ≠ 0 then some (5, 0)
    else if !q.bnd || q.buf.isNone then some (4, 0)
    else if s.coreBad o G p d then some (1, 0)
    else if p = 0 || p > 4096 || d = 0 || d > 4096 || p ≠ q.d then some (2, 0)
    else if t.mode ≠ 0 then none
    else if o.index % 2 ≠ 0 then some (6, 0)
    else
      match (List.range o.rows).find? beyond with
      | some r => some (6, r)
      | none => ((List.range o.rows).find? fun r => decide (s.rowIndex o r q.step ≥ nth G.dims 1)).map fun r => (3, r)

/-- Read the elements of a core listed as (a, j, b): their values in order (10 R271). -/
def State.readCore (s : State) (o : AOp) (G : Shp) : List (Nat × Nat × Nat) → State × List XR × Option (Reach)
  | [] => (s, [], none)
  | (a, j, b) :: t =>
    match s.readSpot o ⟨G.space, G.bitAddr [b, j, a], G.bits⟩ with
    | .miss x v => (s, [], some (.miss x v))
    | .fault c x => (s, [], some (.fault c 0 x))
    | .ok s1 e =>
      let r := s1.readCore o G t
      (r.1, decodeEl G.enc e :: r.2.1, r.2.2)

/-- The core elements an output sums over, with the boundary's bond of each: output column `x` (10 R271). -/
def stepTerms (mode n p j b : Nat) : List (Nat × Nat × Nat) :=
  if mode = 2 then (List.range p).flatMap fun a => (List.range n).map fun j => (a, j, b)
  else (List.range p).map fun a => (a, j, b)

/-- The outputs of a step in order: row, new f and b, and the old f and the j they come from (10 R271). -/
def stepOutputs (mode rows f n q : Nat) (idx : Nat → Nat) : List (Nat × Nat × Nat × Nat × Nat) :=
  (List.range rows).flatMap fun r => (List.range f).flatMap fun g =>
    if mode = 1 then (List.range n).flatMap fun j => (List.range q).map fun b => (r, g * n + j, b, g, j)
    else (List.range q).map fun b => (r, g, b, g, idx r)

/-- Compute the outputs of a step, writing each to the new half (10 R271); the boundary read stands in `old`. -/
def State.contract (s : State) (o : AOp) (G : Shp) (mode p fnew q newOff : Nat) (old : Nat → Nat → Nat → W32) :
    List (Nat × Nat × Nat × Nat × Nat) → State × Option Reach
  | [] => (s, none)
  | (r, f, b, g, j) :: t =>
    let terms := stepTerms mode (nth G.dims 1) p j b
    let v := s.readCore o G terms
    match v.2.2 with
    | some e => (v.1, some e)
    | none =>
      let prods := List.zipWith (fun (x : Nat × Nat × Nat) (y : XR) => XR.mul (fp32Val (old r g x.1)) y) terms v.2.1
      let w := roundTo encFp32 (XR.sum 0 prods) 0 false false
      let s1 := v.1.engineSpd o (newOff + 4 * ((r * fnew + f) * q + b)) 4 w
      s1.contract o G mode p fnew q newOff old t

/-- Bytes of scratchpad of an operation's core that become undefined. -/
def State.freeSpd (s : State) (o : AOp) (off n : Nat) : State :=
  let k := s.draw
  k.2.engineSpd o off n (ofBytes ((List.range n).map fun i => (Config.freeByte k.1 i).toNat))

/-- A contraction whose boundary or whose index table a program has written while it was outstanding leaves an undefined boundary
(10 R245, R274). -/
def State.freeBoundary (s : State) (o : AOp) : State :=
  let q := s.seqOf o.uid
  match q.buf with
  | some (off, h) => if o.raced then s.freeSpd o (off + h * q.half.toNat) h else s
  | none => s

/-- TTPROG or TTBUF that is outstanding while a program writes to the active halves leaves them undefined (10 R274). -/
def State.freeHalves (s : State) (o : AOp) : State :=
  if o.spoil.contains boundMark then o.halfSpans.foldl (fun (s : State) x => s.freeSpd o (x.1 % 2 ^ 20) x.2) s else s

/-- The index bytes that a step reads: two of each row in an INDEX step, none in another (10 R270, R271). -/
def State.stepReads (s : State) (o : AOp) : List Nat :=
  let q := s.seqOf o.uid
  match q.prog[q.step]? with
  | some w =>
    if (TStep.of w).mode = 0 then
      (List.range o.rows).flatMap fun r => let k := spdKey o.block o.core (o.index + 32 * r + 2 * q.step); [k, k + 1]
    else []
  | none => []

/-- The scratchpad bytes of the boundary that a step reads, and those of the new one that it writes, as keys and lengths (10 R271).
-/
def State.stepSource (s : State) (o : AOp) : Nat × Nat :=
  let q := s.seqOf o.uid
  match q.buf with
  | some (off, h) => (spdKey o.block o.core (off + h * q.half.toNat), 4 * o.rows * q.f * q.d)
  | none => (0, 0)
def State.stepTarget (s : State) (o : AOp) : Nat × Nat :=
  let q := s.seqOf o.uid
  match q.buf, q.prog[q.step]? with
  | some (off, h), some w =>
    let t := TStep.of w
    let n := nth (Shp.of ((o.shapes[t.shape]?).getD 0)).dims 1
    (spdKey o.block o.core (off + h * (!q.half).toNat), 4 * o.rows * (if t.mode = 1 then q.f * n else q.f) * o.bond t.dout)
  | _, _ => (0, 0)

/-- Is a mark that of a byte in a range? -/
def markIn (x : Nat × Nat) (m : Nat) : Bool := decide (byteMark + x.1 ≤ m && m < byteMark + x.1 + x.2)

/-- The operation with what its next step reads noted: it races where a program has written, without order, index bytes or boundary
bytes of the step (10 R245). -/
def State.beginStep (s : State) (o : AOp) : AOp :=
  let ks := s.stepReads o
  let src := s.stepSource o
  { o with
    read := o.read ++ ks
    spoil := if (ks.any fun k => o.spoil.contains (byteMark + k)) || o.spoil.any (markIn src) then raceMark :: o.spoil else o.spoil }

/-- The marks of an operation after its step: of one that ran, with a race of its own, and without the bytes it has written; of one
that did not, as they were (10 R245, R272, R273). -/
def State.stepMarks (s : State) (o b : AOp) (ran : Bool) : List Nat :=
  if ran then b.spoil.filter fun m => !markIn (s.stepTarget o) m else o.spoil

/-- One contraction step (10 R271-R273): its checks, the room it needs, then the new boundary; undefined where it raced (10 R245,
R274). The record is written after a fault too (10 R269). A fault at step 16, after a 16-step program, names step 0 in TDATA[3:0]:
the field has 4 bits (DESIGN CHOICE: log 36). -/
def State.runStep (s : State) (o : AOp) : Work :=
  let q := s.seqOf o.uid
  match s.stepTrap o q, q.buf with
  | some (sub, row), _ => .done (s.seqFault o q (q.step % 16) sub row)
  | none, none => .done s
  | none, some (off, h) =>
    let t := TStep.of ((q.prog[q.step]?).getD 0)
    let G := Shp.of ((o.shapes[t.shape]?).getD 0)
    let p := o.bond t.din
    let d := o.bond t.dout
    let n := nth G.dims 1
    let fnew := if t.mode = 1 then q.f * n else q.f
    let need := o.rows * fnew * d * 4
    if need > h || fnew > 0xFFFFFFFF then .done (s.seqOverflow o q need)
    else
      let src := off + h * q.half.toNat
      let dst := off + h * (!q.half).toNat
      let old (r g a : Nat) : W32 := BitVec.ofNat 32 (s.spdRead o.block o.core (src + 4 * ((r * q.f + g) * p + a)) 4)
      let r := s.contract o G t.mode p fnew d dst old (stepOutputs t.mode o.rows q.f n d fun r => s.rowIndex o r q.step)
      match r.2 with
      | some (.miss a v) => .miss a v false
      | some (.fault c _ x) => .done (((r.1.freeSpd o dst need).putStatus o q q.step).opFault o.id (o.memFault c x))
      | _ =>
        let s1 := if o.raced then r.1.freeSpd o dst need else r.1
        .done (s1.seqStep o { q with half := !q.half, f := fnew, d := d, step := q.step + 1, ovf := false, need := 0 })

/-- Is a step still to run: the one of TTSTEP, or those of TTRUN up to the program's end (10 R270)? `landed` holds the steps run.
DEDUCED: TTRUN does nothing where no program is loaded (log 56). -/
def State.stepsLeft (s : State) (o : AOp) : Bool :=
  o.fault.isNone && (if o.kind == .ttstep then o.landed.isEmpty else decide ((s.seqOf o.uid).step < (s.seqOf o.uid).prog.length))

/-- TTPROG (10 R267): the words are read from scratchpad or the granary when the operation runs. -/
def State.workTtprog (s : State) (o : AOp) : Work :=
  let sp := if o.flag 0 then spGRN else spSPD
  let r := (List.range (o.arg 1)).foldl (fun (acc : State × List W32 × Option Reach) i =>
    match acc.2.2 with
    | some _ => acc
    | none =>
      match acc.1.readSpot o ⟨sp, 8 * (o.arg 0 + 4 * i), 32⟩ with
      | .ok t x => (t, acc.2.1 ++ [BitVec.ofNat 32 x], none)
      | .miss a v => (acc.1, [], some (.miss a v))
      | .fault c x => (acc.1, [], some (.fault c 0 x))) (s, [], none)
  match r.2.2 with
  | some (.miss a v) => .miss a v false
  | some (.fault c _ x) => .done (r.1.opFault o.id (o.memFault c x))
  | _ =>
    let d := r.1.draw
    let ws := if o.raced then (r.2.1.zipIdx).map fun x => Config.freeWord d.1 x.2 else r.2.1
    .done (d.2.setSeq o.uid { s.seqOf o.uid with prog := ws })

/-- TTBUF: the sequencer is reset and the record written; its D is a free value, since there is no boundary (10 R268, R269). A record
that a program writes or reads meanwhile is undefined (09 R228). -/
def State.workTtbuf (s : State) (o : AOp) : Work :=
  let k := s.draw
  let t := k.2.seqStep o { s.seqOf o.uid with
    buf := some (o.arg 0, o.arg 1), step := 0, half := false, f := 1, d := (Config.freeWord k.1 0).toNat % 65536, bnd := false, ovf := false, need := 0 }
  .done (if o.raced then t.freeSpd o (o.arg 0 + 2 * o.arg 1) 16 else t)

/-- The boundary buffer as the wave's operations issued so far leave it. -/
def State.bufAhead (s : State) : Option (Nat × Nat) :=
  match (s.ops.filter fun o => o.uid == s.cw.uid && o.kind == .ttbuf && !o.done).getLast? with
  | some o => some (o.arg 0, o.arg 1)
  | none => s.cw.seqr.buf

/-- The halves of that buffer, which no program may write while an operation of the sequencer is outstanding (10 R274). -/
def State.halvesAhead (s : State) : List (Nat × Nat) :=
  match s.bufAhead with
  | some b => [(spdKey s.cw.block s.cw.core b.1, 2 * b.2)]
  | none => []

/-- TTPROG (10 R267). -/
def execTtprog (f : AF) (s : State) : Res :=
  let off := (s.rdS f.opa).toNat
  let n := (s.rdS f.opb).toNat
  let src := spdKey s.cw.block s.cw.core off
  let limit := if f.flags.getLsbD 0 then Config.granSize else s.spdOf s.cw.block
  .next (s.engineOp (firstTrap [(n = 0 || n > 16, dataRec cDescriptor (toField f.opb)), (off % 4 ≠ 0, ⟨cAlign, off, 0, 0⟩),
    (off + 4 * n > limit, ⟨cRange, off, 0, 0⟩)])
    { s.newOp .ttprog with
      flags := f.flags.toNat, args := [s.rdS f.opa, s.rdS f.opb]
      spans := (src, if f.flags.getLsbD 0 then 0 else 4 * n) :: s.halvesAhead })

/-- TTBUF (10 R268). -/
def execTtbuf (f : AF) (s : State) : Res :=
  let off := (s.rdS f.opa).toNat
  let h := (s.rdS f.opb).toNat
  .next (s.engineOp (firstTrap [(h = 0 || h % 16 ≠ 0, dataRec cDescriptor (toField f.opb)), (off % 256 ≠ 0, ⟨cAlign, off, 0, 0⟩),
    (off + 2 * h + 16 > s.spdOf s.cw.block, ⟨cRange, off, 0, 0⟩)])
    { s.newOp .ttbuf with
      args := [s.rdS f.opa, s.rdS f.opb]
      spans := [(0, 0), (spdKey s.cw.block s.cw.core off, 2 * h)] ++ s.halvesAhead })

/-- TTSTEP and TTRUN at issue (10 R270). -/
def State.issueTrain (s : State) (f : AF) (kind : OKind) : State :=
  let rows := (s.rdS f.opa).toNat
  s.engineOp (firstTrap [(rows = 0 || rows > 4096, dataRec cShape (toField f.opa))])
    { s.newOp kind with
      flags := f.flags.toNat, args := s.rdWords f.opa 2 0
      shapes := (List.range 16).map s.cw.hreg, bonds := (List.range 8).map s.cw.dreg
      spans := s.halvesAhead }

/-- TTSTEP (10 R270). -/
def execTtstep (f : AF) (s : State) : Res := .next (s.issueTrain f .ttstep)
/-- TTRUN (10 R270). -/
def execTtrun (f : AF) (s : State) : Res := .next (s.issueTrain f .ttrun)

end Sys2Proof.Machine
end

