-- ==== Sys2Proof/Machine/Engine.lean ====
section
/-! DEFINITION. The matrix engine at work: which operation of a unit may start, and what its completion does (10 R244, R245; 12
R281-R294). -/

namespace Sys2Proof.Machine

open Sys2Proof (Operand W32 W64 Byte Mask SMap SMap.get? SMap.set SMap.getD SMap.modify SMap.del)

/-- The decode banks an array operation fetches with, by key (10 R244, R255; 12 R288). -/
def AOp.banksUsed (o : AOp) : List Nat :=
  let bank (core ctl : Nat) : List Nat := if isCbEnc (ctlEnc ctl) then [place o.block core * 2 + ctlDtb ctl] else []
  match o.kind with
  | .mma => bank o.core (nth o.ctl 0) ++ bank o.core (nth o.ctl 1)
  | .mmas => bank o.core (nth o.ctl 0) ++ bank o.core (nth o.ctl 1)
  | .mmap => bank o.core (nth o.ctl 0) ++ bank o.core (nth o.ctl 1) ++ bank (o.core + 1) o.fctl
  | _ => []

/-- The decode bank an MDTAB loads. -/
def AOp.bankLoaded (o : AOp) : List Nat := if o.kind == .mdtab then [place o.block o.core * 2 + (o.flag 0).toNat] else []

/-- The activation tables a drain with ACT uses, and the one MACT loads. -/
def AOp.actUsed (o : AOp) : List Nat :=
  if (o.kind == .mdrain || o.kind == .mdrainP) && o.act then o.onCores.map (place o.block) else []
def AOp.actLoaded (o : AOp) : List Nat := if o.kind == .mact then [place o.block o.core] else []

/-- Do two lists meet? -/
def meet (a b : List Nat) : Bool := a.any b.contains

/-- Must an earlier operation complete before a later one starts (10 R244, 12 R288)? -/
def AOp.before (a b : AOp) : Bool :=
  (a.block == b.block && meet a.frags b.frags) || meet a.bankLoaded b.banksUsed || meet a.banksUsed b.bankLoaded ||
    meet a.actLoaded b.actUsed || meet a.actUsed b.actLoaded || (a.uid == b.uid && a.kind.train && b.kind.train)

/-- Does an operation stand before another in a unit's order: higher priority, else earlier entry (12 R282, R293)? -/
def State.ahead (s : State) (a b : AOp) : Bool :=
  let pa := s.prioOf a.launch
  let pb := s.prioOf b.launch
  decide (pa > pb) || (pa == pb && decide (a.id < b.id))

/-- Is an operation at the head of its unit on a core, and the unit free: a running contraction of lower priority yields (12 R282,
R293)? -/
def State.headFree (s : State) (o : AOp) (core : Nat) : Bool :=
  (s.queueOf core).all fun p =>
    p.id == o.id || p.kind.unit != o.kind.unit ||
      (if p.started then p.kind.steps && decide (s.prioOf p.launch < s.prioOf o.launch) else !s.ahead p o)

/-- May an operation start: its path's earlier accesses have been performed, it heads its units, and what the table of 10 R244 puts
before it has completed (09 R224; 12 R282, R285)? -/
def State.mayStart (s : State) (o : AOp) : Bool :=
  o.kind.engine && !o.done && !o.started && s.opOrdered o && o.onCores.all (s.headFree o) &&
    s.ops.all fun p => p.id ≥ o.id || p.done || !p.kind.engine || !p.before o

/-- Start an operation; a contraction with INIT makes its boundary (10 R270). -/
def State.startOp (s : State) (o : AOp) : State :=
  let s1 := s.modOp o.id fun o => { o with started := true }
  if o.kind.steps && o.flag 0 then
    (s1.seqInit o).modOp o.id fun p =>
      let x := ((s1.seqInit o).stepSource p)
      if p.fault.isSome then p else { p with spoil := p.spoil.filter fun m => !markIn x m }
  else s1

/-- Start the operation of an id, a pair operation or another. -/
def State.engineStart (s : State) (id : Nat) (pair : Bool) : State :=
  match s.opOf id with
  | none => s
  | some o => if o.kind.pair == pair && s.mayStart o then s.startOp o else s

/-- ENGINE_OP_START (12 R282). -/
def execEngineOpStart (op : Nat) (s : State) : Res := .next (s.engineStart op false)

/-- PAIR_OP_START (12 R285). -/
def execPairOpStart (op : Nat) (s : State) : Res := .next (s.engineStart op true)

/-- What an operation does, all but the contractions (10 R238-R268). -/
def State.work (s : State) (o : AOp) : Work :=
  match o.kind with
  | .tld => s.workTld o
  | .tldc => s.workTld o
  | .tst => s.workTst o
  | .tzero => s.workTzero o
  | .tmov => s.workTmov o
  | .azero => s.workAzero o
  | .mma => s.workMma o
  | .mmas => s.workMma o
  | .mmap => s.workMma o
  | .mdrain => s.workDrain o
  | .mdrainP => s.workDrain o
  | .mact => s.workMact o
  | .mdtab => s.workMdtab o
  | .ttprog => s.workTtprog o
  | .ttbuf => s.workTtbuf o
  | _ => .done s

/-- A started operation does its work and completes; a page miss is posted and it waits (12 R281, R283; 08 R194). What it reads is
read here: a write to it since its start is a race, which leaves its results undefined (10 R244, R245; 12 R286; log 17). -/
def State.engineFinish (s : State) (o : AOp) : State :=
  if o.kind.steps then (if s.stepsLeft o then s else (s.freeBoundary o).opDone o.id)
  else
    match s.work o with
    | .miss a v _ => s.opMiss o a v
    | .done t => (if o.kind.setsUp then t.freeHalves o else t).opDone o.id

/-- ENGINE_OP_COMPLETE (12 R281). -/
def execEngineOpComplete (op : Nat) (s : State) : Res :=
  .next (match s.opOf op with
    | none => s
    | some o => if o.kind.engine && o.started && !o.done then s.engineFinish o else s)

/-- An array operation of higher priority holds the array or waits, if only for what it depends on itself (12 R293). -/
def State.mustYield (s : State) (o : AOp) : Bool :=
  (s.queueOf o.core).any fun p =>
    p.kind.unit == 0 && decide (s.prioOf p.launch > s.prioOf o.launch)

/-- SEQUENCER_STEP (10 R271-R273; 12 R292, R293). -/
def execSequencerStep (op : Nat) (s : State) : Res :=
  .next (match s.opOf op with
    | none => s
    | some o =>
      if !o.kind.steps || !o.started || o.done || !s.stepsLeft o || s.mustYield o then s
      else
        let b := s.beginStep o
        match s.runStep b with
        | .miss a v _ => s.opMiss o a v
        | .done t =>
          let ran := (t.seqOf o.uid).step != (s.seqOf o.uid).step
          t.modOp op fun p => { p with landed := p.landed ++ [(s.seqOf o.uid).step], read := b.read, spoil := s.stepMarks o b ran })

end Sys2Proof.Machine
end

