-- ==== Sys2Proof/Machine/Keccak.lean ====
section
/-! DEFINITION. SHAKE256, which the measurement registers extend with (20 R428): the spec names the function and leaves its
definition to FIPS 202 (log 13). -/

namespace Sys2Proof.Machine

open Sys2Proof (W64 Byte)

/-- Rotation amounts of the lanes x + 5y. -/
def keccakRot : List Nat := [0, 1, 62, 28, 27, 36, 44, 6, 55, 20, 3, 10, 43, 25, 39, 41, 45, 15, 21, 8, 18, 2, 61, 56, 14]

/-- Round constants. -/
def keccakRc : List Nat :=
  [0x0000000000000001, 0x0000000000008082, 0x800000000000808A, 0x8000000080008000, 0x000000000000808B, 0x0000000080000001,
   0x8000000080008081, 0x8000000000008009, 0x000000000000008A, 0x0000000000000088, 0x0000000080008009, 0x000000008000000A] ++
  [0x000000008000808B, 0x800000000000008B, 0x8000000000008089, 0x8000000000008003, 0x8000000000008002, 0x8000000000000080,
   0x000000000000800A, 0x800000008000000A, 0x8000000080008081, 0x8000000000008080, 0x0000000080000001, 0x8000000080008008]

/-- Lane i of a state. -/
def kLane (a : List W64) (i : Nat) : W64 := (a[i]?).getD 0

/-- One round: theta, rho, pi, chi, iota. -/
def keccakRound (a : List W64) (rc : Nat) : List W64 :=
  let c := (List.range 5).map fun x => (List.range 5).foldl (fun s y => s ^^^ kLane a (x + 5 * y)) 0
  let d := (List.range 5).map fun x => kLane c ((x + 4) % 5) ^^^ (kLane c ((x + 1) % 5)).rotateLeft 1
  let e := (List.range 25).map fun i => kLane a i ^^^ kLane d (i % 5)
  let b := (List.range 25).map fun i =>
    let src := (i % 5 + 3 * (i / 5)) % 5 + 5 * (i % 5)
    (kLane e src).rotateLeft ((keccakRot[src]?).getD 0)
  let f := (List.range 25).map fun i =>
    kLane b i ^^^ (~~~(kLane b ((i + 1) % 5 + 5 * (i / 5))) &&& kLane b ((i + 2) % 5 + 5 * (i / 5)))
  f.set 0 (kLane f 0 ^^^ BitVec.ofNat 64 rc)

/-- Keccak-f[1600]. -/
def keccakF (a : List W64) : List W64 := keccakRc.foldl keccakRound a

/-- Lane i of a block of 136 bytes. -/
def blockLane (b : List Byte) (i : Nat) : W64 :=
  BitVec.ofNat 64 ((List.range 8).foldl (fun x k => x + ((b[8 * i + k]?).getD 0).toNat * 256 ^ k) 0)

/-- Absorb blocks of 136 bytes. -/
def absorb : Nat → List Byte → List W64 → List W64
  | 0, _, a => a
  | n + 1, m, a => absorb n (m.drop 136) (keccakF ((List.range 25).map fun i => kLane a i ^^^ (if i < 17 then blockLane m i else 0)))

/-- A message padded to whole blocks. -/
def shakePad (m : List Byte) : List Byte :=
  let k := 136 - m.length % 136
  if k = 1 then m ++ [0x9F#8] else m ++ [0x1F#8] ++ List.replicate (k - 2) 0#8 ++ [0x80#8]

/-- SHAKE256 with 512 bits of output. -/
def shake256 (m : List Byte) : List Byte :=
  let p := shakePad m
  let a := absorb (p.length / 136) p (List.replicate 25 0#64)
  (List.range 64).map fun i => BitVec.ofNat 8 ((kLane a (i / 8)).toNat / 256 ^ (i % 8))

end Sys2Proof.Machine
end

