-- ==== Sys2Proof/Machine/NearMem.lean ====
section
/-! DEFINITION. The near-memory walk: NMWALK and its walkers (13 R305-R308; 16 R341-R344). -/

namespace Sys2Proof.Machine

open Sys2Proof (Operand AF W32 W64 Byte Mask SMap SMap.get? SMap.set SMap.getD SMap.modify SMap.del)
open Sys2Proof.Config (dieOf)

/-- The addresses of NMWALK's argument group, a pair each (13 R305). -/
def AOp.addr64 (o : AOp) (k : Nat) : Nat := o.arg k + 4294967296 * o.arg (k + 1)
def AOp.rayBase (o : AOp) : Nat := o.addr64 0
def AOp.nray (o : AOp) : Nat := o.arg 2
def AOp.cape (o : AOp) : Nat := o.arg 3
def AOp.result (o : AOp) : Nat := o.addr64 4
def AOp.descAt (o : AOp) : Nat := o.addr64 6

/-- NMWALK at issue (13 R305). -/
def execNmwalk (f : AF) (s : State) : Res :=
  let o := { s.newOp .nmwalk with args := s.argGroup f.opa }
  let al (a : Nat) : TrapRec := ⟨cAlign, a, 0, 0⟩
  .next (match firstTrap [(o.rayBase % 32 ≠ 0, al o.rayBase), (o.result % 16 ≠ 0, al o.result), (o.descAt % 32 ≠ 0, al o.descAt),
      (o.nray = 0 || o.nray > 65536 || o.cape > 16777215, dataRec cDescriptor (toField f.opa))] with
    | some r => s.trapHere r
    | none => s.issueOp fun s => (s.addOp o).slotDone)

/-- Read `n` bytes of DEV as an operation reads them (05 R139). -/
def State.readDev (s : State) (o : AOp) (addr n : Nat) : Io := s.readSpot o ⟨spDEV, 8 * (addr % 2 ^ 56), 8 * n⟩

/-- The walk's engine fault: the sub-code and the ray (13 R308). -/
def State.walkFault (s : State) (o : AOp) (sub ray : Nat) : State := s.opFault o.id ⟨cEngine, 0, sub + 256 * (ray % 2 ^ 24), 0⟩

/-- The descriptor's words kept in `ctl`: NODEBASE, ROOT, NODES, DEPTH (13 R306). -/
def AOp.nodeBase (o : AOp) : Nat := nth o.ctl 0
def AOp.rootPtr (o : AOp) : Nat := nth o.ctl 1
def AOp.nodes (o : AOp) : Nat := nth o.ctl 2
def AOp.depth (o : AOp) : Nat := nth o.ctl 3

/-- Before the walk starts the issuing core writes back its dirty sectors, and the descriptor is read and checked (13 R306, R308;
16 R343). -/
def State.walkStart (s : State) (o : AOp) : State :=
  let s0 := s.releaseAt o.core o.launch 3 (s.multiOf o.block)
  match s0.readDev o o.descAt 32 with
  | .miss a v => s0.opMiss o a v
  | .fault c x => s0.opFault o.id (o.memFault c x)
  | .ok t x =>
    let base := fld x 0 64
    let root := fld x 64 32
    let n := fld x 96 32
    let d := fld x 128 32
    let t1 := t.modOp o.id fun o => { o with started := true, ctl := [base, root, n, d] }
    if fld x 160 96 ≠ 0 || base % 128 ≠ 0 || base / 2 ^ 56 ≠ 0 || root / 2 ^ 30 ≠ 0 || n = 0 || d = 0 || d > 16 then t1.walkFault o 1 0
    else t1

/-- Read a ray's record; it starts at the root (13 R306, R308). -/
def State.walkRay (s : State) (o : AOp) (ray : Nat) : State :=
  match s.readDev o (o.rayBase + 32 * ray) 32 with
  | .miss a v => s.opMiss o a v
  | .fault c x => s.opFault o.id (o.memFault c x)
  | .ok t x =>
    if o.rootPtr ≥ o.nodes then t.walkFault o 2 ray
    else t.modOp o.id fun o => { o with walk := o.walk ++ [{ ray := ray, words := toWords x 8, todo := [(o.rootPtr, 1)], hits := [], got := none, seen := [] }] }

/-- The 128 bytes of a node, read at its home once any grant has been recalled (16 R343). -/
def State.readNode (s : State) (o : AOp) (addr : Nat) : Io :=
  let p : Spot := ⟨spDEV, 8 * addr, 1024⟩
  match s.spotReach o p needRD with
  | .miss a v => .miss a v
  | .fault c _ x => .fault c x
  | .ok ls =>
    let r := ls.foldl (fun (acc : State × List Nat) l =>
      match l with
      | .sec h i =>
        let t := acc.1.bring o.asker h .home
        (t, acc.2 ++ [sliceData (t.dataAt o.asker h .home) i 1])
      | _ => (acc.1, acc.2 ++ [0])) (s.noteSpot o p, [])
    .ok r.1 (ofBytes r.2)

/-- The home of a node's stack counts its read, or its four box tests (16 R341, 20 R430). -/
def State.countNode (s : State) (o : AOp) (addr : Nat) (test : Bool) : State :=
  match s.opFind o o.core spDEV addr needRD with
  | .at (.sec h _) => if test then s.countDie (h.addr / 2 ^ 18 % 4) 10 4 else s.countHome 0 3 h
  | _ => s

/-- A node as a walk reads it between two passes: each 64-bit word that another thread wrote meanwhile is its old or its new value
(16 R343). -/
def mixNode (seed old new : Nat) : Nat :=
  let w (x k : Nat) : Nat := fld x (64 * k) 64
  ((List.range 16).map fun k => (if w old k ≠ w new k && Config.freeBool seed k then w old k else w new k) * 2 ^ (64 * k)).foldl (· + ·) 0

/-- Insert an entry by ascending tnear, ties to the lower pointer word (13 R307). -/
def insertEntry (x : W32 × Nat) : List (W32 × Nat) → List (W32 × Nat)
  | [] => [x]
  | y :: t =>
    if XR.lt (fp32Val x.1) (fp32Val y.1) || (XR.eq (fp32Val x.1) (fp32Val y.1) && decide (x.2 < y.2)) then x :: y :: t
    else y :: insertEntry x t

/-- Change a ray of a walk. -/
def State.setRay (s : State) (o : AOp) (w : WalkRay) : State :=
  s.modOp o.id fun o => { o with walk := o.walk.map fun (v : WalkRay) => if v.ray == w.ray then w else v }

/-- Test a ray against a node's words (13 R298, R306, R308; 16 R342). -/
def State.testNode (s : State) (o : AOp) (w : WalkRay) (idx depth : Nat) (rest : List (Nat × Nat)) (x : Nat) : State :=
  let node := toWords x 32
  let hits := nodeHits w.words node
  let ptrs := (List.range 4).map fun c => ((node[24 + c]?).getD 0).toNat
  let inner := hits.filter fun h => h.2.2 / 2 ^ 30 == 0
  let leaves := hits.filter fun h => h.2.2 / 2 ^ 30 == 1
  if ptrs.any fun p => p / 2 ^ 30 == 0 && decide (p ≥ o.nodes) then s.walkFault o 2 w.ray
  else if !inner.isEmpty && depth ≥ o.depth then s.walkFault o 3 w.ray
  else
    s.setRay o { w with
      todo := rest ++ inner.map fun h => (h.2.2, depth + 1)
      hits := leaves.foldl (fun l h => insertEntry (f32Of h.1, h.2.2) l) w.hits
      got := none, seen := idx :: w.seen }

/-- Read the first node a ray still has to visit, or test the ray against it once read (16 R341-R343). -/
def State.walkNode (s : State) (o : AOp) (w : WalkRay) (idx depth : Nat) (rest : List (Nat × Nat)) : State :=
  let addr := (o.nodeBase + 128 * idx) % 2 ^ 56
  if bit addr 55 then s.walkFault o 4 w.ray
  else
    match s.readNode o addr with
    | .miss a v => s.opMiss o a v
    | .fault c x => s.opFault o.id (o.memFault c x)
    | .ok t x =>
      match w.got with
      | none => (t.countNode o addr false).setRay o { w with got := some x }
      | some old =>
        let d := t.draw
        (d.2.countNode o addr true).testNode o w idx depth rest (mixNode d.1 old x)

/-- NM_WALK_PASS: the walk starts, a ray starts, or a ray's next node is read or tested (13 R306; 16 R341, R343, R344). -/
def execNmWalkPass (op ray : Nat) (s : State) : Res :=
  .next (match s.opOf op with
    | none => s
    | some o =>
      if o.kind != .nmwalk || o.done || o.fault.isSome || !s.opOrdered o then s
      else if !o.started then s.walkStart o
      else if ray ≥ o.nray then s
      else
        match o.walk.find? fun w => w.ray == ray with
        | none => s.walkRay o ray
        | some w =>
          match w.todo with
          | [] => s
          | (idx, depth) :: rest => s.walkNode o w idx depth rest)

/-- Is every ray done? -/
def AOp.walkOver (o : AOp) : Bool :=
  o.started && (List.range o.nray).all fun r => match o.walk.find? fun w => w.ray == r with | some w => w.todo.isEmpty | none => false

/-- The entries of the result buffer in order: ray and pointer word (13 R307). -/
def AOp.entries (o : AOp) : List (Nat × Nat) :=
  (List.range o.nray).flatMap fun r =>
    match o.walk.find? fun w => w.ray == r with
    | some w => w.hits.map fun h => (r, h.2)
    | none => []

/-- The bytes of the result buffer that lie in what the walk reads as well, by their number (16 R344); a location with two names is
one (08 R199). -/
def State.overlapped (s : State) (o : AOp) : List Nat :=
  match o.walkParts with
  | [] => []
  | res :: ins =>
    let reads := ins.flatMap (s.realParts o)
    if !partsMeet (s.realParts o res) reads then []
    else (List.range res.2).filter fun i => partsMeet (s.realParts o (res.1 + i, 1)) reads

/-- Are the entries of a ray computed from bytes that the result buffer overlaps: its record, the descriptor, or a node it met (16
R344)? -/
def State.rayOverlaps (s : State) (o : AOp) (w : WalkRay) : Bool :=
  match o.walkParts with
  | [] => false
  | res :: _ =>
    partsMeet (s.realParts o res)
      ((((o.rayBase + 32 * w.ray) % 2 ^ 56, 32) :: (o.descAt % 2 ^ 56, 32) ::
        w.seen.map fun n => ((o.nodeBase + 128 * n) % 2 ^ 56, 128)).flatMap (s.realParts o))

/-- What writing 8-byte words of the result buffer comes to. -/
inductive Wrote where
  | ok (s : State)
  | miss (asid va : Nat)
  | fault (s : State) (code addr : Nat)

/-- Write words of the result buffer at their numbers, in order, up to the first that cannot be (13 R307). -/
def State.putWords (s : State) (o : AOp) : List (Nat × Nat) → Wrote
  | [] => .ok s
  | (i, x) :: t =>
    match s.writeSpot o ⟨spDEV, 8 * ((o.result + 8 * i) % 2 ^ 56), 64⟩ x with
    | .ok s1 _ => s1.putWords o t
    | .miss a v => .miss a v
    | .fault c a => .fault s c a

/-- Undefined words of the result buffer from word `k` on, where they can be written (05 R139, 13 R308). -/
def State.undefWords (s : State) (o : AOp) (k : Nat) : State :=
  let d := s.draw
  (List.range (2 + o.cape - k)).foldl (fun (s : State) i =>
    match s.writeSpot o ⟨spDEV, 8 * ((o.result + 8 * (k + i)) % 2 ^ 56), 64⟩
      (ofWords [Config.freeWord d.1 (2 * i), Config.freeWord d.1 (2 * i + 1)]) with
    | .ok t _ => t
    | _ => s) d.2

/-- The words of the result buffer after a walk without fault (13 R307); the entries computed from overlapping bytes are undefined
(16 R344). -/
def State.resultWords (s : State) (o : AOp) (seed : Nat) : List (Nat × Nat) :=
  let es := o.entries
  let total := es.length
  let w0 := total % 2 ^ 32 + 2 ^ 32 * min total o.cape
  let free (r : Nat) : Bool := o.walk.any fun w => w.ray == r && s.rayOverlaps o w
  (0, w0) :: (1, (decide (total > o.cape)).toNat) :: ((es.take o.cape).zipIdx).map fun e =>
    (2 + e.2, if free e.1.1 then ofWords [Config.freeWord seed (2 * e.2), Config.freeWord seed (2 * e.2 + 1)] else e.1.1 + 2 ^ 32 * e.1.2)

/-- The bytes of the result buffer that overlap what the walk reads are undefined (16 R344). -/
def State.freeOverlap (s : State) (o : AOp) : State :=
  let d := s.draw
  (s.overlapped o).foldl (fun (s : State) i =>
    match s.writeSpot o ⟨spDEV, 8 * ((o.result + i) % 2 ^ 56), 8⟩ (Config.freeByte d.1 i).toNat with
    | .ok t _ => t
    | _ => s) d.2

/-- Write the results of a walk, or what a fault leaves of them, and complete it (13 R307, R308; 16 R344). -/
def State.walkFinish (s : State) (o : AOp) : State :=
  match o.fault with
  | some r =>
    if r.cause = cEngine then
      let d := s.draw
      match (d.2.undefWords o 2).putWords o [(0, ofWords [Config.freeWord d.1 0, Config.freeWord d.1 1]), (1, 1)] with
      | .miss a v => s.opMiss o a v
      | .ok t => (if o.raced then t.undefWords o 0 else t.freeOverlap o).opDone o.id
      | .fault t _ _ => t.opDone o.id
    else (s.undefWords o 0).opDone o.id
  | none =>
    let d := s.draw
    match d.2.putWords o (s.resultWords o d.1) with
    | .miss a v => s.opMiss o a v
    | .fault t c x => ((t.undefWords o 0).opFault o.id (o.memFault c x)).opDone o.id
    | .ok t => (if o.raced then t.undefWords o 0 else t.freeOverlap o).opDone o.id

/-- NM_WALK_COMPLETE (13 R307, R308). -/
def execNmWalkComplete (op : Nat) (s : State) : Res :=
  .next (match s.opOf op with
    | none => s
    | some o =>
      if o.kind == .nmwalk && !o.done && (o.fault.isSome || o.walkOver) then s.walkFinish o else s)

end Sys2Proof.Machine
end

