-- ==== Sys2Proof/Machine/Waves.lean ====
section
/-! DEFINITION. How a wave starts (04 R92), what a core has room for (04 R91; 08 R181; 10 R232; 18 R368), and what the device
reads and writes in a launch's address space for itself (18 R362-R365). -/

namespace Sys2Proof.Machine

open Sys2Proof (Operand W32 W64 Byte Mask SMap SMap.get? SMap.set SMap.getD SMap.modify SMap.del)
open Sys2Proof.Config (dieOf partOf)

/-- The sum of a list. -/
def sumNat (l : List Nat) : Nat := l.foldl (· + ·) 0

/-- Element of a non-empty list by a free choice (log 1): the spec leaves open which one is taken. -/
def pickFree (seed : Nat) (l : List Nat) : Nat := (l[(Config.freeWord seed 0).toNat % l.length]?).getD 0

/-- The granary offset of a core's argument copy in a bank (08 R183). -/
def argOffset (core : Nat) (bank : Bool) : Nat := 0x01F00000 + 0x2000 * (core % 112) + 0x1000 * bank.toNat

/-- The live lanes of wave `w` of a block (04 R90). -/
def LRec.liveLanes (r : LRec) (w : Nat) : Mask := maskOf fun l => decide (32 * w + l < r.threads)

/-- The state of a wave that starts (04 R92): `base` its base mask, `pc` its PC, `bank` the bank its core holds it in. -/
def startWave (r : LRec) (uid core slot launch block widx seed clk : Nat) (resid : Resid) (bank : Bool) (base : Mask) (pc : Nat)
    (task : Option TaskServe) : Wave :=
  { Wave.free with
    uid := uid, core := core, slot := slot, resid := resid, launch := launch, block := block, widx := widx, startAt := clk
    sregs := [(380, BitVec.ofNat 32 (argOffset core bank))], vseed := some seed, wseed := some (seed + 1)
    eseed := some (seed + 2), wsize := r.wincap, wsr := mkWsr false false r.wpk r.ftz r.rm
    pa := { PathSt.absent with pc := pc, base := base, phase := .ready, readyAt := clk }
    task := task }

/-- List a wave that starts; one in the active bank enters the eligible set where a place is free (18 R376). -/
def State.addWave (s : State) (w : Wave) : State :=
  let s1 := { s with waves := SMap.set s.waves w.uid w, fresh := s.fresh + 3 }
  if w.resid == .active then s1.refill w.core (partOf w.slot) else s1

/-- Copy a launch's arguments to a core's argument area, unless blocks of the launch there use the copy already (08 R183). -/
def State.copyArgs (s : State) (core launch : Nat) (bank : Bool) : State :=
  let held := s.allWaves.any fun w => w.core == core && w.launch == launch && (w.resid == .active || w.resid == .shadow)
  match s.launchOf launch with
  | some l =>
    if held then s
    else
      let base := dieOf core * 2 ^ 25 + argOffset core bank
      { s with gran := (l.args.zipIdx).foldl (fun m x => SMap.set m (base + x.2) x.1) s.gran }
  | none => s

/-- The slots held on a core in a bank, with the registers of each: by waves, and by blocks placed there (04 R91). -/
def State.heldSlots (s : State) (core : Nat) (shadow : Bool) : List (Nat × Nat) :=
  ((s.allWaves.filter fun w => w.core == core && w.resid == (if shadow then Resid.shadow else Resid.active)).map
    fun w => (w.slot, (s.lrecOf w.launch).stackregs)) ++
  ((s.blocks.map (·.2)).filter fun (b : Block) => b.phase == BPhase.placed && b.cores.contains core && b.bankOn core == (s.bankOf core != shadow)).flatMap fun b =>
    (b.slots.filter fun p => p / 96 == core).map fun p => (p % 96, (s.lrecOf b.launch).stackregs)

/-- Do waves of S registers fit in these slots of a core, beside what is held (04 R91)? -/
def slotsFit (S : Nat) : List (Nat × Nat) → List Nat → Bool
  | _, [] => true
  | held, x :: t =>
    decide (x < 96) && !(held.map (·.1)).contains x &&
      decide (sumNat ((held.filter fun h => partOf h.1 == partOf x).map (·.2)) + S ≤ 512) && slotsFit S ((x, S) :: held) t

/-- Is a core the follower of a pair block whose waves are odd in number: one wave more counts there than runs there (11 R277)? -/
def LRec.ghostOn (r : LRec) (cores : List Nat) (core : Nat) : Bool := r.place == 1 && r.waves % 2 == 1 && cores[1]? == some core

/-- The registers of the waves that count on a core in a bank and hold no slot of their own (11 R277). -/
def State.ghosts (s : State) (core : Nat) (shadow : Bool) : List Nat :=
  ((s.blocks.map (·.2)).filter fun (b : Block) =>
    !b.isTask && !b.saved && b.phase != BPhase.exiting && b.bankOn core == (s.bankOf core != shadow) &&
      (s.lrecOf b.launch).ghostOn b.cores core).map fun b => (s.lrecOf b.launch).stackregs

/-- Give waves that count without a slot the first slots where they fit, beside what is held; none where one does not fit. -/
def withGhosts (held : List (Nat × Nat)) : List Nat → Option (List (Nat × Nat))
  | [] => some held
  | S :: t =>
    match (List.range 96).find? fun x => slotsFit S held [x] with
    | some x => withGhosts ((x, S) :: held) t
    | none => none

/-- Do waves of S registers fit in these slots of a core, and `ghosts` beside them (04 R91, 11 R277)? -/
def waveFit (S : Nat) (held : List (Nat × Nat)) (slots ghosts : List Nat) : Bool :=
  slotsFit S held slots && (withGhosts (slots.map (fun x => (x, S)) ++ held) ghosts).isSome

/-- The slots that count as held on a core in a bank (04 R91, 11 R277). -/
def State.countedSlots (s : State) (core : Nat) (shadow : Bool) : List (Nat × Nat) :=
  let held := s.heldSlots core shadow
  (withGhosts held (s.ghosts core shadow)).getD held

/-- How many more waves of S registers a core holds beside what is held (04 R91). -/
def slotRoom (S : Nat) (held : List (Nat × Nat)) : Nat :=
  sumNat ((List.range 8).map fun p =>
    let h := held.filter fun x => partOf x.1 == p
    min (12 - h.length) ((512 - sumNat (h.map (·.2))) / S))

/-- Scratchpad of a block rounded to granules (08 R181). -/
def LRec.spdRound (r : LRec) : Nat := (r.spdbytes + 127) / 128 * 128

/-- Has a core the scratchpad, tiles and accumulator memory for a block of the launch, beside the blocks in both banks
(08 R181, 10 R232, 18 R368)? -/
def State.memFits (s : State) (core : Nat) (r : LRec) : Bool :=
  let bs := (s.blocks.map (·.2)).filter fun (b : Block) => !b.isTask && !b.saved && b.cores.contains core
  let tot (f : LRec → Nat) : Nat := sumNat (bs.map fun b => f (s.lrecOf b.launch)) + f r
  decide (tot LRec.spdRound ≤ Config.spdSize) && decide (tot (·.tiles) ≤ 64) && decide (tot (·.acckib) ≤ 256)

/-- Waves of the launch that one core holds at most (04 R91). -/
def LRec.perCore (r : LRec) : Nat := 8 * min 12 (512 / r.stackregs)

/-- The number of cores a block occupies (18 R368, 11 R277, 04 R91). -/
def LRec.spread (r : LRec) : Nat :=
  match r.place with
  | 1 => 2
  | 2 => 8
  | _ => (r.waves + r.perCore - 1) / r.perCore

/-- Can a cluster ever hold a block of the launch (04 R88, R91; 11 R277; 18 R368)? -/
def LRec.holdable (r : LRec) : Bool :=
  decide (r.spread ≤ 8) && decide ((r.waves + r.spread - 1) / r.spread ≤ r.perCore) && decide (r.spdRound ≤ Config.spdSize)

/-- May blocks of the launch run on a die (18 R361)? -/
def LRec.dieOk (r : LRec) (die : Nat) : Bool := r.dies == 0 || bit r.dies die

/-- The cores a block of a launch is on, from the core of its wave 0 and the cores of its first waves (18 R368, 11 R277). -/
def LRec.coresOf (r : LRec) (places : List Nat) : List Nat :=
  let c0 := places.headD 0 / 96
  match r.place with
  | 1 => [c0 / 2 * 2, c0 / 2 * 2 + 1]
  | 2 => (List.range 8).map fun i => c0 / 8 * 8 + i
  | _ => (places.take r.spread).map (· / 96)

/-- Are the numbers rising? -/
def rising : List Nat → Bool
  | [] => true
  | [_] => true
  | a :: b :: t => decide (a < b) && rising (b :: t)

/-- Is a list of places, core × 96 + slot of each wave, one that the placement forms allow (18 R368)? -/
def LRec.formOk (r : LRec) (places : List Nat) : Bool :=
  let cs := r.coresOf places
  let c0 := cs.headD 0
  decide (places.length = r.waves) && decide (cs.length = r.spread) && rising cs &&
    cs.all (fun c => decide (c < Config.cores) && c / 8 == c0 / 8) &&
    r.dieOk (dieOf c0) && (places.zipIdx).all fun x => x.1 / 96 == (cs[x.2 % r.spread]?).getD Config.cores

/-- Do the places have room in a bank (04 R91, 11 R277, 18 R368)? -/
def State.placesFit (s : State) (r : LRec) (shadow : Bool) (places : List Nat) : Bool :=
  let cs := r.coresOf places
  cs.all fun c =>
    s.memFits c r && waveFit r.stackregs (s.heldSlots c shadow) ((places.filter fun p => p / 96 == c).map (· % 96))
      (s.ghosts c shadow ++ if r.ghostOn cs c then [r.stackregs] else [])

/-- Subsets of a list with k elements, in order. -/
def choose : Nat → List Nat → List (List Nat)
  | 0, _ => [[]]
  | _ + 1, [] => []
  | k + 1, x :: t => (choose k t).map (x :: ·) ++ choose (k + 1) t

/-- Waves of a block that count on the core of index `i` (11 R277, 18 R368). -/
def LRec.countOn (r : LRec) (i : Nat) : Nat := if r.place == 1 then (r.waves + 1) / 2 else (r.waves - i + r.spread - 1) / r.spread

/-- Has a set of cores room for a block of the launch in a bank (18 R368)? -/
def State.coresFit (s : State) (r : LRec) (shadow : Bool) (cs : List Nat) : Bool :=
  (cs.zipIdx).all fun x =>
    s.memFits x.1 r && decide (r.countOn x.2 ≤ slotRoom r.stackregs (s.countedSlots x.1 shadow))

/-- Has a cluster, numbered through the module, room for a block of the launch (18 R368)? -/
def State.clusterRoom (s : State) (r : LRec) (shadow : Bool) (cl : Nat) : Bool :=
  let sets :=
    match r.place with
    | 1 => (List.range 4).map fun i => [2 * i, 2 * i + 1]
    | _ => choose r.spread (List.range 8)
  sets.any fun cs => s.coresFit r shadow (cs.map fun i => 8 * cl + i)

/-- Has the module room for the next block of a launch on its dies (18 R367)? -/
def State.anyRoom (s : State) (r : LRec) : Bool :=
  (List.range 56).any fun cl => r.dieOk (cl / 14) && s.clusterRoom r false cl

/-- What the device reads of a launch's memory: the bytes, a miss, or a fault. -/
inductive DevIo where
  | ok (bytes : List Byte)
  | miss (asid va : Nat)
  | fault (code : Nat)
deriving DecidableEq, Repr

/-- A byte as a strong read at SYSTEM scope sees it: the sector's grant is recalled and dirty bytes are home first (09 R219,
R231). -/
def State.homeFresh (s : State) (h : Home) : State :=
  let s1 := s.recall h
  (List.range Config.dies).foldl (fun (s : State) d => s.l2Home d h) s1

/-- The sectors an access of the device touches, brought home. -/
def State.devSync (s : State) (die asid va n need : Nat) : State :=
  (List.range n).foldl (fun (s : State) i =>
    match s.xlate die asid ((va + i) % 2 ^ 56) need with
    | .ok pa ca cv => if (va + i) % 128 = 0 || i = 0 then s.homeFresh (Home.of false pa ca cv) else s
    | _ => s) s

/-- Find `n` bytes of an address space for the device (18 R362, R363, R365). -/
def State.devFind (s : State) (die asid va n need : Nat) : List (Nat × Bool) × DevIo :=
  let xs := (List.range n).map fun i => ((va + i) % 2 ^ 56, s.xlate die asid ((va + i) % 2 ^ 56) need)
  let miss (x : Nat × Xlat) : Option Nat :=
    match x.2 with | .miss => if s.devDenied.contains (asid, x.1 / 65536) then none else some x.1 | _ => none
  match xs.findSome? miss with
  | some v => ([], .miss asid v)
  | none =>
    match xs.findSome? fun x => match x.2 with | .fault c => some c | .miss => some 0x23 | _ => none with
    | some c => ([], .fault c)
    | none => (xs.filterMap fun x => match x.2 with | .ok pa _ cv => some (pa, bit cv 55) | _ => none, .ok [])

/-- A page miss of the device's own access is posted, and the access waits (08 R194, 18 R365). -/
def State.devMiss (s : State) (asid va kind : Nat) : State :=
  let s1 := s.addMiss asid va kind 0
  { s1 with devMissed := insertPage s1.devMissed (asid, va / 65536) }

/-- The device's accesses under an ASID have gone through: nothing of it waits or is denied any more. -/
def State.devClear (s : State) (asid : Nat) : State :=
  { s with devMissed := s.devMissed.filter (·.1 != asid), devDenied := s.devDenied.filter (·.1 != asid) }

/-- The device's own access at bytes of homes is counted: the walks of its pages, and the bytes of HBM (20 R430). -/
def State.countDev (s : State) (die asid va n src : Nat) (ls : List (Nat × Bool)) : State :=
  if s.bar.isEmpty then s
  else
    let s1 := (List.range n).foldl (fun (s : State) i =>
      if i = 0 || (va + i) % 65536 = 0 then s.countWalk die asid ((va + i) % 2 ^ 56) else s) s
    (ls.zipIdx).foldl (fun (s : State) x =>
      if !x.1.2 && (x.2 = 0 || x.1.1 % 64 = 0) then s.countHbm src x.1.1 1 else s) s1

/-- Read `n` bytes of an address space (18 R362). -/
def State.devRead (s : State) (die asid va n : Nat) : DevIo × State :=
  let s1 := s.devSync die asid va n needRD
  match s1.devFind die asid va n needRD with
  | (ls, .ok _) => (.ok (ls.map fun l => s1.homeByte l.2 l.1), s1.countDev die asid va n 3 ls)
  | (_, .fault c) => (.fault c, s.countDev die asid va 1 3 [])
  | (_, r) => (r, s)

/-- Write bytes to an address space as one store at SYSTEM scope (18 R364, R365; 16 R352). -/
def State.devWrite (s : State) (die asid va : Nat) (bytes : List Byte) : DevIo × State :=
  let s1 := s.devSync die asid va bytes.length needWR
  match s1.devFind die asid va bytes.length needWR with
  | (ls, .ok _) =>
    (.ok [], (ls.zip bytes).foldl (fun (s : State) x => s.homePut x.1.2 x.1.1 x.2) (s1.countDev die asid va bytes.length 4 ls))
  | (_, .fault c) => (.fault c, s.countDev die asid va 1 4 [])
  | (_, r) => (r, s)

/-- `n` little-endian bytes of a number. -/
def leBytes (x n : Nat) : List Byte := (List.range n).map fun i => BitVec.ofNat 8 (x / 256 ^ i)

/-- The number little-endian bytes hold. -/
def bytesNat (l : List Byte) : Nat := ofBytes (l.map BitVec.toNat)

/-- Raise an MSI-X vector (20 R412). -/
def State.raiseMsi (s : State) (v : Nat) : State := { s with msi := s.msi ++ [v] }

end Sys2Proof.Machine
end

