-- ==== Sys2Proof/Machine/Tasks.lean ====
section
/-! DEFINITION. The task system: spawns, reservations, TNEXT, TEND, the gathering of task waves, work requests and futures
(13 R319-R326; 14 R334, R336; 18 R378-R382). -/

namespace Sys2Proof.Machine

open Sys2Proof (Operand SpawnF SpawncF SpawnrF TnextF TresF TdstF W32 W64 Byte Mask SMap SMap.get? SMap.set SMap.getD SMap.modify SMap.del)
open Sys2Proof.Config (dieOf partOf)

/-- Records a die's task store holds (18 R378). -/
abbrev storeSize : Nat := 16384

/-- Records of a die's store that are occupied: written ones and those that reservations hold (18 R378). -/
def State.storeUsed (s : State) (die : Nat) : Nat :=
  s.tasks.countP (fun t => t.die == die) +
    sumNat ((s.allWaves.filter fun w => dieOf w.core == die).map fun w => match w.resv with | some r => r.total - r.used | none => 0)

/-- A record that waits in a core's lists (18 R378). -/
def TaskRec.queued (t : TaskRec) (core : Nat) : Bool := t.core == core && t.published && !t.served

/-- Are all lists of a core empty (18 R379)? -/
def State.listsEmpty (s : State) (core : Nat) : Bool := !s.tasks.any fun t => t.queued core

/-- Records of an aborted launch are discarded without join subtractions, and counted in JOINLOST (18 R366). -/
def State.discard (s : State) (launch : Nat) (ids : List Nat) : State :=
  { s with tasks := s.tasks.filter fun (t : TaskRec) => !ids.contains t.id }.modLaunch launch fun l => { l with joinLost := l.joinLost + ids.length }

/-- Publish records of a launch on a core in the order given: they join their lists at the end, unless the launch has been aborted
(13 R320; 18 R366, R378, R379). -/
def State.publish (s : State) (launch core : Nat) (ids : List Nat) : State :=
  if ids.isEmpty then s
  else if s.abortedL launch then s.discard launch ids
  else
    let news := ids.filterMap fun i => (s.tasks.find? fun (t : TaskRec) => t.id == i).map fun t => { t with core := core, published := true, since := s.clk }
    let g := SMap.getD s.gather core (0, 0)
    let s1 := { s with
      tasks := (s.tasks.filter fun (t : TaskRec) => !ids.contains t.id) ++ news
      gather := if s.listsEmpty core then SMap.set s.gather core (g.1, s.clk) else s.gather }
    s1.countDie (dieOf core) 13 ids.length

/-- Write records without publishing them; the ids in order (13 R321, R324). -/
def State.writeRecords (s : State) (tgt : Nat) (join : Option (Nat × Bool)) (range : Option (Nat × Nat)) :
    List (List W32) → State × List Nat
  | [] => (s, [])
  | p :: t =>
    let n := s.newId
    let r : TaskRec :=
      { id := n.1, launch := s.cw.launch, die := dieOf s.cw.core, core := s.cw.core, target := tgt, payload := p, join := join,
        range := range, published := false, served := false, since := s.clk }
    let x := { n.2 with tasks := n.2.tasks ++ [r] }.writeRecords tgt join range t
    (x.1, n.1 :: x.2)

/-- The task-state fault of a spawn of `n` records: the lowest sub-code that applies (13 R321, R324, R326). -/
def State.spawnTrap (s : State) (rsv : Bool) (n tgt : Nat) : Option TrapRec :=
  let bad := if tgt % 8 ≠ 0 || tgt ≥ s.lrec.codesize then some ⟨cTask, tgt, 6, 0⟩ else none
  match rsv, s.cw.resv with
  | true, none => some (dataRec cTask 3)
  | true, some r => if r.total - r.used < n then some (dataRec cTask 4) else bad
  | false, _ => bad

/-- The issue checks of a join address (13 R320). -/
def joinTrap (a : Nat) (gran : Bool) : Option TrapRec :=
  if a % 4 ≠ 0 then some ⟨cAlign, if gran then a % 2 ^ 32 else a, 0, 0⟩
  else if gran && a + 4 > Config.granSize then some ⟨cRange, a % 2 ^ 32, 0, 0⟩
  else none

/-- What an addition to a join word answers. -/
inductive JoinAdd where
  | ok (s : State)
  | miss (asid va : Nat)
  | fault (code : Nat)

/-- Add to a join word: an `ATOM.ADD` at DEVICE scope (13 R320, 18 R381). -/
def State.joinAdd (s : State) (core launch block a : Nat) (gran : Bool) (n : Nat) (deny : Bool) : JoinAdd :=
  let asid := (s.lrecOf launch).asid
  let sp := if gran then spGRN else spDEV
  let a := if gran then a else a % 2 ^ 56
  let w : How := { strong := true, atomic := true, scope := 3, multi := false }
  let f := s.findHeld w core launch block asid sp a needAT
  match if deny then s.orDenied f else f with
  | .miss x v => .miss x v
  | .fault c _ => .fault c
  | .at l =>
    if s.locBad l 4 then .fault cMemError
    else
      let q : Asker := { core := core, launch := launch, l2Only := false }
      let r := (s.noteXlat core asid a sp).readLoc q w l 4
      .ok (r.1.writeLoc (q.after l) w l 4 ((r.2 + n) % 2 ^ 32) 15)

/-- Publishing records is a release, taking them with TNEXT an acquire (09 R210; 13 R320, R322). -/
def State.putTasks (s : State) (ids : List Nat) : State := ids.foldl (fun (s : State) i => s.putOrder (taskPlace i)) s
def State.takeTasks (s : State) (ids : List Nat) : State := ids.foldl (fun (s : State) i => s.takeOrder (taskPlace i)) s

/-- The records of a spawn are written, and published unless they go to the reservation (13 R320, R321, R324). -/
def State.spawnWrite (s : State) (c : SpawnOps) (rsv : Bool) : State :=
  let x := s.writeRecords c.target c.join c.range c.pays
  if rsv then
    x.1.onWave fun w => { w with resv := w.resv.map fun r => { r with used := r.used + x.2.length, written := r.written ++ x.2 } }
  else ((x.1.releaseAt s.cw.core s.cw.launch 3 (s.multiOf s.cw.block)).publish s.cw.launch s.cw.core x.2).putTasks x.2

/-- A spawn (13 R320, R321, R324): its checks; the path's earlier accesses performed, since publishing is a release; room in the
store; the join addition; then the records. A spawn that waits keeps the operands it captured at issue (14 R336). -/
def State.spawn (s : State) (issued : SpawnOps) (rsv : Bool) : State :=
  let c := s.cw.pa.held.getD issued
  let keep (s : State) : State := s.onPa fun p => { p with held := some c }
  let n := c.pays.length
  match s.spawnTrap rsv n c.target with
  | some r => s.trapHere r
  | none =>
    if n = 0 then s.slotDone
    else
      match c.join.bind fun j => joinTrap j.1 j.2 with
      | some r => s.trapHere r
      | none =>
        let wait := s.unsettled fun a => a.kind != AKind.joinSub
        if !wait.isEmpty then (keep s).park (.accesses wait)
        else if !rsv && s.storeUsed (dieOf s.cw.core) + n > storeSize then (keep s).park (.store n)
        else
          match c.join with
          | none => (s.spawnWrite c rsv).slotDone
          | some (a, g) =>
            match s.joinAdd s.cw.core s.cw.launch s.cw.block a g n true with
            | .ok t => (t.spawnWrite c rsv).slotDone
            | .miss x v => (keep s).parkMiss x v 1
            | .fault c => s.trapHere ⟨c, if g then a else a % 2 ^ 56, s.wordOff, 0⟩

/-- The join word a spawn names, with JSP; none for `zero` (13 R321). -/
def State.joinOf (s : State) (o : Operand) (jsp : Bool) : Option (Nat × Bool) :=
  if clsOf o == Cls.z then none else some ((s.rd64 o).toNat, jsp)

/-- The payloads of the lanes in `ExecMask()`, in ascending lane order (13 R321; 14 R334, R336). -/
def State.lanePays (s : State) (o : Operand) (n : Nat) : List (List W32) :=
  (s.active false).map fun l => if n = 0 then [] else s.rdWords o n l

/-- SPAWN (13 R321). -/
def execSpawn (f : SpawnF) (s : State) : Res :=
  .next (s.spawn ⟨(s.rdS f.tgt).toNat, s.lanePays f.pay f.n.val, none, s.joinOf f.join f.jsp⟩ f.rsv)

/-- SPAWNC (13 R321). -/
def execSpawnc (f : SpawncF) (s : State) : Res :=
  .next (s.spawn ⟨(s.rdS f.tgt).toNat, s.lanePays f.pay f.n.val, none, none⟩ f.rsv)

/-- SPAWNR (13 R321): one record for the path, none where lo ≥ hi. -/
def execSpawnr (f : SpawnrF) (s : State) : Res :=
  let w := s.rdWords f.rng 2 0
  let lo := ((w[0]?).getD 0).toNat
  let hi := ((w[1]?).getD 0).toNat
  let pay := if f.n.val = 0 then [] else s.rdWords f.pay f.n.val 0
  .next (s.spawn ⟨(s.rdS f.tgt).toNat, if lo < hi then [pay] else [], some (lo, hi), s.joinOf f.join f.jsp⟩ f.rsv)

/-- Change a record. -/
def State.modTask (s : State) (id : Nat) (f : TaskRec → TaskRec) : State :=
  { s with tasks := s.tasks.map fun (t : TaskRec) => if t.id == id then f t else t }

/-- The gathered records of a (launch, target) list of a core, in publish order (18 R378). -/
def State.taskList (s : State) (core launch target : Nat) : List TaskRec :=
  s.tasks.filter fun t => t.queued core && t.range.isNone && t.launch == launch && t.target == target

/-- The lanes and payload words a range wave receives: PAY takes the iteration whatever `n` is (13 R322). -/
def rangeWords (cur hi n : Nat) (pay : List W32) (l : Nat) : Option (List W32) :=
  if cur + l < hi then some (BitVec.ofNat 32 (cur + l) :: (List.range (n - 1)).map fun j => (pay[j]?).getD 0) else none

/-- Give the wave in focus its work: lane l receives the words at l, and the mask is that of the lanes with work (13 R322). -/
def State.giveWork (s : State) (f : TnextF) (words : Nat → Option (List W32)) : State :=
  let lanes := allLanes.filter fun l => (words l).isSome
  let s1 := lanes.foldl (fun (t : State) l =>
    (((words l).getD []).zipIdx).foldl (fun (t : State) x =>
      match f.pay with
      | .v i => t.onWave fun w => w.setV (s.phys (i + x.2)) l x.1
      | _ => t) t) s
  let m := maskOfList lanes
  ((s1.onPa fun p => { p with base := m }).wrS f.dst m).slotDone

/-- A gathered wave's next work: the records it was started with, else up to 32 queued ones (13 R322, 14 R334). -/
def State.nextGathered (s : State) (f : TnextF) (t : TaskServe) : State :=
  let s1 := if t.first then s else t.recs.foldl (fun (s : State) id => s.retire s.cw id) s
  let ids := if t.first then t.recs else ((s1.taskList s.cw.core s.cw.launch t.target).take 32).map (·.id)
  let pays := ids.map fun i => match s1.tasks.find? fun r => r.id == i with | some r => r.payload | none => []
  let s2 := ids.foldl (fun (s : State) i => s.modTask i fun r => { r with served := true }) s1
  let s3 := ((s2.onWave fun w => { w with task := some { t with recs := ids, first := false } }).acquireAt s.cw.core s.cw.launch 3 false).takeTasks ids
  s3.giveWork f fun l => (pays[l]?).map fun p => (List.range f.n.val).map fun j => (p[j]?).getD 0

/-- A range wave's next work: 32 iterations of its interval; a used-up record retires (13 R322, 18 R381). -/
def State.nextRange (s : State) (f : TnextF) (t : TaskServe) : State :=
  match s.tasks.find? fun r => t.recs.contains r.id with
  | none => s.giveWork f fun _ => none
  | some r =>
    let cur := (r.range.getD (0, 0)).1
    let hi := (r.range.getD (0, 0)).2
    if cur ≥ hi then ((s.retire s.cw r.id).onWave fun w => { w with task := some { t with recs := [] } }).giveWork f fun _ => none
    else
      let s1 := (s.modTask r.id fun r => { r with range := some (cur + 32, hi) }).onWave fun w => { w with task := some { t with first := false } }
      ((s1.acquireAt s.cw.core s.cw.launch 3 false).takeTasks t.recs).giveWork f (rangeWords cur hi f.n.val r.payload)

/-- TNEXT (13 R322). -/
def execTnext (f : TnextF) (s : State) : Res :=
  .next (match s.cw.task with
    | none => s.trapHere (dataRec cTask 1)
    | some t =>
      if s.cw.forked || s.cw.pa.depth ≠ 0 then s.trapHere (dataRec cTask 5)
      else if t.range then s.nextRange f t
      else s.nextGathered f t)

/-- TRES (13 R323, 18 R378). -/
def execTres (f : TresF) (s : State) : Res :=
  let n := (s.rdS f.n).toNat
  .next (if s.cw.resv.isSome then s.trapHere (dataRec cTask 2)
    else if n = 0 || n > 4096 then (s.wrS f.dst 0x80000002).slotDone
    else if s.storeUsed (dieOf s.cw.core) + n > storeSize then (s.wrS f.dst 0x80000001).slotDone
    else ((s.onWave fun w => { w with resv := some { total := n, used := 0, written := [] } }).wrS f.dst (BitVec.ofNat 32 n)).slotDone)

/-- TCOMMIT: a release at DEVICE scope, after the path's earlier accesses (13 R320, R324). -/
def execTcommit (f : TdstF) (s : State) : Res :=
  .next (match s.cw.resv with
    | none => s.trapHere (dataRec cTask 3)
    | some r =>
      let wait := s.unsettled fun a => a.kind != AKind.joinSub
      if !wait.isEmpty then s.park (.accesses wait)
      else
        let s1 := (s.releaseAt s.cw.core s.cw.launch 3 (s.multiOf s.cw.block)).publish s.cw.launch s.cw.core r.written
        (((s1.putTasks r.written).onWave fun w => { w with resv := none }).wrS f.dst (BitVec.ofNat 32 r.written.length)).slotDone)

/-- TCANCEL (13 R324). -/
def execTcancel (f : TdstF) (s : State) : Res :=
  .next (match s.cw.resv with
    | none => s.trapHere (dataRec cTask 3)
    | some r =>
      (((s.cancelResv s.cw).onWave fun w => { w with resv := none }).wrS f.dst (BitVec.ofNat 32 r.total)).slotDone)

/-- TEND (13 R325). -/
def execTend (s : State) : Res := .next (if s.cw.task.isNone then s.trapHere (dataRec cTask 1) else s.endPath)

/-- The free task slice numbers of a launch on a core (08 R180). -/
def State.freeSlices (s : State) (core launch : Nat) : List Nat :=
  (List.range 96).filter fun k =>
    !s.allWaves.any fun w => w.core == core && w.launch == launch && w.resid != .free &&
      (match w.task with | some t => t.sliceNo == k | none => false)

/-- Is a slot of a core free in its active bank for a wave of S registers (04 R91, 11 R277)? -/
def State.slotFree (s : State) (core slot S : Nat) : Bool := waveFit S (s.heldSlots core false) [slot] (s.ghosts core false)

/-- The heads of a core's lists: the oldest record of each (launch, target) list, and each range record (18 R378, R379). -/
def State.heads (s : State) (core : Nat) : List TaskRec :=
  (s.tasks.filter fun t => t.queued core).filter fun t =>
    t.range.isSome || ((s.taskList core t.launch t.target).head?).map (·.id) == some t.id

/-- The records that wait on a core with one record's launch and target, gathered ones or range records as it is: range records make
lists of their own (18 R378; DEDUCED: log 29). -/
def State.listOf (s : State) (core : Nat) (t : TaskRec) : List TaskRec :=
  s.tasks.filter fun x => x.queued core && x.range.isNone == t.range.isNone && x.launch == t.launch && x.target == t.target

/-- Has a list waited or filled enough for a task wave of its own (18 R379)? -/
def State.listDue (s : State) (core : Nat) (t : TaskRec) : Bool :=
  decide ((s.listOf core t).length ≥ 32) || decide (t.since + 2048 ≤ s.clk)

/-- Has the core's idle count run out (18 R379)? -/
def State.gatherIdle (s : State) (core : Nat) : Bool :=
  let g := SMap.getD s.gather core (0, 0)
  decide (max g.1 g.2 + 2048 ≤ s.clk)

/-- May a task wave start for a list, whatever slot it takes (18 R379, R386)? -/
def State.mayGather (s : State) (core : Nat) (t : TaskRec) : Bool :=
  !s.abortedL t.launch && !(s.freeSlices core t.launch).isEmpty &&
    decide (1 ≤ slotRoom (s.lrecOf t.launch).stackregs (s.countedSlots core false)) && (s.listDue core t || s.gatherIdle core)

/-- The order in which a core serves its lists (18 R379). -/
def State.gatherKey (s : State) (t : TaskRec) : List Nat := [3 - s.prioOf t.launch, t.since, t.id]

/-- The list a core serves next (18 R379). -/
def State.nextList (s : State) (core : Nat) : Option TaskRec :=
  leastBy s.gatherKey ((s.heads core).filter fun t => s.mayGather core t)

/-- A future of a core whose miss the pager has settled: it resumes before any gathering (18 R382). -/
def State.futureReady (s : State) (w : Wave) : Bool :=
  w.resid == .future &&
    match w.pa.phase with
    | .parked (.slotMiss a v) => !s.misses.any fun (m : Miss) => m.asid == a && m.page == v % 2 ^ 56 / 65536
    | .parked (.fetch a v) => !s.misses.any fun (m : Miss) => m.asid == a && m.page == v % 2 ^ 56 / 65536
    | .parked (.wait p) => !s.missing w.uid w.second && !(s.focus w.uid w.second).waitMissed p
    | _ => !s.missing w.uid w.second

/-- Start a task wave for the list of a record, in a slot of the core (13 R319; 18 R379; 08 R180). -/
def State.taskStart (s : State) (core slot : Nat) (t : TaskRec) : State :=
  let r := s.lrecOf t.launch
  let recs := if t.range.isSome then [t.id] else ((s.taskList core t.launch t.target).take 32).map (·.id)
  let d := s.draw
  let k := pickFree d.1 (s.freeSlices core t.launch)
  let bank := s.bankOf core
  let uid := d.2.nextId
  let block := d.2.nextId + 1
  let serve : TaskServe := { target := t.target, recs := recs, range := t.range.isSome, first := true, sliceNo := k }
  let b : Block :=
    { id := block, launch := t.launch, index := 0, isTask := true, cores := [core], slots := [core * 96 + slot], banks := [bank],
      saved := false, phase := .running, nwaves := 1, ended := [], circles := [], attached := false, arriving := false,
      detached := false }
  let w := startWave r uid core slot t.launch block 0 d.2.fresh s.clk .active bank 0 t.target (some serve)
  let s1 := recs.foldl (fun (s : State) i => s.modTask i fun x => { x with served := true }) (d.2.copyArgs core t.launch bank)
  let s2 := { s1 with
    nextId := s1.nextId + 2
    blocks := SMap.set s1.blocks block b
    gather := SMap.set s1.gather core (s.clk, (SMap.getD s1.gather core (0, 0)).2) }
  ((s2.addWave w).newSlice w).acquireAt core t.launch 5 false

/-- TASK_WAVE_START: for the list whose head is the record named, where it is the one the core serves next (18 R379). -/
def execTaskWaveStart (core slot record : Nat) (s : State) : Res :=
  .next (match s.nextList core with
    | none => s
    | some t =>
      if t.id == record && s.slotFree core slot (s.lrecOf t.launch).stackregs && !s.swapping core &&
          !s.allWaves.any (fun w => w.core == core && s.futureReady w) then
        s.taskStart core slot t
      else s)

/-- TASK_GATHER_TIMEOUT: a count of 2,048 clk has run out, and a task wave starts in a slot that is free (18 R379). -/
def execTaskGatherTimeout (core : Nat) (s : State) : Res :=
  .next (match s.nextList core with
    | none => s
    | some t =>
      let slots := (List.range 96).filter fun x => s.slotFree core x (s.lrecOf t.launch).stackregs
      if slots.isEmpty || s.swapping core || s.allWaves.any (fun w => w.core == core && s.futureReady w) ||
          !(decide (t.since + 2048 ≤ s.clk) || s.gatherIdle core) then s
      else
        let d := s.draw
        d.2.taskStart core (pickFree d.1 slots) t)

/-- The split point of an interval (13 R322, 18 R381). -/
def splitPoint (cur hi : Nat) : Nat := cur + 32 * ((hi - cur + 63) / 64)

/-- Split a range record for an asking core, where the store has room for one more record (DESIGN CHOICE: log 29). A page miss on
the join addition waits for the pager, and the request is made again; an addition that faults abandons the split (08 R194; 18 R378,
R381). -/
def State.splitRange (s : State) (core : Nat) (t : TaskRec) : State :=
  let cur := (t.range.getD (0, 0)).1
  let hi := (t.range.getD (0, 0)).2
  let m := splitPoint cur hi
  let go (s : State) : State :=
    let n := s.newId
    let r : TaskRec := { t with id := n.1, core := core, range := some (m, hi), published := false, served := false }
    let u := n.2.modTask t.id fun x => { x with range := some (cur, m) }
    { u with tasks := u.tasks ++ [r] }.publish t.launch core [n.1]
  if s.storeUsed t.die + 1 > storeSize then s
  else
    match t.join with
    | none => go s
    | some (a, g) =>
      match s.joinAdd core t.launch 0 a g 1 false with
      | .ok u => go u
      | .miss x v =>
        let page := (x, v % 2 ^ 56 / 65536)
        if s.devDenied.contains page then { s with devDenied := s.devDenied.filter (· != page) } else s.devMiss x v 1
      | .fault _ => s

/-- Records of a core's longest list (18 R380); ties go to the list with the oldest head. -/
def State.longestList (s : State) (core : Nat) : List TaskRec :=
  let ls := ((s.heads core).filter fun t => t.range.isNone).map fun t => s.taskList core t.launch t.target
  match leastBy (fun (l : List TaskRec) => [storeSize - l.length, (l.map (·.since)).headD 0]) ls with
  | some l => l
  | none => []

/-- A range record of a core with more than 32 unclaimed iterations (18 R380). -/
def State.splittable (s : State) (core : Nat) : Option TaskRec :=
  s.tasks.find? fun t => t.core == core && t.published && !s.abortedL t.launch && match t.range with | some (a, b) => decide (a + 32 < b) | none => false

/-- Has a core work to give (18 R380)? -/
def State.hasWork (s : State) (core : Nat) : Bool := (s.splittable core).isSome || decide ((s.longestList core).length ≥ 2)

/-- The cores an idle core asks, in order (18 R380). -/
def askOrder (core : Nat) : List Nat :=
  let cl := (List.range 8).map fun i => core / 8 * 8 + i
  (cl ++ (List.range 112).filterMap fun i => let c := core / 112 * 112 + i; if cl.contains c then none else some c).filter (· != core)

/-- WORK_REQUEST: an idle core receives work of the first core asked that has some (18 R380, R381). -/
def execWorkRequest (core donor : Nat) (s : State) : Res :=
  let free := (List.range 96).any fun x => !((s.heldSlots core false).map (·.1)).contains x
  .next (if core ≥ Config.cores || !free || !s.listsEmpty core || (askOrder core).find? (fun c => s.hasWork c) != some donor then s
    else
      match s.splittable donor with
      | some t => s.splitRange core t
      | none =>
        let l := s.longestList donor
        let ids := (l.drop (l.length - l.length / 2)).map (·.id)
        let g := SMap.getD s.gather core (0, 0)
        { s with
          tasks := s.tasks.map fun (t : TaskRec) => if ids.contains t.id then { t with core := core } else t
          gather := SMap.set s.gather core (g.1, s.clk) })

end Sys2Proof.Machine
end

