-- ==== Sys2Proof/Machine/Moot.lean ====
section
/-! DEFINITION. The moot window: MOOTA, MOOTD, MOOTQ and the attach of a gang (13 R328-R330; 17 R356). -/

namespace Sys2Proof.Machine

open Sys2Proof (Operand MootaF MootqF W32 W64 Byte Mask SMap SMap.get? SMap.set SMap.getD SMap.modify SMap.del)

/-- Members of a gang (18 R370). -/
def LRec.gangSize (r : LRec) : Nat := (r.gpkgs + 1) * (r.gridx * r.gridy * r.gridz)

/-- The moot rank of a block of a launch (18 R370). -/
def LRec.rankOf (r : LRec) (index : Nat) : Nat := r.prank * (r.gridx * r.gridy * r.gridz) + index

/-- Is the block of the wave in focus a gang member, and of which rank (13 R328)? -/
def State.myRank (s : State) : Option Nat :=
  match s.blk with
  | some b => if s.lrec.gang && !b.isTask then some (s.lrec.rankOf b.index) else none
  | none => none

/-- The word MOOTA and MOOTQ.SELF return, without bit 31 (13 R328, R330). -/
def mootWord (rank size : Nat) : W32 := BitVec.ofNat 32 (rank % 4096 + 4096 * ((size - 1) % 4096))

/-- Change a gang's entry. -/
def State.modGang (s : State) (gid : Nat) (f : Gang → Gang) : State := { s with gangs := SMap.set s.gangs gid (f (s.gangOf gid)) }

/-- Has every member arrived or departed (13 R328)? -/
def Gang.ready (g : Gang) (size : Nat) : Bool := (List.range size).all fun r => g.arrived.contains r || g.departed.contains r

/-- The blocks of gang launches with a gang's number. -/
def State.gangBlocks (s : State) (gid : Nat) : List Block :=
  (s.blocks.map (·.2)).filter fun (b : Block) =>
    !b.isTask && (s.lrecOf b.launch).gang && (s.lrecOf b.launch).gangKey == gid

/-- Every member that has arrived is attached at once, unless a member departed before (13 R328). -/
def State.attachAll (s : State) (gid : Nat) : State :=
  let g := s.gangOf gid
  if !g.departed.isEmpty then s
  else
    let s1 := s.modGang gid fun g => { g with attached := g.arrived }
    (s.gangBlocks gid).foldl (fun (s : State) b =>
      s.modBlock b.id fun b => if b.arriving then { b with attached := true, arriving := false } else b) s1

/-- The release of a block's arrival, on each core it occupies (17 R356). -/
def State.mootRelease (s : State) (b : Block) : State :=
  b.cores.foldl (fun (s : State) c => s.releaseAt c b.launch 4 (decide (b.cores.length > 1))) s

/-- Is every access that the arrivals of a gang's blocks release performed (17 R356)? -/
def State.mootReleased (s : State) (gid : Nat) : Bool :=
  (s.gangBlocks gid).all fun (b : Block) => s.accs.all fun (a : Access) => !b.before.contains a.id || a.settled

/-- May the MOOTAs of a gang that is complete end: a member departed and nobody is attached, or the arrivals' accesses are performed
(13 R328, 17 R356)? -/
def State.mootOver (s : State) (gid : Nat) : Bool :=
  (!(s.gangOf gid).departed.isEmpty && !(s.gangBlocks gid).any (·.attached)) || s.mootReleased gid

/-- A MOOTA of the wave in focus gives its result: bit 31 where the block is not attached; a completed attach is a release of every
block of the gang, and an acquire on each core of this one (13 R328, 17 R356). -/
def State.mootResult (s : State) (dst : Operand) : State :=
  match s.myRank, s.blk with
  | some r, some b =>
    let w := mootWord r s.lrec.gangSize
    if b.attached then
      let s1 := (s.gangBlocks s.lrec.gangKey).foldl State.mootRelease s
      ((b.cores.foldl (fun (s : State) c => s.acquireAt c b.launch 4 (decide (b.cores.length > 1))) s1).takeOrder
        (mootPlace s.lrec.gangKey)).wrS dst w
    else s.wrS dst (w ||| 0x80000000)
  | _, _ => s

/-- A block's arrival is withdrawn (13 R328). -/
def State.withdraw (s : State) : State :=
  match s.myRank with
  | some r => (s.modGang s.lrec.gangKey fun g => { g with arrived := g.arrived.filter (· != r) }).modBlock s.cw.block fun b => { b with arriving := false }
  | none => s

/-- Unsettled accesses of a block, those of one space where it is named. -/
def State.blockAccs (s : State) (block : Nat) (sel : Access → Bool) : List Nat :=
  (s.accs.filter fun a => a.block == block && !a.settled && a.kind != AKind.joinSub && sel a).map (·.id)

/-- The arrival of a block releases what every path of its waves knows (17 R356). -/
def State.mootPut (s : State) (b : Block) : State :=
  (s.allWaves.filter fun (w : Wave) => w.block == b.id).foldl (fun (s : State) w =>
    s.modOrder fun x => (x.put (threadNo w.uid false) (mootPlace s.lrec.gangKey)).put (threadNo w.uid true) (mootPlace s.lrec.gangKey)) s

/-- The block of the wave in focus arrives at its gang's attach, if it has not; its accesses so far come before it (13 R328, 17
R356). -/
def State.mootArrive (s : State) (b : Block) (r : Nat) : State :=
  if b.arriving then s
  else
    ((s.mootPut b).modGang s.lrec.gangKey fun g => { g with arrived := insertNat r g.arrived }).modBlock b.id
      fun b => { b with arriving := true, before := s.blockAccs b.id fun _ => true }

/-- MOOTA (13 R328, 17 R356): the block arrives at issue. A MOOTA whose gang is complete waits no longer than for the accesses that
the arrivals release; TIMEOUT does not end that wait (log 43). -/
def execMoota (f : MootaF) (s : State) : Res :=
  let gid := s.lrec.gangKey
  let wait (s : State) : State := s.park (.moota f.dst s.ref f.timeout.toNat)
  .next (match s.myRank, s.blk with
    | some r, some b =>
      if b.attached then (if s.mootOver gid then (s.mootResult f.dst).slotDone else wait s)
      else
        let s1 := s.mootArrive b r
        if (s1.gangOf gid).ready s.lrec.gangSize then
          let s2 := s1.attachAll gid
          if s2.mootOver gid then (s2.mootResult f.dst).slotDone else wait s2
        else if f.timeout = 0 then (s1.withdraw.mootResult f.dst).slotDone
        else wait s1
    | _, _ => s.trapHere (plainRec cSpace))

/-- The MOOTA that a path waits in. -/
def PathSt.mooting (p : PathSt) : Option (Operand × Nat × Nat) :=
  match p.phase with
  | .parked (.moota d since t) => some (d, since, t)
  | _ => none

/-- Complete a waiting MOOTA of a path (13 R328). -/
def State.mootFinish (s : State) (uid : Nat) (second : Bool) : State :=
  let s1 := s.focus uid second
  match s1.cw.pa.mooting with
  | some (d, _, _) => (s1.mootResult d).finishSlot
  | none => s1

/-- The paths of a gang that wait in MOOTA. -/
def State.mootWaiters (s : State) (gid : Nat) : List (Nat × Bool) :=
  (s.allWaves.filter fun (w : Wave) => w.resid != .free && w.resid != .saved && (s.lrecOf w.launch).gangKey == gid).flatMap fun w =>
    ([(w.uid, false), (w.uid, true)]).filter fun x => (w.path x.2).mooting.isSome

/-- GANG_ATTACH_COMPLETE: every member has arrived or departed; every waiting MOOTA completes, once the accesses before the arrivals
are performed (13 R328, 17 R356). -/
def execGangAttachComplete (gid : Nat) (s : State) : Res :=
  .next (match (s.gangBlocks gid).head? with
    | none => s
    | some b =>
      if (s.gangOf gid).ready (s.lrecOf b.launch).gangSize then
        let s1 := s.attachAll gid
        if s1.mootOver gid then (s1.mootWaiters gid).foldl (fun (s : State) x => s.mootFinish x.1 x.2) s1 else s1
      else s)

/-- MOOTA_TIMEOUT: the arrival is withdrawn and bit 31 set (13 R328). -/
def execMootaTimeout (uid : Nat) (second : Bool) (s : State) : Res :=
  .next (match (s.waveOf uid).bind fun w => (w.path second).mooting with
    | none => s
    | some (d, since, t) =>
      let s1 := s.focus uid second
      if !expired s.ref since t || (s1.gangOf s1.lrec.gangKey).ready s1.lrec.gangSize then s
      else (s1.withdraw.mootResult d).finishSlot)

/-- MOOTD (13 R329): waits for the block's MOOT accesses and the path's own, then releases at GANG scope. -/
def execMootd (s : State) : Res :=
  let wait := s.blockAccs s.cw.block fun a => a.space == 6 || a.ofPath s.cw.uid s.cw.second
  .next (if !s.cw.pa.waited && !wait.isEmpty then s.park (.accesses wait)
    else
      let s1 := s.releaseAt s.cw.core s.cw.launch 4 (s.multiOf s.cw.block)
      (match s.myRank, s.blk with
        | some r, some b =>
          if b.attached && !b.detached then
            (s1.modGang s.lrec.gangKey fun g => { g with detached := insertNat r g.detached }).modBlock b.id fun b => { b with detached := true }
          else s1
        | _, _ => s1).slotDone)

/-- MOOTQ (13 R330). -/
def execMootq (f : MootqF) (s : State) : Res :=
  .next (match s.myRank with
    | none => s.trapHere (plainRec cSpace)
    | some r =>
      let n := s.lrec.gangSize
      let g := s.gangOf s.lrec.gangKey
      let k := (s.rdS f.a).toNat
      let set (l : List Nat) : W32 := maskOf fun j => decide (32 * k + j < n) && l.contains (32 * k + j)
      (s.wrS f.dst (match f.sel.val with
        | 0 => mootWord r n
        | 1 => set g.attached
        | 2 => set g.departed
        | _ => set g.detached)).slotDone)

end Sys2Proof.Machine
end

