-- ==== Sys2Proof/Machine/Frames.lean ====
section
/-! DEFINITION. Time, the trigger table, frame streams and snapshots (13 R331-R333; 16 R347-R354; 18 R360; 20 R416, R429, R432). -/

namespace Sys2Proof.Machine

open Sys2Proof (Operand RF FramecF SnapF W32 W64 Byte Mask SMap SMap.get? SMap.set SMap.getD SMap.modify SMap.del)

/-- A queue by number. -/
def State.queue (s : State) (q : Nat) : Queue := SMap.getD s.queues q Queue.reset

/-- Change a queue. -/
def State.modQueue (s : State) (q : Nat) (f : Queue → Queue) : State := { s with queues := SMap.set s.queues q (f (s.queue q)) }

/-- Is a submission accepted (18 R360, 20 R416)? -/
def State.submitOk (s : State) (q addr : Nat) : Bool :=
  let x := s.queue q
  decide (q < 64) && x.en && addr % 256 == 0 && decide (x.pending.length < 256)

/-- Submit a record to a queue (18 R360). -/
def State.submit (s : State) (q addr : Nat) : State := s.modQueue q fun x => { x with pending := x.pending ++ [addr] }

/-- The steward submits a record: it reaches its queue after the doorbells of this ref tick (18 R360). -/
def State.stewardTurn (s : State) (q addr : Nat) : State := { s with stewardSubs := s.stewardSubs ++ [(q, addr)] }

/-- The steward's submissions of the ref tick that ends (18 R360). -/
def State.stewardSubmits (s : State) : State :=
  s.stewardSubs.foldl (fun (s : State) x => if s.submitOk x.1 x.2 then s.submit x.1 x.2 else s) { s with stewardSubs := [] }

/-- A trigger entry after reset (16 R348). -/
def Trigger.reset : Trigger := { time := 0, period := 0, queue := 0, en := false, lrec := 0, fired := 0, missed := 0 }

/-- The least k ≥ 1 with time + k × period beyond now (16 R349). -/
def nextFiring (time period now : Nat) : Nat := if now < time then 1 else (now - time) / period + 1

/-- Evaluate one trigger entry (16 R349). -/
def State.triggerOne (s : State) (e : Nat) (t : Trigger) : State :=
  if !t.en || s.ptp < t.time then s
  else
    let addr := t.lrec * 256
    let ok := s.submitOk t.queue addr
    let s1 := if ok then s.submit t.queue addr else s
    let t1 := if ok then { t with fired := (t.fired + 1) % 65536 } else { t with missed := (t.missed + 1) % 65536 }
    let k := nextFiring t.time t.period s.ptp
    let t2 := if t.period = 0 then { t1 with en := false }
      else { t1 with missed := (t1.missed + (k - 1)) % 65536, time := (t.time + k * t.period) % 2 ^ 64 }
    { s1 with triggers := SMap.set s1.triggers e t2 }

/-- Evaluate the trigger table in ascending entry order, once a ref tick (16 R349). -/
def State.evalTriggers (s : State) : State :=
  if s.trigAt = s.ref + 1 then s
  else s.triggers.foldl (fun (s : State) x => s.triggerOne x.1 x.2) { s with trigAt := s.ref + 1 }

/-- TRIGGER_EVALUATE (16 R349). -/
def execTriggerEvaluate (s : State) : Res := .next s.evalTriggers

/-- A stream by number. -/
def State.stream (s : State) (n : Nat) : Stream := SMap.getD s.streams n Stream.reset

/-- Store a stream. -/
def State.setStream (s : State) (n : Nat) (x : Stream) : State := { s with streams := SMap.set s.streams n x }

/-- DL(q), the deadline of a sequence (16 R351). -/
def Stream.deadline (x : Stream) (q : Nat) : Nat := x.epoch + (q + 2 ^ 32 - x.seq0) % 2 ^ 32 * x.period

/-- The buffer of a sequence (16 R351). -/
def Stream.buffer (x : Stream) (q : Nat) : Nat := x.bufbase + x.bufsize * (q % x.nbuf)

/-- Commit(seq) of 16 R351: the stream after it and FRAMEC's result. -/
def Stream.commit (x : Stream) (q : Nat) : Stream × Nat :=
  if !x.en then (x, 3)
  else
    let ahead := (q + 2 ^ 32 - x.lastseq) % 2 ^ 32
    if ahead = 0 || ahead ≥ 2 ^ 31 then (x, 2)
    else
      let a := (q + 2 ^ 32 - x.nextseq) % 2 ^ 32
      if a ≥ 2 ^ 31 then ({ x with lastseq := q, src := q, have_ := true, latecnt := (x.latecnt + 1) % 2 ^ 32 }, 1)
      else if a ≥ x.nbuf then ({ x with lastseq := q, spoils := x.spoils ++ [(x.lastseq, q)] }, 0)
      else ({ x with lastseq := q, pend := insertNat q x.pend }, 0)

/-- The flags word of a record (16 R352). -/
def frameFlags (subst noframe hold stepped : Bool) (num : Nat) : Nat :=
  subst.toNat + 2 * noframe.toNat + 4 * hold.toNat + 8 * stepped.toNat + 2 ^ 32 * (num % 2 ^ 32)

/-- Publish one record of a stream: it is written once every record before it has been (16 R352). -/
def State.publishFrame (s : State) (n : Nat) (x : Stream) (q src addr dl : Nat) (subst noframe : Bool) : State :=
  let base := (x.ringbase + 32 * (x.pubcnt % x.ringn)) % 2 ^ 56
  let flags := frameFlags subst noframe s.ptpHoldover (s.ptpSteps != x.steps) x.pubcnt
  let rec_ := q % 2 ^ 32 + 2 ^ 32 * (src % 2 ^ 32) + 2 ^ 64 * (addr % 2 ^ 64) + 2 ^ 128 * (dl % 2 ^ 64) + 2 ^ 192 * flags
  s.setStream n { x with pubcnt := (x.pubcnt + 1) % 2 ^ 32, steps := s.ptpSteps, due := x.due ++ [(q, x.asid, base, rec_)] }

/-- The page of a record is written, or its miss was rejected: the device asks for it no more. -/
def State.pageOver (s : State) (asid va : Nat) : State :=
  { s with devDenied := s.devDenied.filter (· != (asid, va / 65536)), devMissed := s.devMissed.filter (· != (asid, va / 65536)) }

/-- Write the published records of a stream, the oldest first: bytes 0 to 0x17, then the word at 0x18. One whose page misses waits
for the pager; one that faults is lost (08 R194, 16 R352). -/
def State.writeDue (s : State) (n : Nat) : List (Nat × Nat × Nat × Nat) → State
  | [] => s
  | (q, asid, base, rec_) :: t =>
    let w := s.devWrite 0 asid base (leBytes rec_ 24)
    let x := s.stream n
    match w.1 with
    | .miss a v => s.devMiss a v 1
    | .fault _ => (((s.pageOver asid base).logEvent logFrame [n, q]).setStream n { x with fault := true, due := t }).writeDue n t
    | .ok _ =>
      let u := ((w.2.devWrite 0 asid (base + 24) (leBytes (rec_ / 2 ^ 192) 8)).2.pageOver asid base).setStream n { x with due := t }
      (if x.msie then u.raiseMsi x.msiv else u).writeDue n t

/-- Write what a stream has published (16 R352). -/
def State.writeFrames (s : State) (n : Nat) : State := s.writeDue n (s.stream n).due

/-- Is a deadline step due at this tick (16 R351)? -/
def State.frameDue (s : State) (x : Stream) : Bool := x.en && decide (x.deadline x.nextseq ≤ s.ptp) && x.stepAt != some s.ref

/-- Has a commit that went from one sequence to another passed a sequence over (16 R354)? -/
def passedOver (q : Nat) (r : Nat × Nat) : Bool :=
  let d := (q + 2 ^ 32 - r.1) % 2 ^ 32
  decide (1 ≤ d && d < (r.2 + 2 ^ 32 - r.1) % 2 ^ 32)

/-- The deadline step of a stream; a sequence that a commit NBUF or more places ahead passed over leaves an undefined record
(16 R351, R352, R354). -/
def State.frameStep (s : State) (n : Nat) : State :=
  let x := s.stream n
  if !s.frameDue x then s
  else
    let q := x.nextseq
    let x1 := { x with nextseq := (q + 1) % 2 ^ 32, pend := x.pend.filter (· != q), stepAt := some s.ref, spoils := x.spoils.filter (·.2 != q) }
    let spoiled := x.spoils.any (passedOver q)
    let dl := x.deadline q % 2 ^ 64
    let more := { x1 with subcnt := (x.subcnt + 1) % 2 ^ 32 }
    if x.pend.contains q then s.publishFrame n { x1 with src := q, have_ := true } q q (x.buffer q) dl false false
    else if spoiled then
      let d := s.draw
      let w (k : Nat) : Nat := (Config.freeWord d.1 k).toNat
      d.2.publishFrame n { x1 with subcnt := w 0 } q (w 1) (w 2 + 2 ^ 32 * w 3) dl (Config.freeBool d.1 0) (Config.freeBool d.1 1)
    else if x.have_ then s.publishFrame n more q x.src (x.buffer x.src) dl true false
    else s.publishFrame n more q q 0 dl true true

/-- FRAME_DEADLINE (16 R351). -/
def execFrameDeadline (stream : Nat) (s : State) : Res := .next ((s.frameStep stream).writeFrames stream)

/-- Do the fields of a stream pass the check of its enable (16 R350)? -/
def Stream.ok (x : Stream) : Bool :=
  decide (1 ≤ x.nbuf) && decide (x.nbuf ≤ 64) && decide (1 ≤ x.ringn) && decide (x.ringn ≤ 4096) && decide (1000 ≤ x.period) &&
    x.bufbase % 4096 == 0 && x.ringbase % 32 == 0

/-- The least sequence from SEQ0 upward whose deadline is not past (16 R350). -/
def Stream.firstSeq (x : Stream) (now : Nat) : Nat :=
  if now ≤ x.epoch then x.seq0 else (x.seq0 + (now - x.epoch + x.period - 1) / x.period) % 2 ^ 32

/-- EN := 1 of a stream whose EN is 0: the check, and the start (16 R350). The first record after an enable has no record before it:
its STEPPED says whether the time was stepped since the enable (DESIGN CHOICE: log 40). -/
def State.enableStream (s : State) (stream : Nat) : State :=
  let x := s.stream stream
  if x.en then s
  else if !x.ok then s.setStream stream { x with cfgerr := true }
  else
    let q := x.firstSeq s.ptp
    s.setStream stream
      { x with en := true, cfgerr := false, fault := false, nextseq := q, lastseq := (q + 2 ^ 32 - 1) % 2 ^ 32, pubcnt := 0,
               subcnt := 0, latecnt := 0, have_ := false, pend := [], steps := s.ptpSteps, stepAt := none, spoils := [] }

/-- EN := 0 of a stream (16 R350). -/
def State.disableStream (s : State) (stream : Nat) : State :=
  if (s.stream stream).en then s.setStream stream { s.stream stream with en := false } else s

/-- STREAM_ENABLE (16 R350). -/
def execStreamEnable (stream : Nat) (s : State) : Res :=
  .next (if stream ≥ 16 || !bit (s.barWord 0x08) 0 then s else s.enableStream stream)

/-- STREAM_DISABLE (16 R350). -/
def execStreamDisable (stream : Nat) (s : State) : Res := .next (s.disableStream stream)

/-- The time's status word (13 R331); `base` is the number of steps before the reader's launch. -/
def State.ptpStat (s : State) (base : Nat) : W32 :=
  BitVec.ofNat 32 (s.ptpLocked.toNat + 2 * s.ptpHoldover.toNat + 4 * (s.ptpSteps != base).toNat)

/-- PTPRD (13 R331). -/
def execPtprd (f : RF) (s : State) : Res :=
  let base := match s.launchOf s.cw.launch with | some l => l.ptpSteps | none => 0
  .next (if f.sub.val = 0 then s.wr64 f.dst (BitVec.ofNat 64 s.ptp) else s.wrS f.dst (s.ptpStat base)).slotDone

/-- FRAMEC (13 R332, 16 R351): waits for the path's accesses, releases at SYSTEM scope, and commits; a commit that comes after the
deadline step of its ref tick is of the next tick. -/
def execFramec (f : FramecF) (s : State) : Res :=
  let n := (s.rdS f.stream).toNat
  let wait := s.unsettled fun a => a.kind != AKind.joinSub
  .next (if !s.cw.pa.waited && !wait.isEmpty then s.park (.accesses wait)
    else if (s.stream n).en && (s.stream n).stepAt == some s.ref then s.park (.tick (s.ref + 1))
    else
      let s1 := s.releaseAt s.cw.core s.cw.launch 5 (s.multiOf s.cw.block)
      if n ≥ 16 then (s1.wrS f.dst 3).slotDone
      else
        let r := (s1.stream n).commit (s.rdS f.seq).toNat
        ((if r.2 = 0 || r.2 = 1 then s1.setStream n r.1 else s1).wrS f.dst (BitVec.ofNat 32 r.2)).slotDone)

/-- The snapshot status word (20 R429). -/
def State.snapBusy (s : State) : Bool := bit (s.barWord (barSnap + 0x18)) 0

/-- A firing latches the snapshot registers and every counter at one ref tick (20 R429). -/
def State.snapFire (s : State) (src tag : Nat) : State :=
  let w := s.barWord (barSnap + 0x18)
  let seq := (fld w 32 32 + 1) % 2 ^ 32
  let s1 := (((s.setBar (barSnap + 0x18) (1 + 2 * src + 2 ^ 16 * (tag % 65536) + 2 ^ 32 * seq)).setBar (barSnap + 0x20) s.ref).setBar
    (barSnap + 0x28) s.ptp).setBar (barSnap + 0x30) (s.barWord barPSTAT)
  s1.bar.foldl (fun (s : State) x =>
    if 0x100000 ≤ x.1 && x.1 < 0x142000 && x.1 % 0x20 = 8 then s.setBar (x.1 + 8) x.2 else s) s1

/-- Has a firing latched in this ref tick: one is all a tick has (20 R429)? -/
def State.snapFired (s : State) : Bool := fld (s.barWord (barSnap + 0x18)) 1 2 != 0 && s.barWord (barSnap + 0x20) == s.ref % 2 ^ 64

/-- SNAP (13 R333): fires 2 to 4 ref ticks later, a free choice. -/
def execSnap (f : SnapF) (s : State) : Res :=
  .next (if !bit (s.barWord barSnap) 0 || s.snapBusy then (s.wrS f.dst 0).slotDone
    else
      let d := s.draw
      d.2.park (.snap f.dst ((s.rdS f.tag).toNat % 65536) (s.ref + 2 + (Config.freeWord d.1 0).toNat % 3)))

/-- SNAPGO's firing takes the place of a PTP firing of the same ref tick, which has not happened then: PTPEN stays set, and SEQ
counts one (20 R429; DEDUCED: log 42). -/
def State.snapTake (s : State) (tag : Nat) : State :=
  let w := s.barWord (barSnap + 0x18)
  ((s.setBar barSnap (s.barWord barSnap % 2 + 2)).setBar (barSnap + 0x18) (fld w 0 32 + 2 ^ 32 * ((fld w 32 32 + 2 ^ 32 - 1) % 2 ^ 32))).snapFire
    1 tag

/-- SNAPGO (20 R429): without effect while BUSY is 1, but that it comes before a PTP firing of its own tick. -/
def execSnapgo (tag : Nat) (s : State) : Res :=
  .next (if !s.isReady then s
    else if s.snapFired then (if fld (s.barWord (barSnap + 0x18)) 1 2 = 2 then s.snapTake tag else s)
    else if s.snapBusy then s
    else s.snapFire 1 tag)

/-- May the PTP source fire (20 R429)? -/
def State.snapPtpDue (s : State) : Bool :=
  bit (s.barWord barSnap) 1 && !s.snapBusy && !s.snapFired && decide (s.barWord (barSnap + 8) ≤ s.ptp) && decide (s.snapClear ≤ s.ref)

/-- The PTP firing, which clears PTPEN (20 R429). -/
def State.snapPtp (s : State) : State :=
  if s.snapPtpDue then (s.setBar barSnap (s.barWord barSnap % 2)).snapFire 2 0 else s

/-- SNAP_PTP_FIRE (20 R429). -/
def execSnapPtpFire (s : State) : Res := .next s.snapPtp

/-- SNAP_BUSY_CLEAR (20 R429). -/
def execSnapBusyClear (s : State) : Res :=
  .next (if s.snapBusy then
    { (s.setBar (barSnap + 0x18) (s.barWord (barSnap + 0x18) - 1)) with snapClear := s.ref + 1 } else s)

/-- The SNAP that a path waits in, where its tick has come (13 R333). -/
def State.snapping (s : State) (p : PathSt) : Option (Operand × Nat) :=
  match p.phase with
  | .parked (.snap d tag at_) => if at_ ≤ s.ref then some (d, tag) else none
  | _ => none

/-- The SNAPs whose tick this is: one fires where the trigger is free, the others return 0 (13 R333, 20 R429). -/
def State.snapTick (s : State) : State :=
  let ps : List (Nat × Bool) := s.allWaves.flatMap fun w =>
    ([(w.uid, false), (w.uid, true)]).filter fun x => (s.snapping (w.path x.2)).isSome
  if ps.isEmpty then s
  else
    let d := s.draw
    let win := if s.snapBusy || s.snapFired then ps.length else (Config.freeWord d.1 0).toNat % ps.length
    (ps.zipIdx).foldl (fun (s : State) x =>
      let s1 := s.focus x.1.1 x.1.2
      match s1.snapping s1.cw.pa with
      | some (dst, tag) =>
        let s2 := if x.2 = win then s1.snapFire 3 tag else s1
        (s2.wrS dst (if x.2 = win then 1 else 0)).finishSlot
      | none => s1) d.2

/-- STEPTHR in nanoseconds (20 R432). -/
def State.stepThr (s : State) : Nat := fld (s.barWord barPTPCFG) 16 16 * 1000

/-- PTP_MESSAGE_RECEIVE: the servo has measured an offset of the time from the master, and steps or slews it (16 R347, 20 R432). -/
def execPtpMessageReceive (offset : Int) (s : State) : Res :=
  let s1 := { s with ptpLocked := true, ptpHoldover := false, ptpOffset := offset }
  .next (if offset.natAbs > s.stepThr then { s1 with ptpStepBy := -offset, ptpSlew := 0 } else { s1 with ptpStepBy := 0, ptpSlew := -offset })

/-- LOSS_OF_LOCK (16 R347). -/
def execLossOfLock (s : State) : Res :=
  .next (if s.ptpLocked then { s with ptpLocked := false, ptpHoldover := true, ptpSlew := 0, ptpStepBy := 0 } else s)

/-- The advance of the time at one ref tick (16 R347): 10 ns, 9 or 11 ns on at most one tick in 1,000 while LOCKED, or a step.
R347 bounds how often a tick is changed and does not fix it: the model changes one every 1,000 ref ticks, from ref 1000 on, until the
offset is worked off (DESIGN CHOICE: log 41). -/
def State.ptpTick (s : State) : State :=
  if s.ptpStepBy ≠ 0 then
    { s with ptp := ((s.ptp + 10 + s.ptpStepBy) % 2 ^ 64).toNat, ptpStepBy := 0, ptpSteps := s.ptpSteps + 1 }
  else if s.ptpLocked && s.ptpSlew ≠ 0 && s.ptpSlewAt + 1000 ≤ s.ref then
    let up := decide (s.ptpSlew > 0)
    { s with ptp := (s.ptp + if up then 11 else 9) % 2 ^ 64, ptpSlew := if up then s.ptpSlew - 1 else s.ptpSlew + 1, ptpSlewAt := s.ref }
  else { s with ptp := (s.ptp + 10) % 2 ^ 64 }

end Sys2Proof.Machine
end

