-- ==== Sys2Proof/Machine/Launching.lean ====
section
/-! DEFINITION. Launch queues, the launch record and its check, dependences, and the end of a launch (04 R87-R93; 07 R169; 08 R200;
13 R326; 18 R360-R366; 20 R416, R417). -/

namespace Sys2Proof.Machine

open Sys2Proof (Operand W32 W64 Byte Mask SMap SMap.get? SMap.set SMap.getD SMap.modify SMap.del)

/-- DOORBELL (20 R416). -/
def execDoorbell (fn queue addr : Nat) (s : State) : Res :=
  .next (if s.isReady && (s.queue queue).fn == fn && s.submitOk queue addr then s.submit queue addr else s)

/-- QCTL_WRITE: from the PF only; QFN changes only while QEN reads 0 (20 R413, R416). -/
def execQctlWrite (fn queue value : Nat) (s : State) : Res :=
  .next (if !s.isReady || fn ≠ 0 || queue ≥ 64 then s
    else s.modQueue queue fun q =>
      { q with ceil := fld value 0 2, en := bit value 2, fn := if q.en then q.fn else fld value 8 6 })

/-- STFAULT_CLEAR: from the PF or the queue's owner (20 R413, R416). -/
def execStfaultClear (fn queue value : Nat) (s : State) : Res :=
  .next (if s.isReady && (fn == 0 || (s.queue queue).fn == fn) && decide (queue < 64) && bit value 13 then
    s.modQueue queue fun q => { q with stfault := false } else s)

/-- The launch record in 256 bytes, as a number (04 R87, 18 R361). -/
def LRec.parse (x : Nat) : LRec :=
  let f (off lo n : Nat) : Nat := fld x (8 * off + lo) n
  { codebase := f 0 0 64, codesize := f 8 0 32, entry := f 8 32 32, trapentry := f 0x10 0 32, argsize := f 0x10 32 32, argptr := f 0x18 0 64
    gridx := f 0x20 0 16, gridy := f 0x20 16 16, gridz := f 0x20 32 16, threads := f 0x28 0 15, stackregs := f 0x28 16 9
    wincap := f 0x28 32 7, rm := f 0x28 40 3, ftz := bit x (8 * 0x28 + 43), wpk := bit x (8 * 0x28 + 44), debug := bit x (8 * 0x28 + 45)
    privbytes := f 0x30 0 32, spillbytes := f 0x30 32 32, prvbase := f 0x38 0 64, rectab := f 0x40 0 64, reccount := f 0x48 0 8
    circcount := f 0x48 8 8, asid := f 0x48 32 16, circtab := f 0x50 0 64, statusptr := f 0x58 0 64
    slots := (List.range 8).map fun i => f (0x60 + 4 * i) 0 32
    spdbytes := f 0x80 0 32, tiles := f 0x80 32 7, acckib := f 0x80 48 16
    queue := f 0x88 0 6, prio := f 0x88 6 2, place := f 0x88 8 2, dies := f 0x88 10 4, stagger := f 0x88 16 16, gang := bit x (8 * 0x88 + 32)
    prank := f 0x88 33 6, gpkgs := f 0x88 39 6, gid := f 0x88 45 16, deps := (List.range 4).map fun i => f (0x90 + 8 * i) 0 64
    ctxsave := f 0xB0 0 64 }

/-- Is a reserved field of the record nonzero (04 R87, 18 R361)? -/
def reservedSet (x : Nat) : Bool :=
  let f (off lo n : Nat) : Bool := fld x (8 * off + lo) n != 0
  f 0x20 48 16 || f 0x28 15 1 || f 0x28 25 7 || f 0x28 39 1 || f 0x28 46 18 || f 0x48 16 16 || f 0x48 48 16 || f 0x80 39 9 ||
    f 0x88 14 2 || f 0x88 61 3 || f 0xB8 0 576

/-- Is a format slot's descriptor wrong (07 R169)? -/
def slotBad (d : Nat) : Bool :=
  d / 2 ^ 11 ≠ 0 || slotScale d > 1 || (slotEnc d ≠ 0 && !encAssigned (slotEnc d)) ||
    (bit d 10 && slotEnc d != encFp16 && slotEnc d != encBf16) || (slotEnc d = 0 && d ≠ 0) || (isCbEnc (slotEnc d) && bit d 9)

/-- Blocks of the grid. -/
def LRec.blocks (r : LRec) : Nat := r.gridx * r.gridy * r.gridz

/-- Does a field of the record lie outside its range (04 R87, R88; 07 R169; 08 R200; 10 R232; 18 R361, R363, R370)? -/
def LRec.bad (r : LRec) : Bool :=
  let grid (n : Nat) : Bool := decide (1 ≤ n && n ≤ 65535)
  r.codebase % 256 ≠ 0 || r.codebase / 2 ^ 56 ≠ 0 || r.codesize % 8 ≠ 0 || r.codesize < 16 ||
    r.entry % 8 ≠ 0 || r.entry ≥ r.codesize || (r.trapentry ≠ 0xFFFFFFFF && (r.trapentry % 8 ≠ 0 || r.trapentry ≥ r.codesize)) ||
    r.argsize % 4 ≠ 0 || r.argsize > 4096 || r.argptr % 8 ≠ 0 || !grid r.gridx || !grid r.gridy || !grid r.gridz ||
    r.threads = 0 || r.threads > 16384 || r.stackregs < 32 || r.stackregs > 256 || r.stackregs % 16 ≠ 0 ||
    r.wincap < 8 || r.wincap > 64 || r.wincap > r.stackregs || r.rm > 4 || r.privbytes % 16 ≠ 0 || r.spillbytes % 16 ≠ 0 ||
    r.prvbase % 4096 ≠ 0 || r.rectab % 8 ≠ 0 || r.statusptr % 32 ≠ 0 || r.slots.any slotBad || r.tiles > 64 || r.acckib > 256 ||
    r.acckib % 16 ≠ 0 || r.place = 3 || (!r.gang && (r.prank ≠ 0 || r.gpkgs ≠ 0 || r.gid ≠ 0)) || (r.gang && r.blocks > 64) ||
    r.deps.any fun d => d / 2 ^ 56 ≠ 0 || d % 4 ≠ 0

/-- The check of the circle table (04 R93). -/
def circlesBad (nwaves : Nat) (cs : List Nat) : Bool :=
  cs.any (fun m => m / 2 ^ nwaves ≠ 0) || (List.range nwaves).any fun w => decide ((cs.filter fun m => bit m w).length > 4)

/-- Blocks of the launch that an idle cluster holds. Two cores' shares of one block never fit one core; where the smaller share of a
block on two cores takes half a core, two blocks' smaller shares go to one (18 R368, R371). -/
def LRec.perCluster (r : LRec) : Nat :=
  let share := (r.waves + r.spread - 1) / r.spread
  let mem := min (if r.spdRound = 0 then 512 else Config.spdSize / r.spdRound)
    (min (if r.tiles = 0 then 512 else 64 / r.tiles) (if r.acckib = 0 then 512 else 256 / r.acckib))
  if r.place = 0 && r.spread = 2 then
    ((List.range 9).map fun h => min (h * min (r.perCore / share) mem) ((8 - h) * min (r.perCore / (r.waves / 2)) mem)).foldl max 0
  else 8 / r.spread * min (r.perCore / share) mem

/-- Dies on which blocks may run. -/
def LRec.dieCount (r : LRec) : Nat := ((List.range Config.dies).filter r.dieOk).length

/-- The residency stage (04 R88; 18 R368, R371). -/
def LRec.tooBig (r : LRec) : Bool := !r.holdable || (r.gang && decide (14 * r.dieCount * r.perCluster < r.blocks))

/-- The check of the function table (20 R417). -/
def State.fnOk (s : State) (fn asid : Nat) : Bool :=
  let e := s.barWord (barFn + 8 * fn)
  bit e 32 && decide (fld e 0 16 ≤ asid) && decide (asid ≤ fld e 16 16)

/-- The status block's bytes from 0x04 on (04 R89, 13 R326); without a wave error the E fields are undefined. -/
def Launch.statusBytes (l : Launch) (seed : Nat) : List Byte :=
  let e : LErrRec := l.err.getD
    { cause := (Config.freeWord seed 0).toNat, block := (Config.freeWord seed 1).toNat, wave := (Config.freeWord seed 2).toNat,
      clause := (Config.freeWord seed 3).toNat, slot := (Config.freeWord seed 4).toNat }
  leBytes l.lerr 4 ++ leBytes (min l.cancelled 65535 + 65536 * min l.joinLost 65535) 4 ++ leBytes 0 4 ++
    leBytes (e.cause % 256 + 256 * (e.block % 2 ^ 24)) 4 ++ leBytes (e.wave % 512) 4 ++ leBytes e.clause 4 ++ leBytes (e.slot % 32) 4

/-- The completion word (18 R364). -/
def Launch.completion (l : Launch) : Nat := if l.lerr = 0 then 1 else 2 ^ 31 + l.lerr

/-- The launch is over for its queue, and the dependences are to be read (18 R363). -/
def State.dropLaunch (s : State) (id : Nat) : State :=
  { s with depsDue := true, launches := SMap.del s.launches id, rotation := s.rotation.filter fun x => x.1 / 4 != id }

/-- A status-block write that cannot be made (18 R365). -/
def State.statusFault (s : State) (l : Launch) (code : Nat) : State :=
  (s.modQueue l.queue fun q => { q with stfault := true }).logEvent logStatus [l.queue, l.recAddr, code]

/-- Write a launch's status, LERR before COMPLETION, and end the launch; a page miss waits (09 R229; 18 R364, R365). -/
def State.finishLaunch (s : State) (l : Launch) : State :=
  let r := l.rec_
  if l.silent then s.dropLaunch l.id
  else if l.statusless || r.statusptr % 32 ≠ 0 then (s.statusFault l 0).dropLaunch l.id
  else
    let d := s.draw
    let s1 := d.2.writeBackAll false fun x => x.ofLaunch r.asid l.id
    match s1.devWrite 0 r.asid (r.statusptr + 4) (l.statusBytes d.1) with
    | (.miss a v, _) => s.devMiss a v 1
    | (.fault c, _) => ((s1.statusFault l c).dropLaunch l.id).devClear r.asid
    | (.ok _, t) =>
      match t.devWrite 0 r.asid r.statusptr (leBytes l.completion 4) with
      | (.miss a v, _) => s.devMiss a v 1
      | (.fault c, _) => ((t.statusFault l c).dropLaunch l.id).devClear r.asid
      | (.ok _, u) => (u.dropLaunch l.id).devClear r.asid

/-- Reject a launch: no block of it starts and its status is written (04 R88; 18 R363, R364, R371). -/
def State.rejectLaunch (s : State) (id code : Nat) : State :=
  let s1 := (s.abortLaunch id).modLaunch id fun l => { l with lerr := if l.lerr = 0 then code else l.lerr }
  match s1.launchOf id with
  | some l => s1.finishLaunch l
  | none => s1

/-- Is an accepted launch still being checked (04 R88, 18 R362)? -/
def State.inCheck (s : State) (id : Nat) : Bool := s.queues.any fun q => q.2.taking == some id

/-- Has the turn of a gang ended with every package's reservation: its membership is fixed (18 R371, 19 R408)? -/
def Gang.begun (g : Gang) : Bool := decide (0 < g.pkgs) && !g.turn && decide (g.pkgs ≤ g.reserved.length)

/-- The launches of this package that have asked for a gang's turn (18 R370, R371). -/
def State.gangLaunches (s : State) (gid : Nat) : List Launch :=
  (s.launches.map (·.2)).filter fun l => l.rec_.gang && l.gangAsked && l.rec_.gangKey == gid && !l.aborted

/-- This package's share of a gang: what has asked for its turn, or else the first launch accepted that will (18 R370). -/
def State.gangShare (s : State) (gid : Nat) : List Launch :=
  let asked := s.gangLaunches gid
  let first (l m : Launch) : Bool := decide (l.ordinal ≤ m.ordinal)
  let mine := (s.launches.map (·.2)).filter fun l => l.rec_.gang && l.rec_.gangKey == gid && !l.aborted
  if asked.isEmpty then mine.filter fun l => mine.all (first l) else asked

/-- The gang's launches on this package complete with an error, and the pool forgets the gang: one that is abandoned has those that
asked, one that is rejected every share (18 R370, R371). -/
def State.failGang (s : State) (gid code : Nat) : State :=
  (if code = 7 then s.gangLaunches gid else s.gangShare gid).foldl (fun (s : State) l => s.rejectLaunch l.id code)
    { s with gangs := SMap.del s.gangs gid }

/-- A share of a gang that no package can hold ends the gang that waits for it (18 R371). -/
def State.failShare (s : State) (l : Launch) : State :=
  let gid := l.rec_.gangKey
  if l.rec_.gang && !(s.gangOf gid).begun && (s.gangLaunches gid).isEmpty then { s with gangs := SMap.del s.gangs gid } else s

/-- Read one unsatisfied dependence of a launch that has passed its check (18 R363). -/
def State.readDep (s : State) (id dep : Nat) : State :=
  match s.launchOf id with
  | none => s
  | some l =>
    let a := (l.rec_.deps[dep]?).getD 0 % 2 ^ 56
    if l.aborted || s.inCheck id || (l.depsMet[dep]?).getD true then s
    else
      match s.devRead 0 l.rec_.asid a 4 with
      | (.miss x v, _) => s.devMiss x v 0
      | (.fault _, s1) => (s1.devClear l.rec_.asid).rejectLaunch id 1
      | (.ok b, s1) =>
        if bytesNat b = 0 then s1 else s1.modLaunch id fun l => { l with depsMet := l.depsMet.set dep true }

/-- Read every unsatisfied dependence of a launch. -/
def State.readDeps (s : State) (id : Nat) : State := (List.range 4).foldl (fun (s : State) k => s.readDep id k) s

/-- Read every unsatisfied dependence of every launch. -/
def State.readAllDeps (s : State) : State := (s.launches.map (·.1)).foldl (fun (s : State) id => s.readDeps id) s

/-- After a turn in which a launch has completed, every unsatisfied dependence is read; a read that rejects a launch is a completion
again (18 R363). `n` bounds the launches that go. -/
def State.settleDeps (s : State) : Nat → State
  | 0 => s
  | n + 1 => if s.depsDue then { s with depsDue := false }.readAllDeps.settleDeps n else s

/-- DEPENDENCE_READ (18 R363). -/
def execDependenceRead (launch dep : Nat) (s : State) : Res := .next (s.readDep launch dep)

/-- Launches of a queue that it has accepted and that have not completed (18 R362). -/
def State.running (s : State) (q : Nat) : Nat := (s.launches.map (·.2)).countP fun (l : Launch) => l.queue == q

/-- A new launch from a record (18 R361, R362); a dependence with address 0 is none. -/
def newLaunch (id : Nat) (r : LRec) (q addr ceil ordinal steps : Nat) : Launch :=
  { id := id, rec_ := r, queue := q, recAddr := addr, prio := min r.prio ceil, args := [], recs := [], circles := [],
    depsMet := r.deps.map fun d => d % 2 ^ 56 == 0, ordinal := ordinal, placed := 0, exited := 0, lerr := 0, err := none,
    aborted := false, cancelled := 0, joinLost := 0, ptpSteps := steps, silent := false, statusless := false, gangAsked := false, waiting := none,
    preempts := false, starts := [] }

/-- Read `count` entries of `size` bytes, as numbers. -/
def entries (size : Nat) : Nat → List Byte → List Nat
  | 0, _ => []
  | n + 1, b => bytesNat (b.take size) :: entries size n (b.drop size)

/-- Read number `k` of the acceptance and check under way in a queue: each is made once (18 R362). -/
def State.readOnce (s : State) (q k asid va n : Nat) : DevIo × State :=
  match (s.queue q).got[k]? with
  | some b => (.ok b, s)
  | none =>
    match s.devRead 0 asid va n with
    | (.ok b, t) => (.ok b, t.modQueue q fun x => { x with got := x.got ++ [b] })
    | r => r

/-- The tables of a launch: arguments, records, circles; or what stopped the reading (18 R362). -/
def State.readTables (s : State) (q : Nat) (r : LRec) : DevIo × State × List Byte × List Nat × List Nat :=
  match s.readOnce q 1 r.asid r.argptr r.argsize with
  | (.ok a, s1) =>
    match s1.readOnce q 2 r.asid r.rectab (40 * r.reccount) with
    | (.ok b, s2) =>
      match s2.readOnce q 3 r.asid r.circtab (64 * r.circcount) with
      | (.ok c, s3) => (.ok [], s3, a, entries 40 r.reccount b, entries 64 r.circcount c)
      | (e, s3) => (e, s3, [], [], [])
    | (e, s2) => (e, s2, [], [], [])
  | (e, s1) => (e, s1, [], [], [])

/-- The record is accepted: the launch exists from here on, and its queue checks it (18 R362). -/
def State.enroll (s : State) (q : Nat) (l : Launch) : State :=
  { (s.modQueue q fun x => { x with pending := x.pending.drop 1, taking := some l.id }) with
    launches := SMap.set s.launches l.id l, nextId := s.nextId + 1, accepted := s.accepted + 1 }

/-- The check of the record a queue has accepted is over (18 R362). -/
def State.endCheck (s : State) (q : Nat) : State := s.modQueue q fun x => { x with got := [], taking := none }

/-- A launch fails the check of 04 R88 with an error code (18 R362). -/
def State.failCheck (s : State) (q : Nat) (l : Launch) (code : Nat) : State := ((s.endCheck q).devClear l.rec_.asid).rejectLaunch l.id code

/-- The check goes on with the tables of the launch, stage by stage; a page miss waits (04 R88; 18 R362). -/
def State.checkTables (s : State) (q : Nat) (l : Launch) : State :=
  match s.readTables q l.rec_ with
  | (.miss a v, u, _) => u.devMiss a v 0
  | (.fault _, u, _) => u.failCheck q l 1
  | (.ok _, u, args, recs, circles) =>
    if circlesBad l.rec_.waves circles then u.failCheck q l 3
    else if l.rec_.tooBig then (u.failCheck q l 2).failShare l
    else (((u.endCheck q).devClear l.rec_.asid).modLaunch l.id fun l => { l with args := args, recs := recs, circles := circles }).readDeps l.id

/-- LAUNCH_ACCEPT (04 R88; 18 R362): a queue reads its oldest record once, which accepts it, and checks it at once; where a page miss
has stopped the check, it goes on. -/
def State.accept (s : State) (q : Nat) : State :=
  let x := s.queue q
  match x.taking with
  | some id =>
    match s.launchOf id with
    | some l => if l.aborted then s.endCheck q else s.checkTables q l
    | none => s.endCheck q
  | none =>
    match x.pending with
    | [] => s
    | addr :: _ =>
      if !x.en || !s.trv || s.running q ≥ 8 then s
      else
        let asid := fld (s.barWord (barFn + 8 * x.fn)) 0 16
        match s.readOnce q 0 asid addr 256 with
        | (.miss a v, t) => t.devMiss a v 0
        | (.fault _, t) =>
          let l := { newLaunch s.nextId LRec.unset q addr x.ceil s.accepted s.ptpSteps with statusless := true }
          ((t.enroll q l).devClear asid).failCheck q l 1
        | (.ok b, t) =>
          let w := bytesNat b
          let l := newLaunch s.nextId (LRec.parse w) q addr x.ceil s.accepted s.ptpSteps
          let s1 := (t.enroll q l).devClear asid
          if reservedSet w || l.rec_.bad || l.rec_.queue ≠ q || !s.fnOk x.fn l.rec_.asid then s1.failCheck q l 1 else s1.checkTables q l

/-- LAUNCH_ACCEPT (18 R362). -/
def execLaunchAccept (queue : Nat) (s : State) : Res := .next (s.accept queue)

/-- Has every block exited, every record retired and every task wave ended (13 R319; 18 R366)? -/
def State.launchOver (s : State) (l : Launch) : Bool :=
  (l.aborted || l.exited == l.rec_.blocks) && !(s.blocks.any fun b => b.2.launch == l.id) &&
    !(s.tasks.any fun t => t.launch == l.id) && !(s.accs.any fun a => a.launch == l.id)

/-- LAUNCH_COMPLETE (18 R364, R365); every turn in which a launch completes ends with a read of the dependences (18 R363). -/
def execLaunchComplete (launch : Nat) (s : State) : Res :=
  .next (match s.launchOf launch with
    | none => s
    | some l => if s.launchOver l then s.finishLaunch l else s)

end Sys2Proof.Machine
end

