-- ==== Sys2Proof/Machine/Placing.lean ====
section
/-! DEFINITION. The distributor: placing, starting and ending blocks, gangs, and pre-emption by swap and by context save
(04 R105-R108; 09 R229; 10 R275, R276; 11 R277; 13 R326, R329; 18 R366-R372, R383-R386). -/

namespace Sys2Proof.Machine

open Sys2Proof (Operand W32 W64 Byte Mask SMap SMap.get? SMap.set SMap.getD SMap.modify SMap.del)
open Sys2Proof.Config (dieOf partOf)

/-- Does a launch still have blocks to place? -/
def Launch.hasMore (l : Launch) : Bool := !l.aborted && decide (l.placed < l.rec_.blocks)

/-- Is a launch ready to place (18 R367)? -/
def State.readyToPlace (s : State) (l : Launch) : Bool :=
  l.hasMore && !s.inCheck l.id && l.depsMet.all (· == true) &&
    (s.launches.map (·.2)).all fun m => m.queue != l.queue || decide (m.ordinal ≥ l.ordinal) || !m.hasMore

/-- Is a launch placing: ready, and for a gang with the turn (18 R367, R371)? -/
def State.placing (s : State) (l : Launch) : Bool := s.readyToPlace l && (!l.rec_.gang || (l.gangAsked && (s.gangOf l.rec_.gangKey).turn))

/-- A package asks for a gang's turn; unequal B or SPDBYTES, or a PRANK presented twice, rejects the gang (18 R370, R371). An ask
that finds the gang running is of the gang that comes after it (19 R408). -/
def State.askTurn (s : State) (gid prank pkgid blocks spd : Nat) : State :=
  let g := s.gangOf gid
  if g.begun then s.modGang gid fun g => { g with late := g.late ++ [(prank, pkgid, blocks, spd)] }
  else if !g.asked.isEmpty && (g.asked.contains prank || g.blocks ≠ blocks || g.spd ≠ spd) then s.failGang gid 1
  else
    let pkgs := gid % 64 + 1
    s.modGang gid fun g =>
      { g with size := pkgs * blocks, pkgs := pkgs, blocks := blocks, spd := spd, asked := insertNat prank g.asked,
               owners := g.owners ++ [(prank, pkgid)], firstAsk := if g.asked.isEmpty then s.ref else g.firstAsk, lastAsk := s.ref }

/-- This package's identity in the pool (19 R395, R410). -/
def State.pkgid (s : State) : Nat := fld (s.barWord 0x300000) 0 12

/-- The packages whose gang launches are ready ask for the gang's turn (18 R371), once no gang of the number runs (19 R408). -/
def State.askGangs (s : State) : State :=
  (s.launches.map (·.1)).foldl (fun (s : State) id =>
    match s.launchOf id with
    | none => s
    | some l =>
      let r := l.rec_
      if !r.gang || l.gangAsked || !s.readyToPlace l || (s.gangOf r.gangKey).begun then s
      else (s.modLaunch id fun l => { l with gangAsked := true }).askTurn r.gangKey r.prank s.pkgid r.blocks r.spdbytes) s

/-- Note since when the next block of each placing launch has waited for room (18 R383). -/
def State.noteWaiting (s : State) : State :=
  { s with launches := s.launches.map fun (x : Nat × Launch) =>
      (x.1, { x.2 with waiting := if s.placing x.2 && !s.anyRoom x.2.rec_ then some (x.2.waiting.getD s.ref) else none }) }

/-- May a launch place a block on a die now: no placing launch of its priority is ahead of it, and no launch of a higher
priority waits for room on that die or could place (18 R367)? -/
def State.turnOf (s : State) (l : Launch) (die : Nat) : Bool :=
  (s.launches.map (·.2)).all fun m =>
    m.id == l.id || !s.placing m || decide (m.prio < l.prio) || (m.prio == l.prio && decide (m.ordinal > l.ordinal)) ||
      (decide (m.prio > l.prio) && !s.anyRoom m.rec_ && !m.rec_.dieOk die)

/-- Does a launch of higher priority wait for room, so that no block of this one starts on a die (18 R367)? -/
def State.heldUp (s : State) (l : Launch) (die : Nat) : Bool :=
  (s.launches.map (·.2)).any fun m => m.id != l.id && s.placing m && decide (m.prio > l.prio) && !s.anyRoom m.rec_ && m.rec_.dieOk die

/-- The next cluster of a launch's rotation on a die (18 R369). -/
def State.rotationOf (s : State) (l : Launch) (die : Nat) : Nat := SMap.getD s.rotation (l.id * 4 + die) (l.ordinal % 14)

/-- Does the rotation of a staggered launch allow a cluster: those it passes over have no room (18 R369)? Stagger does not apply to
members of a gang (18 R371). -/
def State.rotationOk (s : State) (l : Launch) (cl : Nat) : Bool :=
  let die := cl / 14
  let from_ := s.rotationOf l die
  l.rec_.stagger = 0 || l.rec_.gang ||
    (List.range ((cl % 14 + 14 - from_) % 14)).all fun k => !s.clusterRoom l.rec_ false (die * 14 + (from_ + k) % 14)

/-- A new block of a launch at places, held in the bank named by `other`: the active one, or the shadow one. -/
def State.newBlock (s : State) (l : Launch) (places : List Nat) (other : Bool) : Block :=
  let cs := l.rec_.coresOf places
  { id := s.nextId, launch := l.id, index := l.placed, isTask := false, cores := cs, slots := places,
    banks := cs.map fun c => s.bankOf c != other, saved := false, phase := .placed, nwaves := l.rec_.waves, ended := [], circles := [],
    attached := false, arriving := false, detached := false }

/-- List a placed block; its launch has placed one more (18 R367). -/
def State.listBlock (s : State) (l : Launch) (b : Block) : State :=
  let cl := b.cores.headD 0 / 8
  let s1 := { s with
    blocks := SMap.set s.blocks b.id b, nextId := s.nextId + 1
    rotation := SMap.set s.rotation (l.id * 4 + cl / 14) ((cl % 14 + 1) % 14) }
  s1.modLaunch l.id fun l => { l with placed := l.placed + 1, waiting := none, preempts := false }

/-- May the next block of a launch go to these places now (18 R367-R369)? -/
def State.mayPlace (s : State) (l : Launch) (places : List Nat) : Bool :=
  let c0 := places.headD 0 / 96
  s.placing l && l.rec_.formOk places && s.placesFit l.rec_ false places && s.turnOf l (dieOf c0) && s.rotationOk l (c0 / 8) &&
    !(l.rec_.coresOf places).any s.swapping

/-- BLOCK_PLACE (18 R367, R368). -/
def execBlockPlace (launch : Nat) (places : List Nat) (s : State) : Res :=
  .next (match s.launchOf launch with
    | none => s
    | some l =>
      if s.mayPlace l places then
        (s.listBlock l (s.newBlock l places false)).askGangs
      else s)

/-- The waves of a block start (04 R92; 06 R157; 09 R229): in the active bank, or in the shadow bank before a swap. -/
def State.startBlock (s : State) (b : Block) : State :=
  let r := s.lrecOf b.launch
  let s1 := b.cores.foldl (fun (s : State) c => s.copyArgs c b.launch (b.bankOn c)) s
  let s2 := (b.slots.zipIdx).foldl (fun (s : State) x =>
    let core := x.1 / 96
    let bank := b.bankOn core
    let live := r.liveLanes x.2
    let w := startWave r s.nextId core (x.1 % 96) b.launch b.id x.2 s.fresh s.clk
      (if bank == s.bankOf core then .active else .shadow) bank live r.entry none
    { ((s.addWave w).newSlice w) with nextId := s.nextId + 1 }) s1
  let die := dieOf (b.cores.headD 0)
  let s3 := (s2.modBlock b.id fun b => { b with phase := .running }).modLaunch b.launch fun l =>
    { l with starts := (die, s.clk) :: l.starts.filter (·.1 != die) }
  b.cores.foldl (fun (s : State) c => s.acquireAt c b.launch 5 (decide (b.cores.length > 1))) s3

/-- Has the stagger delay of a launch passed on a die (18 R369)? -/
def State.staggerOk (s : State) (l : Launch) (die : Nat) : Bool :=
  match l.starts.lookup die with
  | some c => decide (c + l.rec_.stagger ≤ s.clk)
  | none => true

/-- BLOCK_START (18 R367, R369); member blocks of a gang start with it (18 R371). -/
def execBlockStart (block : Nat) (s : State) : Res :=
  .next (match SMap.get? s.blocks block with
    | none => s
    | some b =>
      match s.launchOf b.launch with
      | none => s
      | some l =>
        let die := dieOf (b.cores.headD 0)
        if b.phase == .placed && !l.rec_.gang && s.staggerOk l die && !s.heldUp l die then s.startBlock b else s)

/-- Every asynchronous operation and synchronous access of a block's waves is over (10 R275). -/
def State.blockQuiet (s : State) (b : Block) : Bool :=
  s.ops.all (fun (o : AOp) => o.block != b.id || o.done) && s.accs.all fun (a : Access) => a.block != b.id || a.kind == AKind.joinSub

/-- A block that exits is detached; it is held until every other member has detached or departed (13 R329). -/
def State.exitDetach (s : State) (b : Block) : State :=
  let r := s.lrecOf b.launch
  if r.gang && !b.isTask && !b.detached then
    (s.modGang r.gangKey fun g => { g with detached := insertNat (r.rankOf b.index) g.detached }).modBlock b.id fun b => { b with detached := true }
  else s

/-- May the block leave its gang (13 R329)? -/
def State.gangLets (s : State) (b : Block) : Bool :=
  let r := s.lrecOf b.launch
  !r.gang || b.isTask ||
    (let g := s.gangOf r.gangKey
     (List.range r.gangSize).all fun k => k == r.rankOf b.index || g.detached.contains k || g.departed.contains k)

/-- Forget a wave: its record is of a block that has exited. -/
def State.dropWave (s : State) (w : Wave) : State :=
  if s.cw.uid == w.uid then { s with cw := Wave.free } else { s with waves := SMap.del s.waves w.uid }

/-- A map without the entries of a block, whose keys are of `unit` for each core position. -/
def dropKeys {α : Type} (m : SMap α) (unit block : Nat) : SMap α := m.filter fun x => x.1 / unit / 8 != block

/-- Words of a place of the engine's storage for each core position of a block (12 R290). -/
def badUnit (place : Nat) : Option Nat :=
  match place with
  | 3 => some (64 * 1024)
  | 4 => some (16 * 4096)
  | 5 => some 1024
  | 6 => some 1024
  | _ => none

/-- The storage of a block is released (10 R275). -/
def State.dropStorage (s : State) (b : Nat) : State :=
  { s with
    spd := dropKeys s.spd (2 ^ 20) b, tiles := dropKeys s.tiles (64 * 4096) b, accm := dropKeys s.accm (16 * 4096) b
    banks := dropKeys s.banks 1024 b, acts := dropKeys s.acts 1024 b, tctl := dropKeys s.tctl 64 b, absent := dropKeys s.absent 8192 b
    crossed := dropKeys s.crossed (2 ^ 20) b
    badWords := s.badWords.filter fun w => !(badUnit w.1).any fun u => w.2 / u / 8 == b
    barriers := s.barriers.filter fun k => k / 2 ^ 20 / 8 != b, fragWriters := dropKeys s.fragWriters 16 b
    tileWrites := dropKeys s.tileWrites 64 b, pairWrites := dropKeys s.pairWrites 16 b }

/-- The pool's entry of a gang goes with its last block; the asks that came meanwhile are of a new gang (13 R329, 19 R408). -/
def State.dropGang (s : State) (gid : Nat) : State :=
  (s.gangOf gid).late.foldl (fun (s : State) x => s.askTurn gid x.1 x.2.1 x.2.2.1 x.2.2.2) { s with gangs := SMap.del s.gangs gid }

/-- The block leaves: unobserved faults set LERR 6, reservations are cancelled, resources are released (10 R275; 13 R326, R329). -/
def State.leaveBlock (s : State) (b : Block) : State :=
  let s1 := if s.ops.any fun (o : AOp) => o.block == b.id && o.fault.isSome then s.setErr b.launch 6 none else s
  let ws := s1.allWaves.filter fun (w : Wave) => w.block == b.id
  let s2 := ws.foldl (fun (s : State) w => (if w.resv.isSome then s.exitResv w else s).dropWave w) s1
  let s3 := { s2.dropStorage b.id with
    ops := s2.ops.filter fun (o : AOp) => o.block != b.id
    blocks := SMap.del s2.blocks b.id }
  let r := s.lrecOf b.launch
  if b.isTask then s3
  else
    let s4 := if r.gang && (s3.gangBlocks r.gangKey).isEmpty then s3.dropGang r.gangKey else s3
    s4.modLaunch b.launch fun l => { l with exited := l.exited + 1 }

/-- BLOCK_EXIT (10 R275; 13 R326, R329). -/
def execBlockExit (block : Nat) (s : State) : Res :=
  .next (match SMap.get? s.blocks block with
    | none => s
    | some b =>
      if b.phase == .exiting && s.blockQuiet b then
        let s1 := s.exitDetach b
        if s1.gangLets b then s1.leaveBlock b else s1
      else s)

/-- Cores are to exchange their banks for a launch (04 R106). -/
def State.setSwap (s : State) (cores : List Nat) (launch : Nat) : State :=
  { s with coreSt := cores.foldl (fun m c =>
      SMap.set m c { SMap.getD m c CoreSt.reset with swapping := true, guest := some launch }) s.coreSt }

/-- Start a block where it was placed; the cores that hold it in their shadow banks are to exchange (04 R106; 18 R371, R384). -/
def State.startIn (s : State) (b : Block) : State :=
  let cs := b.cores.filter fun c => b.bankOn c != s.bankOf c
  if cs.isEmpty then s.startBlock b else (s.startBlock b).setSwap cs b.launch

/-- GANG_TURN_GRANT: every package has asked; one gang at a time, in the order their last packages asked (18 R371). -/
def execGangTurnGrant (gid : Nat) (s : State) : Res :=
  let g := s.gangOf gid
  let full (g : Gang) : Bool := decide (0 < g.pkgs) && g.asked.length == g.pkgs && g.reserved.length < g.pkgs
  .next (if full g && !s.gangs.any (fun x => x.2.turn || (full x.2 && decide (x.2.lastAsk < g.lastAsk))) then
    s.modGang gid fun g => { g with turn := true }
  else s)

/-- GANG_START: every package has reserved room for its blocks; the turn ends and every member block starts (18 R371). -/
def execGangStart (gid : Nat) (s : State) : Res :=
  let g := s.gangOf gid
  let ls := s.gangLaunches gid
  .next (if g.turn && !ls.isEmpty && ls.all (fun l => l.placed == l.rec_.blocks) &&
      (List.range g.pkgs).all (fun k => g.reserved.contains k || ls.any fun l => l.rec_.prank == k) then
    let s1 := s.modGang gid fun g => { g with turn := false, reserved := List.range g.pkgs }
    (ls.flatMap fun l => (s.blocks.map (·.2)).filter fun b => b.launch == l.id && b.phase == .placed).foldl
      (fun (s : State) b => s.startIn b) s1
  else s)

/-- GANG_ABANDON: 50 ms have passed since the first package asked and some package has not (18 R371). -/
def execGangAbandon (gid : Nat) (s : State) : Res :=
  let g := s.gangOf gid
  .next (if decide (0 < g.pkgs) && decide (g.asked.length < g.pkgs) && !g.asked.isEmpty && decide (g.firstAsk + 5000000 ≤ s.ref) then
    s.failGang gid 7 else s)

/-- Does a launch pre-empt now (18 R383)? -/
def State.preempting (s : State) (l : Launch) : Bool :=
  s.placing l && (l.prio == 3 || (l.prio == 2 && l.preempts)) && !s.anyRoom l.rec_

/-- PREEMPT_WAIT_EXPIRY (18 R383). -/
def execPreemptWaitExpiry (launch : Nat) (s : State) : Res :=
  .next (match s.launchOf launch with
    | some l =>
      if l.prio == 2 && (match l.waiting with | some t => decide (t + 10000 ≤ s.ref) | none => false) then
        s.modLaunch launch fun l => { l with preempts := true } else s
    | none => s)

/-- Is a block in a bank of a core: not saved, nor that of a wave in the future area (18 R386)? -/
def State.inBank (s : State) (b : Block) (core : Nat) : Bool :=
  !b.saved && b.cores.contains core && !(b.isTask && s.allWaves.any fun w => w.block == b.id && w.resid == .future)

/-- The blocks that have waves in the active bank of a core. -/
def State.activeBlocks (s : State) (core : Nat) : List Block :=
  (s.blocks.map (·.2)).filter fun (b : Block) => s.inBank b core && b.bankOn core == s.bankOf core

/-- Does a core's shadow bank hold no context (18 R384)? -/
def State.shadowEmpty (s : State) (core : Nat) : Bool :=
  (s.blocks.map (·.2)).all fun (b : Block) => !s.inBank b core || b.bankOn core == s.bankOf core

/-- Is a block's exit held for the other members of its gang alone: it counts as resident (13 R329, 18 R372)? -/
def State.exitHeld (s : State) (b : Block) : Bool := b.phase == .exiting && s.blockQuiet b && !s.gangLets b

/-- May a core be swapped for a block of a launch (18 R372, R384, R386)? -/
def State.swappable (s : State) (l : Launch) (core : Nat) : Bool :=
  !s.swapping core && s.shadowEmpty core && s.memFits core l.rec_ &&
    (s.activeBlocks core).all fun b => decide (s.prioOf b.launch < l.prio) && (b.phase != .exiting || s.exitHeld b)

/-- The sets of cores a block of a launch may be placed on (18 R368). -/
def LRec.coreSets (r : LRec) : List (List Nat) :=
  (List.range 56).flatMap fun cl =>
    if !r.dieOk (cl / 14) then []
    else
      (match r.place with
        | 1 => (List.range 4).map fun i => [2 * i, 2 * i + 1]
        | _ => choose r.spread (List.range 8)).map fun (cs : List Nat) => cs.map fun (i : Nat) => 8 * cl + i

/-- The order among swappable sets of cores: the lowest priority, then the youngest launch (18 R384). -/
def State.swapKey (s : State) (cs : List Nat) : List Nat :=
  let ls := (cs.flatMap s.activeBlocks).filterMap fun b => s.launchOf b.launch
  [(ls.map (·.prio)).foldl max 0, s.accepted - (ls.map (·.ordinal)).foldl max 0]

/-- The sets of cores that may be swapped for a block of a launch, each of its cores holding the block's waves (18 R384). -/
def State.swapSets (s : State) (l : Launch) : List (List Nat) :=
  if l.rec_.perCore * l.rec_.spread < l.rec_.waves then [] else l.rec_.coreSets.filter fun cs => cs.all fun c => s.swappable l c

/-- PREEMPT_SWAP: the incoming block's starting contexts go to the shadow bank (04 R106; 18 R369, R384); a gang's block is held there
until its gang starts (18 R371). -/
def execPreemptSwap (launch : Nat) (places : List Nat) (s : State) : Res :=
  .next (match s.launchOf launch with
    | none => s
    | some l =>
      let cs := l.rec_.coresOf places
      let sets := s.swapSets l
      if s.preempting l && l.rec_.formOk places && sets.contains cs && !sets.any (fun d => keyLt (s.swapKey d) (s.swapKey cs)) &&
          s.placesFit l.rec_ true places && s.turnOf l (dieOf (cs.headD 0)) && s.rotationOk l (cs.headD 0 / 8) &&
          (l.rec_.gang || s.staggerOk l (dieOf (cs.headD 0))) then
        let b := s.newBlock l places true
        let s1 := s.listBlock l b
        if l.rec_.gang then s1 else s1.startIn b
      else s)

/-- Is no clause running on a core (04 R106)? -/
def State.pipesIdle (s : State) (core : Nat) : Bool :=
  s.allWaves.all fun (w : Wave) => w.core != core || w.resid != .active || (w.pa.phase != .issuing && w.pb.phase != .issuing)

/-- The paths of a wave whose bank becomes active re-enter with every counter at zero (18 R377). -/
def PathSt.zeroCounters (p : PathSt) : PathSt := { p with skip := [0, 0, 0], starts := 0, passed := 0 }

/-- Exchange the banks of a core (04 R106, R107). -/
def State.exchange (s : State) (core : Nat) : State :=
  let ex (w : Wave) : Wave :=
    if w.core != core then w
    else if w.resid == .active then { w with resid := .shadow }
    else if w.resid == .shadow then { w with resid := .active, pa := w.pa.zeroCounters, pb := w.pb.zeroCounters }
    else w
  let s1 := { s with
    cw := ex s.cw
    waves := s.waves.map fun (x : Nat × Wave) => (x.1, ex x.2)
    coreSt := SMap.set s.coreSt core { SMap.getD s.coreSt core CoreSt.reset with bank := !s.bankOf core, swapping := false } }
  let s2 := (List.range 8).foldl (fun (s : State) p => (List.range 4).foldl (fun (s : State) _ => s.refill core p) s) s1
  s2.countCore core 13 8 1

/-- The cores that exchange together with one: those whose shadow banks hold the block that comes in (18 R384). -/
def State.exchangeGroup (s : State) (core : Nat) : List Nat :=
  let waits (b : Block) (c : Nat) : Bool := s.inBank b c && !b.isTask && b.bankOn c != s.bankOf c && s.swapping c
  match (s.blocks.map (·.2)).find? fun (b : Block) => waits b core with
  | some b => b.cores.filter (waits b)
  | none => [core]

/-- BANK_EXCHANGE: the last running clauses have issued their last slots (04 R106). -/
def execBankExchange (core : Nat) (s : State) : Res :=
  let cs := s.exchangeGroup core
  .next (if cs.all fun c => s.swapping c && s.pipesIdle c then cs.foldl State.exchange s else s)

/-- Is the swap of a core over: the blocks of the launch it was given to have all exited, or the active bank holds none at all, and
the shadow bank has a context to come back (04 R107)? -/
def State.swapOver (s : State) (core : Nat) : Bool :=
  let gone := match (SMap.getD s.coreSt core CoreSt.reset).guest with
    | some g => (s.activeBlocks core).all fun b => b.launch != g
    | none => (s.activeBlocks core).isEmpty
  !s.swapping core && !s.shadowEmpty core && gone

/-- SWAP_BACK: the incoming launch's blocks on the core have all exited (04 R107). -/
def execSwapBack (core : Nat) (s : State) : Res :=
  .next (if s.swapOver core && s.pipesIdle core then
    let t := s.exchange core
    { t with coreSt := SMap.set t.coreSt core { SMap.getD t.coreSt core CoreSt.reset with guest := none } }
  else s)

/-- May a block be saved for a launch that pre-empts: it is not exiting, no gang member, and has no pair operation in flight (04
R108; 10 R276; 18 R372, R384, R386)? -/
def State.savable (s : State) (l : Launch) (b : Block) : Bool :=
  match s.launchOf b.launch with
  | none => false
  | some m =>
    b.phase == .running && !b.saved && !b.isTask && decide (m.prio < l.prio) && m.rec_.ctxsave != 0 && !m.rec_.gang &&
      !(s.ops.any fun (o : AOp) => o.block == b.id && o.kind.pair && !o.done) &&
      b.cores.any (fun c => l.rec_.dieOk (dieOf c))

/-- The order in which victims are chosen: the lowest priority, the youngest launch, the fewest waves (18 R384). -/
def State.victimKey (s : State) (b : Block) : List Nat :=
  match s.launchOf b.launch with
  | some m => [m.prio, s.accepted - m.ordinal, b.nwaves - b.ended.length]
  | none => [4]

/-- Bytes that one saved block takes (04 R108). -/
def LRec.saveSize (r : LRec) : Nat := 4096 + r.waves * (128 * r.stackregs + 2048) + r.spdbytes + 4096 * r.tiles + 1024 * r.acckib

/-- The context-save area of a launch becomes undefined for every other reader: the spec gives its contents no form (04 R108). -/
def State.forgetSave (s : State) (r : LRec) : State :=
  (s.undefVa r.asid r.ctxsave (r.saveSize * r.blocks) needWR).countArea 4

/-- Are the waves of a block quiet, so that it can be saved (04 R108)? -/
def State.saveQuiet (s : State) (b : Block) : Bool :=
  s.blockQuiet b && s.ops.all (fun (o : AOp) => o.block != b.id || o.done) &&
    (s.allWaves.filter fun (w : Wave) => w.block == b.id).all fun w => w.pa.phase != .issuing && w.pb.phase != .issuing

/-- What a block's waves have stored leaves the caches of its cores, which it may not come back to (04 R108, 09 R230). -/
def State.carryOut (s : State) (b : Block) : State :=
  b.cores.foldl (fun (s : State) c => s.releaseAt c b.launch 5 (decide (b.cores.length > 1))) s

/-- The cores a block comes back to hold nothing older than what its waves have seen (04 R108, 09 R230). -/
def State.carryIn (s : State) (launch : Nat) (cs : List Nat) : State :=
  cs.foldl (fun (s : State) c => s.acquireAt c launch 5 (decide (cs.length > 1))) s

/-- Refill the partitions of places that waves have left or come to (18 R376). -/
def State.refillPlaces (s : State) (places : List Nat) : State :=
  places.foldl (fun (s : State) p => s.refill (p / 96) (partOf (p % 96))) s

/-- CONTEXT_SAVE (04 R108, 09 R230, 18 R384); the places its paths leave are refilled at once (18 R376). -/
def execContextSave (block : Nat) (s : State) : Res :=
  .next (match SMap.get? s.blocks block with
    | none => s
    | some b =>
      let need (l : Launch) : Bool :=
        s.preempting l && (s.swapSets l).isEmpty && s.savable l b &&
          !(s.blocks.map (·.2)).any (fun c => s.savable l c && keyLt (s.victimKey c) (s.victimKey b))
      if s.saveQuiet b && (s.launches.map (·.2)).any need && !b.cores.any s.swapping then
        let s1 := (s.carryOut b).forgetSave (s.lrecOf b.launch)
        let sv (w : Wave) : Wave := if w.block == b.id && w.resid != .free then { w with resid := .saved } else w
        let s2 := { s1 with cw := sv s1.cw, waves := s1.waves.map fun (x : Nat × Wave) => (x.1, sv x.2) }.modBlock block
          fun b => { b with saved := true }
        s2.refillPlaces b.slots
      else s)

/-- A key of a block's storage at the new position of its core; `unit` keys belong to a position. -/
def moveKey (unit block : Nat) (pos : Nat → Nat) (k : Nat) : Nat :=
  if k / unit / 8 == block then (block * 8 + pos (k / unit % 8)) * unit + k % unit else k

/-- The entries of a block at the new positions of its cores; what nothing has written keeps its undefined value: `n` entries from
the start of a position's range, each as `get` reads it (04 R108, 10 R276). -/
def moveKeys {α : Type} (m : SMap α) (unit block : Nat) (moves : List (Nat × Nat)) (n : Nat) (get : Nat → Option α) : SMap α :=
  let old (p : Nat) : Nat := (block * 8 + p) * unit
  (moves.flatMap fun x => (List.range n).filterMap fun i => (get (old x.1 + i)).map fun v => (old x.2 + i, v)).foldl
    (fun m x => SMap.set m x.1 x.2) (dropKeys m unit block)

/-- A park that names a place of its block's scratchpad, at the new position. -/
def Park.move (block : Nat) (pos : Nat → Nat) (why : Park) : Park :=
  match why with
  | .barx a ph => .barx (moveKey (2 ^ 20) block pos a) ph
  | .granule need => .granule (need.map fun x => (moveKey (2 ^ 20) block pos x.1, x.2))
  | w => w

/-- A path of a block whose storage has moved. -/
def PathSt.move (block : Nat) (pos : Nat → Nat) (p : PathSt) : PathSt :=
  { p with
    phase := (match p.phase with | .parked why => .parked (why.move block pos) | x => x)
    unfenced := p.unfenced.foldl (fun m x =>
      SMap.set m (if x.1 % 2 = 1 then 2 * moveKey 64 block pos (x.1 / 2) + 1 else 2 * moveKey (2 ^ 20) block pos (x.1 / 2)) ()) [] }

/-- The places in the scratchpad of a block that comes back on other cores move with it. -/
def Written.move (block : Nat) (pos : Nat → Nat) (w : Written) : Written :=
  { w with places := w.places.map fun p => if p.1 = 3 then (3, moveKey (2 ^ 20) block pos p.2.1, p.2.2) else p }

/-- The storage of a block moves with its cores, from each position to its new one, bit for bit (04 R108, 10 R276). -/
def State.moveStorage (s : State) (b : Nat) (r : LRec) (moves : List (Nat × Nat)) : State :=
  let pos (p : Nat) : Nat := (moves.lookup p).getD p
  if moves.all fun x => x.1 == x.2 then s
  else
    let back (w : Wave) : Wave := if w.block == b then { w with pa := w.pa.move b pos, pb := w.pb.move b pos } else w
    { s with
      spd := moveKeys s.spd (2 ^ 20) b moves r.spdbytes fun k => some (undefByte Config.seedSpd s.spd k)
      tiles := moveKeys s.tiles (64 * 4096) b moves (4096 * r.tiles) fun k => some (undefByte Config.seedTile s.tiles k)
      accm := moveKeys s.accm (16 * 4096) b moves (256 * r.acckib) fun k => some (SMap.getD s.accm k (Config.freeWord Config.seedAcc k))
      banks := moveKeys s.banks 1024 b moves 1024 fun k => some (SMap.getD s.banks k (Config.freeWord Config.seedBank k))
      acts := moveKeys s.acts 1024 b moves 1024 fun k => some (SMap.getD s.acts k (Config.freeWord Config.seedAct k))
      tctl := moveKeys s.tctl 64 b moves 64 (SMap.get? s.tctl)
      absent := moveKeys s.absent 8192 b moves 8192 (SMap.get? s.absent)
      badWords := s.badWords.map fun w => (w.1, match badUnit w.1 with | some u => moveKey u b pos w.2 | none => w.2)
      barriers := s.barriers.map (moveKey (2 ^ 20) b pos)
      fragWriters := moveKeys s.fragWriters 16 b moves 16 (SMap.get? s.fragWriters)
      tileWrites := moveKeys s.tileWrites 64 b moves 64 fun k => (SMap.get? s.tileWrites k).map (Written.move b pos)
      pairWrites := moveKeys s.pairWrites 16 b moves 16 fun k => (SMap.get? s.pairWrites k).map (Written.move b pos)
      cw := back s.cw, waves := s.waves.map fun (x : Nat × Wave) => (x.1, back x.2) }

/-- Bytes of the private footprint of a launch's grid (08 R179). -/
def LRec.footprint (r : LRec) : Nat := r.blocks * r.waves * 32 * r.sliceLen

/-- Is a range of an address space mapped readable throughout? A page miss waits for the pager and is not unmapped. -/
def State.mapped (s : State) (asid va n : Nat) : Bool :=
  (List.range (n / 4096 + 2)).all fun i =>
    let a := va / 4096 * 4096 + 4096 * i
    decide (va + n ≤ a) || (match s.xlate 0 asid (a % 2 ^ 56) needRD with | .fault _ => false | _ => true)

/-- A path whose PC, masks and clause are read back from memory that is not mapped (08 R179). -/
def PathSt.lose (p : PathSt) (seed : Nat) : PathSt :=
  if p.phase == .idle then p
  else { p with pc := (Config.freeWord seed 0).toNat, base := Config.freeWord seed 1, stack := [], clause := none, slot := 0 }

/-- The state of a wave, read back from memory that is not mapped (08 R179). -/
def Wave.lose (w : Wave) (seed : Nat) : Wave :=
  let words (k n : Nat) : SMap W32 := (List.range n).map fun i => (i, Config.freeWord seed (k + i))
  { w with
    vregs := [], vseed := some seed, vundef := [], wregs := [], wseed := some (seed + 1), eregs := [], eseed := some (seed + 2)
    sregs := words 0 512, pflags := words 512 8, dregs := words 1024 64, poison := [], pa := w.pa.lose seed, pb := w.pb.lose (seed + 1)
    hregs := (List.range 16).map fun i => (i, BitVec.ofNat 512 (ofWords ((List.range 16).map fun k => Config.freeWord seed (2048 + 16 * i + k)))) }

/-- A block restored from an area, or with a footprint, that is not mapped: its registers and storage are undefined (08 R179). -/
def State.loseBlock (s : State) (b : Nat) : State :=
  let d := s.draw
  let lose (w : Wave) : Wave := if w.block == b then w.lose (d.1 + 3 * w.widx) else w
  let t := d.2.dropStorage b
  let ctl (k : Nat) : W64 := BitVec.ofNat 64 (ofWords [Config.freeWord d.1 (4096 + 2 * k), Config.freeWord d.1 (4097 + 2 * k)])
  { t with tctl := (List.range 512).foldl (fun m k => SMap.set m (b * 512 + k) (ctl k)) t.tctl
           cw := lose t.cw, waves := t.waves.map (fun (x : Nat × Wave) => (x.1, lose x.2)), fresh := t.fresh + 2048 }

/-- CONTEXT_RESTORE: into the active banks of cores of the same form with room, where no launch of higher priority waits for it
(04 R108; 08 R179; 09 R230; 18 R367, R384). -/
def execContextRestore (block : Nat) (places : List Nat) (s : State) : Res :=
  .next (match SMap.get? s.blocks block with
    | none => s
    | some b =>
      let r := s.lrecOf b.launch
      let cs := r.coresOf places
      let held := match s.launchOf b.launch with | some l => s.heldUp l (dieOf (cs.headD 0)) | none => false
      if b.saved && r.formOk places && s.placesFit r false places && !cs.any s.swapping && !held then
        let back (w : Wave) : Wave :=
          if w.block == block && w.resid == .saved then
            let p := (places[w.widx]?).getD 0
            { w with resid := .active, core := p / 96, slot := p % 96, pa := { w.pa with elig := false }, pb := { w.pb with elig := false } }
          else w
        let s0 := s.moveStorage block r ((b.cores.zip cs).map fun x => (Config.posOf x.1, Config.posOf x.2))
        let s1 := cs.foldl (fun (s : State) c => s.copyArgs c b.launch (s.bankOf c)) s0
        let s2 := { s1 with cw := back s1.cw, waves := s1.waves.map fun (x : Nat × Wave) => (x.1, back x.2) }.modBlock block
          fun b => { b with saved := false, cores := cs, slots := places, banks := cs.map s.bankOf }
        let s3 := (s2.carryIn b.launch cs).countArea 3
        let s4 := if s.mapped r.asid r.ctxsave (r.saveSize * r.blocks) && s.mapped r.asid r.prvbase r.footprint then s3 else s3.loseBlock block
        s4.refillPlaces places
      else s)

end Sys2Proof.Machine
end

