-- ==== Sys2Proof/Machine/Resume.lean ====
section
/-! DEFINITION. The start of clauses as an event, parked paths that go on, delivered faults, the pager's answers and the return of
futures (01 R11, R23; 04 R101; 08 R194; 18 R366, R382; 20 R422). -/

namespace Sys2Proof.Machine

open Sys2Proof (Operand W32 W64 Byte Mask SMap SMap.get? SMap.set SMap.getD SMap.modify SMap.del)
open Sys2Proof.Config (dieOf partOf)

/-- CLAUSE_START: one selection of a pipe (01 R23, 18 R375). -/
def execClauseStart (core part pipe : Nat) (s : State) : Res := .next (s.clauseStart core part pipe)

/-- The miss of a page (ASID and 64 KiB page) is settled (08 R194). -/
def State.pageSettled (s : State) (asid va : Nat) : Bool :=
  !s.misses.any fun (m : Miss) => m.asid == asid && m.page == va % 2 ^ 56 / 65536

/-- Does the slot in progress of the path in focus read or write a register that is owed? A CALL that spills and a
RET that refills wait for every vector register (01 R24, 04 R97, 08 R179). -/
def State.slotOwed (s : State) : Bool :=
  let owed := s.owed s.cw.uid s.cw.second
  match s.cw.pa.clause.bind fun c => c.words[s.cw.pa.slot]? with
  | none => false
  | some w =>
    match Sys2Proof.fieldsOf (Sys2Proof.opcodeOf w) (fld w 0 55) with
    | none => false
    | some f =>
      (let k := chkFmt (Sys2Proof.opcodeOf w) f; s.posRegs (k.reads ++ k.writes)).any owed.contains ||
        ((Sys2Proof.opcodeOf w == 0x52 || Sys2Proof.opcodeOf w == 0x53) && (s.owedWave s.cw.uid).any fun r => r.1 == Cls.v)

/-- Does the park of a path wait inside its instruction for more than its own accesses, so that a fault is taken after it
(04 R101)? -/
def Park.holds : Park → Bool
  | .circle _ _ _ _ => true
  | .circleTok _ _ => true
  | .moota _ _ _ => true
  | .snap _ _ _ => true
  | .wait _ => true
  | .trapStop => true
  | _ => false

/-- Does the condition a parked path waits for hold now (01 R11, R19, R23, R24, R434; 05 R121, R142, R145-R150; 08 R194; 10 R245,
R246, R264; 12 R281; 13 R321, R328)? A WAIT, a SNAP and a stop for the other path's handler go on by events of their own. -/
def State.parkOver (s : State) (w : Wave) (second : Bool) (why : Park) : Bool :=
  let next := (s.focus w.uid second).nextClause
  match why with
  | .inputs => next != .inputs
  | .bwait => next != .bwait
  | .fetch a v => s.pageSettled a v
  | .slotMiss a v => s.pageSettled a v
  | .miss => !s.missing w.uid second
  | .owed => !(s.focus w.uid second).slotOwed
  | .granule need => need.all fun x => s.presentAt x.1 x.2
  | .opLimit cores => decide (s.outstanding w.uid < 64) && s.engineRoom cores
  | .store n => decide (s.storeUsed (dieOf w.core) + n ≤ storeSize)
  | .circle c g _ _ =>
    match SMap.get? s.blocks w.block with
    | some b => (b.circle c).gen.toNat != g
    | none => true
  | .rearrive c g =>
    match SMap.get? s.blocks w.block with
    | some b => (b.circle c).gen.toNat != g
    | none => true
  | .circleTok c t =>
    match SMap.get? s.blocks w.block with
    | some b => tokenOver (b.circle c).gen t
    | none => true
  | .barx key ph => (s.barrAt key).phase != ph
  | .accesses ids => s.accs.all fun (a : Access) => !ids.contains a.id || a.settled
  | .ops ids => s.ops.all fun (o : AOp) => !ids.contains o.id || o.done
  | .moota _ _ _ =>
    match SMap.get? s.blocks w.block with
    | some b =>
      let gid := (s.lrecOf w.launch).gangKey
      s.mootOver gid && (b.attached || (s.gangOf gid).ready (s.lrecOf w.launch).gangSize)
    | none => true
  | .trapStop => !w.tm || (w.path second).inTrap
  | .wait _ => false
  | .snap _ _ _ => false
  | .tick at_ => decide (at_ ≤ s.ref)

/-- A path whose park is over goes on: a `BAR`, a `BARW` or a `MOOTA` completes, any other slot is tried again (01 R11). -/
def State.goOn (s : State) (uid : Nat) (second : Bool) (why : Park) : State :=
  let s1 := s.focus uid second
  match why with
  | .circle c _ op dst => (s1.barDone c op dst).finishSlot
  | .circleTok c t => (s1.circleDone c t).finishSlot
  | .moota _ _ _ => (s1.attachAll s1.lrec.gangKey).mootFinish uid second
  | .accesses _ => (s1.onPa fun p => { p with waited := true }).makeReady uid second
  | .ops _ => (s1.onPa fun p => { p with waited := true }).makeReady uid second
  | _ => s1.makeReady uid second

/-- The path of an aborted launch ends where its access or miss is over (18 R366). -/
def State.endParked (s : State) (uid : Nat) (second : Bool) : State :=
  (s.updPath uid second fun p => { p with phase := .ending, elig := false }).tryFinish uid

/-- The park of a path. -/
def PathSt.park? (p : PathSt) : Option Park := match p.phase with | .parked why => some why | _ => none

/-- PATH_RESUME (01 R11): of a wave in a bank of its core; a future goes on by FUTURE_RESUME. -/
def execPathResume (uid : Nat) (second : Bool) (s : State) : Res :=
  .next (match s.waveOf uid with
    | none => s
    | some w =>
      match (w.path second).park? with
      | none => s
      | some why =>
        if w.resid != .active && w.resid != .shadow then s
        else if s.parkOver w second why || (!(w.path second).pend.isEmpty && !why.holds) then
          if s.abortedL w.launch then s.endParked uid second else s.goOn uid second why
        else s)

/-- May a path take a delivered fault now: at a slot boundary, in a WAIT, or in a park before an instruction (04 R101, 05 R155)?
DEDUCED: a path that has arrived at a JOIN takes it once the paths are one again (log 25). -/
def PathSt.takesFault (p : PathSt) : Bool :=
  !p.pend.isEmpty &&
    match p.phase with
    | .ready => true
    | .issuing => true
    | .resume => true
    | .ending => true
    | .parked (.wait _) => true
    | .parked why => !why.holds
    | _ => false

/-- DELIVERED_FAULT: the path takes its oldest fault at its slot boundary (04 R101-R104). -/
def execDeliveredFault (uid : Nat) (second : Bool) (s : State) : Res :=
  .next (match s.waveOf uid with
    | none => s
    | some w =>
      if w.resid == .active && (w.path second).takesFault && !s.missing uid second &&
          (!w.tm || ((w.path second).inTrap && (w.path second).phase != .ending)) then
        (s.focus uid second).startFocus
      else s)

/-- The pages a piece of an access waits for (08 R194): is this page the one? -/
def State.pieceMisses (s : State) (a : Access) (p : Piece) (m : Miss) : Bool :=
  p.miss &&
    match s.reach a p with
    | .miss x v => x == m.asid && v % 2 ^ 56 / 65536 == m.page
    | _ => false

/-- A piece waits no longer, where its page's miss is no longer outstanding (08 R194). -/
def State.freshMiss (s : State) (a : Access) (p : Piece) : Piece :=
  { p with miss := p.miss && (match s.reach a p with | .miss x v => !s.pageSettled x v | _ => false) }

/-- Every miss joined to a record is settled: its waiters translate again (08 R194, 20 R422). -/
def State.forgetMiss (s : State) (m : Miss) : State :=
  let page := (m.asid, m.page)
  let s1 := { s with
    misses := s.misses.filter fun (x : Miss) => x.token != m.token
    devMissed := s.devMissed.filter (· != page)
    ops := s.ops.map fun (o : AOp) => { o with missed := o.missed.filter (· != page) } }
  { s1 with accs := s1.accs.map fun (a : Access) => { a with pieces := a.pieces.map (s1.freshMiss a) } }

/-- The outstanding miss of a token whose record has been written (20 R422). -/
def State.missOf (s : State) (token : Nat) : Option Miss := s.misses.find? fun (m : Miss) => m.token == token && m.posted

/-- PAGER_RESOLVE (08 R194, 20 R422). -/
def execPagerResolve (token : Nat) (s : State) : Res :=
  .next (match s.missOf token with
    | some m => s.forgetMiss m
    | none => s)

/-- Does a parked path wait on a page for the slot or clause it tries next (08 R194)? -/
def PathSt.onPage (p : PathSt) (mine : Nat) (m : Miss) : Bool :=
  match p.phase with
  | .parked (.fetch a v) => a == m.asid && v % 2 ^ 56 / 65536 == m.page
  | .parked (.slotMiss a v) => a == m.asid && v % 2 ^ 56 / 65536 == m.page
  | .parked (.wait _) => mine == m.asid
  | _ => false

/-- A path learns that its page's miss was rejected. -/
def PathSt.deny (p : PathSt) (mine : Nat) (m : Miss) : PathSt :=
  if p.onPage mine m then { p with denied := insertPage p.denied (m.asid, m.page) } else p

/-- The pieces that waited on a page take the translation fault (08 R194). -/
def State.rejectPieces (s : State) (a : Access) (m : Miss) : Access :=
  { a with pieces := a.pieces.map fun (p : Piece) =>
      if s.pieceMisses a p m then
        let addr := match a.kind, s.reach a p with
          | .sxl _, .miss _ v => v
          | _, _ => s.faultAddr a p
        { p with miss := false, fault := some ⟨cTranslation, addr, a.word, 0⟩ }
      else p }

/-- PAGER_REJECT: the misses joined to the token take the translation fault (08 R194, 20 R422). -/
def execPagerReject (token : Nat) (s : State) : Res :=
  .next (match s.missOf token with
    | none => s
    | some m =>
      let page := (m.asid, m.page)
      let deny (w : Wave) : Wave :=
        let a := (s.lrecOf w.launch).asid
        { w with pa := w.pa.deny a m, pb := w.pb.deny a m }
      let s1 := { s with
        cw := deny s.cw
        waves := s.waves.map fun (x : Nat × Wave) => (x.1, deny x.2)
        devDenied := if s.devMissed.contains page then insertPage s.devDenied page else s.devDenied
        ops := s.ops.map fun (o : AOp) => if o.missed.contains page then { o with denied := insertPage o.denied page } else o
        accs := s.accs.map fun (a : Access) => s.rejectPieces a m }
      let s2 := s1.forgetMiss m
      ((s.accs.filter fun (a : Access) => !a.settled).map (·.id)).foldl (fun (s : State) i => s.settle i) s2)

/-- A future's path goes on in its slot: it tries again what it waited to do, waits on inside an instruction that has begun, or ends
(18 R382). -/
def State.futureGo (s : State) (uid : Nat) (second : Bool) : State :=
  match s.waveOf uid with
  | none => s
  | some w =>
    match (w.path second).phase with
    | .ending => s.tryFinish uid
    | .parked why => if why.holds then s else s.makeReady uid second
    | _ => s.makeReady uid second

/-- FUTURE_RESUME: in a free slot of its core, before any gathering (18 R382). -/
def execFutureResume (uid slot : Nat) (s : State) : Res :=
  .next (match s.waveOf uid with
    | none => s
    | some w =>
      if s.futureReady w && s.slotFree w.core slot (s.lrecOf w.launch).stackregs && !s.swapping w.core then
        let a := s.futureArea (dieOf w.core)
        let bank := s.bankOf w.core
        let s1 := (((s.undefRange false a.1 a.2).countArea 3).copyArgs w.core w.launch bank).modWave uid fun w => { w with resid := .active, slot := slot }
        let s2 := s1.modBlock w.block fun b => { b with slots := [w.core * 96 + slot], banks := [bank] }
        if s.abortedL w.launch then s2.endParked uid w.second else s2.futureGo uid w.second
      else s)

end Sys2Proof.Machine
end

