-- ==== Sys2Proof/Machine/Registers.lean ====
section
/-! DEFINITION. The registers of BAR0 as the host reads and writes them (00 R6, R8; 16 R348, R350; 19 R410, R411; 20 R413-R432). -/

namespace Sys2Proof.Machine

open Sys2Proof (W32 W64 Byte SMap SMap.get? SMap.set SMap.getD)

/-- Further byte offsets of BAR0 (20 R415, R425, R429; 19 R410). -/
abbrev barState : Nat := 0x08
abbrev barInv : Nat := 0x20008
abbrev barMb : Nat := 0x40000
abbrev barMbStat : Nat := 0x40008
abbrev barMbMsi : Nat := 0x40010
abbrev barMbData : Nat := 0x41000
abbrev barFab : Nat := 0x300000

/-- Is an offset one of `n` words that lie `step` bytes apart from a base? -/
def inRow (off base step n : Nat) : Bool := decide (base ≤ off) && (off - base) % step == 0 && decide ((off - base) / step < n)

/-- A mask of a field. -/
def fieldMask (lo n : Nat) : Nat := (2 ^ n - 1) * 2 ^ lo

/-- Is an offset in the counters of a core or a die (20 R430)? Its place in the counter's 32 bytes. -/
def counterAt (off : Nat) : Option Nat :=
  if 0x100000 ≤ off && off < 0x100000 + 0x200 * 448 then some (off % 0x20)
  else if 0x140000 ≤ off && off < 0x140000 + 0x800 * 4 then some (off % 0x20)
  else none

/-- The bits of a 64-bit register word that a write sets (RW fields): words with no behaviour of their own. -/
def rwMask (off : Nat) : Nat :=
  if inRow off 0x20 8 16 then fieldMask 0 8
  else if inRow off barFn 8 64 then fieldMask 0 33
  else if off = barTR then 1 + fieldMask 16 40
  else if off = barInv then fieldMask 0 17
  else if off = barInv + 8 then fieldMask 16 40
  else if off = barInv + 16 then fieldMask 0 32
  else if off = barPQBASE then fieldMask 5 51
  else if off = barPQLOG then fieldMask 0 5
  else if off = barPQMSI then fieldMask 0 12
  else if inRow off barGrant 8 64 then fieldMask 0 34 + 2 ^ 63
  else if inRow off barFuture 16 4 then fieldMask 16 40
  else if inRow off (barFuture + 8) 16 4 then fieldMask 0 64
  else if inRow off barGran 16 64 then fieldMask 0 9 + fieldMask 16 9 + fieldMask 32 18 + 2 ^ 63
  else if off = barMbMsi then fieldMask 0 12
  else if off = barSnap then 3
  else if off = barSnap + 8 then fieldMask 0 64
  else if off = barPLIMIT then fieldMask 0 12
  else if inRow off barGroup 8 255 then fieldMask 0 12 + fieldMask 32 16 + 2 ^ 63
  else
    match counterAt off with
    | some 0 => fieldMask 0 9 + fieldMask 16 8
    | some 8 => fieldMask 0 64
    | _ => 0

/-- The words of BAR0 whose value stands in the register map, the read-only ones among them. -/
def barListed (off : Nat) : Bool :=
  rwMask off ≠ 0 || off = barState || off = 0x20028 || off = barPQHEAD || off = barPQTAIL || off = barMbStat ||
    inRow off (barSnap + 0x18) 8 4 || off = barPSTAT || off = barPTPCFG || inRow off barFab 8 5 || counterAt off == some 16

/-- Word k of a trigger entry (16 R348). -/
def Trigger.word (t : Trigger) (k : Nat) : Nat :=
  match k with
  | 0 => t.time
  | 1 => t.period + 2 ^ 32 * t.queue + 2 ^ 38 * t.en.toNat
  | 2 => 256 * t.lrec
  | _ => t.fired + 65536 * t.missed

/-- A trigger entry with word k written (16 R348). -/
def Trigger.put (t : Trigger) (k x : Nat) : Trigger :=
  match k with
  | 0 => { t with time := x % 2 ^ 64 }
  | 1 => { t with period := fld x 0 32, queue := fld x 32 6, en := bit x 38 }
  | 2 => { t with lrec := fld x 8 56 }
  | _ => t

/-- Word k of a frame stream (16 R350). -/
def Stream.word (x : Stream) (k : Nat) : Nat :=
  match k with
  | 0 => x.en.toNat + 2 * x.cfgerr.toNat + 4 * x.fault.toNat + 2 ^ 8 * x.nbuf + 2 ^ 16 * x.ringn + 2 ^ 32 * x.msiv + 2 ^ 43 * x.msie.toNat +
      2 ^ 48 * x.asid
  | 1 => x.epoch
  | 2 => x.period + 2 ^ 32 * x.seq0
  | 3 => x.bufbase
  | 4 => x.bufsize
  | 5 => x.ringbase
  | 6 => x.lastseq + 2 ^ 32 * x.pubcnt
  | 7 => x.nextseq + 2 ^ 32 * x.subcnt
  | 8 => x.latecnt
  | _ => 0

/-- A frame stream with word k written: every field but EN, and none while EN = 1 (16 R350); EN is the business of `busWrite`. -/
def Stream.put (x : Stream) (k v : Nat) : Stream :=
  if x.en then x
  else
    match k with
    | 0 => { x with nbuf := fld v 8 8, ringn := fld v 16 16, msiv := fld v 32 11, msie := bit v 43, asid := fld v 48 16 }
    | 1 => { x with epoch := v % 2 ^ 64 }
    | 2 => { x with period := fld v 0 32, seq0 := fld v 32 32 }
    | 3 => { x with bufbase := v % 2 ^ 64 }
    | 4 => { x with bufsize := fld v 0 32 }
    | 5 => { x with ringbase := v % 2 ^ 64 }
    | _ => x

/-- A trigger entry by number. -/
def State.trigger (s : State) (e : Nat) : Trigger := SMap.getD s.triggers e Trigger.reset

/-- QSTAT of a queue (20 R416). -/
def State.qstat (s : State) (q : Nat) : Nat :=
  (s.queue q).pending.length % 512 + 512 * (s.running q % 16) + 8192 * (s.queue q).stfault.toNat

/-- A byte of MBDATA, undefined until written (20 R425). -/
def State.mbByte (s : State) (i : Nat) : Byte := undefByte Config.seedMb s.mbdata i

/-- The 64-bit word at an aligned offset of the PF's BAR0, as a read returns it (20 R413-R432). -/
def State.busWord (s : State) (off : Nat) : Nat :=
  if off = 0 then 0x7256 + 65536 * (Config.stepping.toNat % 256)
  else if 0x10000 ≤ off && off < 0x11000 then
    let q := (off - 0x10000) / 0x40
    match off % 0x40 with
    | 8 => (s.queue q).ceil + 4 * (s.queue q).en.toNat + 256 * (s.queue q).fn
    | 16 => s.qstat q
    | _ => 0
  else if 0x200000 ≤ off && off < 0x200800 then (s.trigger ((off - 0x200000) / 32)).word (off % 32 / 8)
  else if 0x201000 ≤ off && off < 0x201800 then (s.stream ((off - 0x201000) / 128)).word (off % 128 / 8)
  else if 0x41000 ≤ off && off < 0x42000 then ofBytes ((List.range 8).map fun i => (s.mbByte (off - 0x41000 + i)).toNat)
  else if off = 0x60008 then (s.ptpStat 0).toNat + 2 ^ 32 * (s.ptpOffset % 2 ^ 32).toNat
  else if barListed off then s.barWord off
  else 0

/-- A read of BAR0 by a function: naturally aligned, 4 or 8 bytes, else zero; a VF sees its own queues' QSTAT (20 R413). -/
def State.busRead (s : State) (fn off n : Nat) : Nat :=
  let part (w : Nat) : Nat := if n = 8 then w else fld w (8 * (off % 8)) 32
  if !(n == 4 || n == 8) || off % n ≠ 0 then 0
  else if fn = 0 then part (s.busWord (off / 8 * 8))
  else if off < 0x1000 && off % 0x40 / 8 = 2 && (s.queue (off / 0x40)).fn = fn then part (s.qstat (off / 0x40))
  else 0

/-- A 64-bit word with a 4-byte or 8-byte write merged in (20 R413). -/
def mergeWrite (cur off n value : Nat) : Nat :=
  if n = 8 then value % 2 ^ 64
  else if off % 8 = 0 then cur / 2 ^ 32 * 2 ^ 32 + value % 2 ^ 32
  else cur % 2 ^ 32 + value % 2 ^ 32 * 2 ^ 32

/-- The value a register word takes; none where the write is ignored (20 R420, R422, R431). -/
def State.barNew (s : State) (off x : Nat) : Option Nat :=
  let mask := if off = barTR && !s.launches.isEmpty then 1 else rwMask off
  let new := Nat.lor (Nat.land (s.barWord off) (2 ^ 64 - 1 - mask)) (Nat.land x mask)
  if mask = 0 then none
  else if barInv ≤ off && off ≤ barInv + 24 && bit (s.barWord 0x20028) 0 then none
  else if off = barPQLOG && (new < 6 || 16 < new) then none
  else if off = barPLIMIT && (new < 1200 || 3600 < new) then none
  else some new

/-- Start a mailbox command with its TAG; ignored while one runs (20 R425). -/
def State.mbStart (s : State) (opcode len tag : Nat) : State :=
  if s.mbCmd.isSome then s
  else
    let w := s.barWord barMbStat
    { (s.setBar barMbStat (fld w 1 31 * 2 + 1 + 2 ^ 32 * (tag % 2 ^ 32))).setBar barMb (tag % 2 ^ 32 * 2 ^ 32) with mbCmd := some (opcode % 65536, len % 65536, false) }

/-- Write bytes of MBDATA; while a command runs, all of it becomes undefined (20 R425). -/
def State.mbWrite (s : State) (at_ : Nat) (bytes : List Byte) : State :=
  match s.mbCmd with
  | none => { s with mbdata := (bytes.zipIdx).foldl (fun m x => SMap.set m (at_ + x.2) x.1) s.mbdata }
  | some (op, len, _) =>
    let d := s.draw
    { d.2 with mbCmd := some (op, len, true), mbdata := (List.range 4096).map fun i => (i, Config.freeByte d.1 i) }

/-- An entry of the group directory is replaced: what it held may still be found for 200 ref ticks (19 R402, R411). -/
def State.noteEntry (s : State) (off : Nat) : State :=
  if inRow off barGroup 8 255 then
    { s with dirOld := ((off - barGroup) / 8, s.barWord off, s.ref) :: s.dirOld.filter fun x => decide (s.ref ≤ x.2.2 + 200) }
  else s

/-- A write of a register word (00 R6): EN of a stream starts or stops it (16 R350), and a ring that PQLOG enlarges takes the records
that wait (20 R422). -/
def State.busWrite (s : State) (off n value : Nat) : State :=
  let w := off / 8 * 8
  let x := mergeWrite (s.busWord w) off n value
  if w = barMb then
    if off % 8 = 0 then s.mbStart (fld value 0 16) (fld value 16 16) (if n = 8 then fld value 32 32 else fld (s.barWord barMb) 32 32)
    else s.setBar barMb (value % 2 ^ 32 * 2 ^ 32)
  else if barMbData ≤ w && w < barMbData + 4096 then s.mbWrite (off - barMbData) (leBytes value n)
  else if 0x200000 ≤ w && w < 0x200800 then
    let e := (w - 0x200000) / 32
    { s with triggers := SMap.set s.triggers e ((s.trigger e).put (w % 32 / 8) x) }
  else if 0x201000 ≤ w && w < 0x201800 then
    let e := (w - 0x201000) / 128
    let s1 := s.setStream e ((s.stream e).put (w % 128 / 8) x)
    if w % 128 ≠ 0 then s1 else if bit x 0 then s1.enableStream e else s1.disableStream e
  else
    match s.barNew w x with
    | some y => if w = barPQLOG then (s.setBar w y).postMisses else (s.noteEntry w).setBar w y
    | none => s

/-- REGISTER_WRITE: from the PF, naturally aligned, 4 or 8 bytes; until READY only the mailbox takes writes (20 R413, R419). -/
def execRegisterWrite (fn off n value : Nat) (s : State) : Res :=
  .next (if fn ≠ 0 || !(n == 4 || n == 8) || off % n ≠ 0 then s
    else if !s.isReady && !(decide (barMb ≤ off) && decide (off < barMb + 0x10000)) then s
    else s.busWrite off n value)

/-- PQTAIL_WRITE: the pager has consumed records, and waiting ones may be written (20 R422). -/
def execPqtailWrite (value : Nat) (s : State) : Res :=
  .next (if s.isReady then (s.setBar barPQTAIL (value % 2 ^ 32)).postMisses else s)

/-- The commands of the mailbox, as writes of OPCODE (20 R425). -/
def execSensors (len tag : Nat) (s : State) : Res := .next (s.mbStart 0x0001 len tag)
/-- LOGREAD (20 R425). -/
def execLogread (len tag : Nat) (s : State) : Res := .next (s.mbStart 0x0002 len tag)
/-- FWSTAGE (20 R425). -/
def execFwstage (len tag : Nat) (s : State) : Res := .next (s.mbStart 0x0010 len tag)
/-- FWCOMMIT (20 R427). -/
def execFwcommit (len tag : Nat) (s : State) : Res := .next (s.mbStart 0x0011 len tag)
/-- MEASURE (20 R425). -/
def execMeasure (len tag : Nat) (s : State) : Res := .next (s.mbStart 0x0020 len tag)
/-- EXTEND (20 R428). -/
def execExtend (len tag : Nat) (s : State) : Res := .next (s.mbStart 0x0021 len tag)
/-- QUOTE (20 R428). -/
def execQuote (len tag : Nat) (s : State) : Res := .next (s.mbStart 0x0022 len tag)
/-- PTPCFG (20 R432). -/
def execPtpcfg (len tag : Nat) (s : State) : Res := .next (s.mbStart 0x0030 len tag)

end Sys2Proof.Machine
end

