-- ==== Sys2Proof/Machine/Steward.lean ====
section
/-! DEFINITION. The steward's mailbox and log, host accesses to memory, and check-bit errors (04 R109; 09 R231; 12 R290; 20 R412,
R413, R425-R428). -/

namespace Sys2Proof.Machine

open Sys2Proof (W32 W64 Byte SMap SMap.get? SMap.set SMap.getD)
open Sys2Proof.Config (dieOf posOf)

/-- Recall the grant on a home sector given by its address (09 R219, R231). -/
def State.recallPhys (s : State) (kind addr : Nat) : State :=
  match s.grants.find? fun g => g.1 == kind && g.2.1 == addr with
  | none => s
  | some (_, _, d) =>
    let here (x : Sector) : Bool :=
      x.owner == l2Of d &&
        match s.xlateG x.pool d x.asid (x.line * 128) 0 with
        | .ok pa ca cv => (Home.of x.pool pa ca cv).kind == kind && (Home.of x.pool pa ca cv).addr == addr
        | _ => false
    match s.sectors.find? here with
    | some x => s.recall { pool := x.pool, asid := x.asid, line := x.line, kind := kind, addr := addr }
    | none => { s with grants := s.grants.filter fun g => !(g.1 == kind && g.2.1 == addr) }

/-- The sectors of HBM that `n` bytes at a physical address touch are home (09 R231). -/
def State.physSync (s : State) (a n : Nat) : State :=
  (List.range ((a % 128 + n + 127) / 128)).foldl (fun (s : State) i => s.recallPhys 0 ((a / 128 + i) * 128)) s

/-- Bytes at a physical address as PQBASE names it: HBM, or host memory where bit 55 is 1 (20 R422, R425). -/
def State.physRead (s : State) (a n : Nat) : State × List Byte :=
  let s1 := if bit a 55 then s else (s.physSync a n).countHbm 3 a n
  (s1, (List.range n).map fun i => s1.homeByte (bit a 55) (a % 2 ^ 55 + i))

/-- Write bytes at a physical address; HBM words written whole are good again. -/
def State.physWrite (s : State) (a : Nat) (bytes : List Byte) : State :=
  let host := bit a 55
  let n := bytes.length
  let s1 := if host then s
    else
      let t := (s.physSync a n).countHbm 4 a n
      { t with badWords := t.badWords.filter fun w => !(w.1 == 7 && decide (a ≤ 4 * w.2) && decide (4 * w.2 + 4 ≤ a + n)) }
  (bytes.zipIdx).foldl (fun (s : State) x => s.homePut host (a % 2 ^ 55 + x.2) x.1) s1

/-- Do `n` bytes at a physical address lie in HBM or in host memory (00 R1, 20 R422)? -/
def physOk (a n : Nat) : Bool := bit a 55 || decide (a + n ≤ 2 ^ 40)

/-- The HBM address of an offset in BAR2 (20 R413). -/
def State.aperture (s : State) (off : Nat) : Nat := fld (s.barWord (0x20 + 8 * (off / 2 ^ 32 % 16))) 0 8 * 2 ^ 32 + off % 2 ^ 32

/-- What a host access writes: a write, FetchAdd, Swap or CAS with the compare value in the low bytes (20 R412). -/
def hostNew (op n old data : Nat) : Option Nat :=
  match op with
  | 1 => some data
  | 2 => rmwNew 0 n old data
  | 3 => some data
  | 4 => rmwNew 9 n old data
  | _ => none

/-- Does a host access act: BAR2 after READY and within its range, a read of at most 4096 bytes, a write of at most 512, an atomic
of 4 or 8 aligned bytes (20 R412, R413)? -/
def State.hostOk (s : State) (op : Nat) (hostMem : Bool) (addr n : Nat) : Bool :=
  (hostMem || (s.isReady && decide (addr + n ≤ 2 ^ 36))) && decide (n ≤ if op = 1 then 512 else 4096) &&
    (decide (op ≤ 1) || ((n == 4 || n == 8) && addr % n == 0))

/-- HOST_ACCESS: through BAR2, or of the host's own memory; 0 read, 1 write, 2 FetchAdd, 3 Swap, 4 CAS (09 R231; 20 R412, R413). -/
def execHostAccess (op : Nat) (hostMem : Bool) (addr n data : Nat) (s : State) : Res :=
  let a := if hostMem then addr % 2 ^ 55 + 2 ^ 55 else s.aperture addr
  .next (if !s.hostOk op hostMem addr n then s
    else
      let r := s.physRead a n
      match hostNew op n (bytesNat r.2) data with
      | some x => r.1.physWrite a (leBytes x n)
      | none => r.1)

/-- A measurement register (20 R428). -/
def State.measure (s : State) (i : Nat) : List Byte := SMap.getD s.meas i (List.replicate 64 0#8)

/-- An extension: M := SHAKE256(M ‖ data) (20 R428). -/
def State.extendBy (s : State) (i : Nat) (data : List Byte) : State :=
  { s with meas := SMap.set s.meas i (shake256 (s.measure i ++ data)) }

/-- A log entry as LOGREAD returns it: the source, code and data bytes are the event's, in a form the spec does not give (20 R426).
-/
def logBytes (seq : Nat) (e : LogEnt) : List Byte :=
  leBytes seq 4 ++ leBytes e.time 8 ++ (List.range 20).map (Config.logByte seq e.kind e.words)

/-- The entries LOGREAD returns from a sequence number on: at most 128 of the 2048 kept (20 R425, R426). -/
def State.logFrom (s : State) (seq : Nat) : List Byte :=
  let first := max seq (s.evlog.length - 2048)
  (((s.evlog.zipIdx).drop first).take 128).flatMap fun x => logBytes x.2 x.1

/-- The image of a firmware slot. -/
def Firmware.image (f : Firmware) (b : Bool) : List Byte := if b then f.slotB else f.slotA

/-- The steward boots, once after each module reset, before it serves the mailbox (20 R419, R427, R428): the slot chosen boots, or
after three failures, whose occurrence is open, the other one; FALLBACK says that it is not the one committed last; registers 0 to 2
are extended with the steward's and the device's firmware in the image and with the fused configuration. -/
def State.stewardBoot (s : State) : State :=
  if s.fw.up then s
  else
    let d := s.draw
    let fall := Config.freeBool d.1 0 || !Config.imageSigned (s.fw.image s.fw.nextB)
    let slot := s.fw.nextB != fall
    let img := s.fw.image slot
    let s1 := ((d.2.extendBy 0 (Config.stewardPart img)).extendBy 1 (Config.devicePart img)).extendBy 2 Config.fusedConfig
    { (s1.setBar barState (fld (s.barWord barState) 2 1 * 4 + 2 * (slot != s.fw.newerB).toNat + fld (s.barWord barState) 0 1)).logEvent
        logFirmware [slot.toNat] with
      fw := { s1.fw with bootedB := slot, nextB := slot, svnMin := max s1.fw.svnMin (Config.imageSvn img).toNat, up := true } }

/-- FWCOMMIT (20 R427). Whether the flash takes the image is open (RESULT 6 of 20 R425): a failed write leaves the slot undefined
(log 47). -/
def State.fwCommit (s : State) : State × Nat :=
  let img := s.fw.staging
  if !Config.imageSigned img then (s.logEvent logFirmware [4], 4)
  else if (Config.imageSvn img).toNat < s.fw.svnMin then (s.logEvent logFirmware [5], 5)
  else
    let d := s.draw
    let put (fw : Firmware) (b : List Byte) : Firmware := if fw.bootedB then { fw with slotA := b } else { fw with slotB := b }
    if Config.freeBool d.1 0 then
      ({ d.2 with fw := put s.fw ((List.range img.length).map fun i => Config.freeByte d.1 i) }.logEvent logFirmware [6], 6)
    else ({ d.2 with fw := { put s.fw img with nextB := !s.fw.bootedB, newerB := !s.fw.bootedB } }.logEvent logFirmware [0], 0)

/-- What QUOTE signs: the nonce, the eight registers, the part number and the SVNs (20 R428). -/
def State.quoteBody (s : State) (nonce : List Byte) : List Byte :=
  nonce ++ (List.range 8).flatMap s.measure ++ leBytes 0x7256 2 ++ leBytes (Config.imageSvn s.fw.slotA).toNat 4 ++
    leBytes (Config.imageSvn s.fw.slotB).toNat 4

/-- Run a mailbox command: the state after it, RESULT and the response (20 R425). -/
def State.mbRun (s : State) (op len : Nat) : State × Nat × List Byte :=
  let req := (List.range len).map s.mbByte
  let num (i n : Nat) : Nat := bytesNat ((req.drop i).take n)
  match op with
  | 0x0001 =>
    let d := s.draw
    if len ≠ 0 then (s, 2, []) else (d.2, 0, (List.range 608).map fun i => Config.freeByte d.1 i)
  | 0x0002 => if len ≠ 4 then (s, 2, []) else (s, 0, s.logFrom (num 0 4))
  | 0x0010 =>
    let n := num 8 4
    if len ≠ 12 then (s, 2, [])
    else if n < 2 ^ 20 || n > 2 ^ 26 || !physOk (num 0 8) n then (s, 3, [])
    else
      let r := s.physRead (num 0 8) n
      ({ r.1 with fw := { r.1.fw with staging := r.2 } }, 0, [])
  | 0x0011 =>
    if len ≠ 0 then (s, 2, [])
    else
      let r := s.fwCommit
      (r.1, r.2, [])
  | 0x0020 => if len ≠ 0 then (s, 2, []) else (s, 0, (List.range 8).flatMap s.measure)
  | 0x0021 =>
    if len < 5 || 4096 < len then (s, 2, [])
    else if num 0 4 < 3 || 7 < num 0 4 then (s, 3, [])
    else (s.extendBy (num 0 4) (req.drop 4), 0, [])
  | 0x0022 =>
    let body := s.quoteBody (req.take 32)
    let out := body ++ (List.range 35664).map (Config.quoteByte body)
    if len ≠ 40 then (s, 2, [])
    else if !physOk (num 32 8) out.length then (s, 3, [])
    else (s.physWrite (num 32 8) out, 0, [])
  | 0x0030 =>
    if len ≠ 4 then (s, 2, [])
    else if 2 < num 1 1 || num 2 2 = 0 then (s, 3, [])
    else (s.setBar barPTPCFG (num 0 4), 0, [])
  | _ => (s, 1, [])

/-- MAILBOX_COMPLETE: the command has run, on a steward that has booted (20 R419), RESULT and RLEN are set, BUSY falls, MBMSI is
raised (20 R425). -/
def execMailboxComplete (s : State) : Res :=
  .next (match s.mbCmd with
    | none => s
    | some (op, len, spoiled) =>
      let r := s.stewardBoot.mbRun op len
      let d := r.1.draw
      let out := if spoiled then (List.range r.2.2.length).map (Config.freeByte d.1) else r.2.2
      let w := r.1.barWord barMbStat
      let s1 := { d.2.setBar barMbStat (256 * r.2.1 + 65536 * r.2.2.length + 2 ^ 32 * fld w 32 32) with
        mbCmd := none, mbdata := (out.zipIdx).foldl (fun m x => SMap.set m x.2 x.1) d.2.mbdata }
      if bit (s1.barWord barMbMsi) 11 then s1.raiseMsi (fld (s1.barWord barMbMsi) 0 11) else s1)

/-- LOG_PERSIST: the first `n` entries have reached flash (20 R426). -/
def execLogPersist (n : Nat) (s : State) : Res := .next { s with logPersisted := max s.logPersisted (min n s.evlog.length) }

/-- The wave in a slot of a core's active bank, or from slot 96 on of its shadow bank (04 R105, R109). -/
def State.waveAt (s : State) (core slot : Nat) : Option Wave :=
  s.allWaves.find? fun w =>
    w.core == core && w.slot == slot % 96 && w.resid == (if slot < 96 then Resid.active else Resid.shadow)

/-- A byte of a register becomes poisoned, and the log records the register by its file, number, lane and byte (04 R109, R110); what
is neither v, s nor e has check bits in the shadow bank only. DESIGN CHOICE: it is detected, and logged, as the error occurs (log
37). -/
def State.poisonByte (s : State) (core slot : Nat) (p : PoisonAt) : State :=
  match s.waveAt core slot with
  | none => s
  | some w =>
    if p.byte ≥ 4 || p.lane ≥ 32 || (p.cls ≥ 3 && w.resid != .shadow) || w.poison.contains p then s
    else (s.modWave w.uid fun w => { w with poison := w.poison ++ [p] }).logEvent logUncorrectable [core, slot, p.cls, p.reg, p.lane, p.byte]

/-- A word becomes uncorrectable (12 R290, 20 R426). -/
def State.badWord (s : State) (place i : Nat) : State :=
  if s.badWords.contains (place, i) then s
  else { s with badWords := s.badWords ++ [(place, i)] }.logEvent logUncorrectable [place, i]

/-- CHECK_BIT_ERROR (04 R109; 12 R290; 20 R430). Places: 0 v, 1 s, 2 e of the wave in a slot; 3 tile, 4 fragment, 5 decode bank and
6 activation table number `reg` of block `slot` on a core; 7 HBM word `reg` of die `core`; from 8 on what else a shadow bank holds of
the wave in a slot, in the order of `poisonP` to `poisonLink`. -/
def execCheckBitError (place core slot reg lane byte : Nat) (corrected : Bool) (s : State) : Res :=
  let at_ := slot * 8 + posOf core
  .next (if corrected then
      (if place ≤ 2 || 8 ≤ place then s.countCore core 11 8 1 else if place ≤ 6 then s.countCore core 12 8 1 else s.countDie core 11 1)
    else
      match place with
      | 0 => s.poisonByte core slot { cls := 0, reg := reg, lane := lane, byte := byte }
      | 1 => s.poisonByte core slot { cls := 1, reg := reg, lane := 0, byte := byte }
      | 2 => s.poisonByte core slot { cls := 2, reg := reg, lane := 0, byte := byte }
      | 3 => s.badWord 3 ((at_ * 64 + reg % 64) * 1024 + byte / 4 % 1024)
      | 4 => s.badWord 4 ((at_ * 16 + reg % 16) * 4096 + byte / 4 % 4096)
      | 5 => s.badWord 5 ((at_ * 2 + reg % 2) * 512 + byte / 4 % 512)
      | 6 => s.badWord 6 (at_ * 1024 + byte / 4 % 1024)
      | 7 => s.badWord 7 reg
      | n => if n ≤ 13 then s.poisonByte core slot { cls := n - 5, reg := reg, lane := lane, byte := byte } else s)

end Sys2Proof.Machine
end

