-- ==== Sys2Proof/Machine/Module.lean ====
section
/-! DEFINITION. Module reset and bring-up, function-level reset, invalidation, and power control (20 R415, R418-R421, R427, R428,
R431). -/

namespace Sys2Proof.Machine

open Sys2Proof (W32 Byte SMap SMap.get? SMap.set SMap.getD)

/-- Dirty sectors at a reset: the spec leaves open which reach their homes first (log 5). -/
def State.flushSome (s : State) (seed : Nat) : State :=
  (s.sectors.zipIdx).foldl (fun (s : State) x => if Config.freeBool seed x.2 then s.writeBack x.1 false else s) s

/-- The module reset (20 R418): launches end without a completion word, registers take their reset values, storage is undefined;
HBM survives all but power-on, memory outside the module stays, and the fields the reset leaves unchanged stay (00 R6). -/
def State.moduleReset (s : State) (powerOn : Bool) : State :=
  let d := s.draw
  let t := if powerOn then d.2 else d.2.flushSome d.1
  { State.reset with
    agenda := t.agenda, fresh := t.fresh, nextId := t.nextId
    hbm := if powerOn then [] else t.hbm
    undef := t.undef.filter fun u => u.1 || !powerOn
    host := t.host, pool := t.pool, peers := t.peers, poolGroups := t.poolGroups
    badWords := if powerOn then [] else t.badWords.filter fun w => w.1 == 7
    bar := if powerOn && !s.powered then [(barState, 4)] else []
    mbdata := t.mbdata, granSeed := d.1, evlog := t.evlog, logPersisted := t.logPersisted
    fw := { t.fw with staging := [], up := false } }

/-- MODULE_RESET: power-on, a PCIe reset, or a function-level reset of the PF (20 R418). -/
def execModuleReset (powerOn : Bool) (s : State) : Res := .next (s.moduleReset powerOn)

/-- MODRESET (20 R415). -/
def execModreset (value : Nat) (s : State) : Res :=
  .next (if s.isReady && bit value 0 && fld value 16 16 = 0x7256 then s.moduleReset false else s)

/-- VF_FUNCTION_LEVEL_RESET (20 R418): the function's queues close and empty, its launches are aborted without a status. -/
def execVfFunctionLevelReset (fn : Nat) (s : State) : Res :=
  .next (if fn = 0 || 63 < fn then s
    else
      let mine (q : Nat) : Bool := (s.queue q).fn == fn
      let s1 := { s with queues := s.queues.map fun (x : Nat × Queue) => if x.2.fn == fn then (x.1, { x.2 with en := false, pending := [], got := [], taking := none }) else x }
      ((s.launches.map (·.2)).filter fun l => mine l.queue).foldl
        (fun (s : State) l => (s.modLaunch l.id fun l => { l with silent := true }).abortLaunch l.id) s1)

/-- An HBM word whose check bits are set up anew holds undefined bytes (20 R419). -/
def State.renewWords (s : State) : State :=
  { (s.badWords.filter fun w => w.1 == 7).foldl (fun (s : State) w => s.undefHome false (4 * w.2) 4) s with
    badWords := s.badWords.filter fun w => w.1 != 7 }

/-- BRING_UP_COMPLETE (20 R415, R419): the steward has booted, the check bits of HBM are set up, and READY becomes 1. -/
def execBringUpComplete (s : State) : Res :=
  .next (if s.isReady then s
    else
      let t := s.stewardBoot.renewWords
      t.setBar barState (t.barWord barState / 2 * 2 + 1))

/-- INVGO (20 R420, R421). -/
def execInvgo (s : State) : Res :=
  .next (if s.isReady && !bit (s.barWord 0x20028) 0 then s.setBar 0x20028 1 else s)

/-- Does the invalidation under way name a page of `size` bytes (20 R420, R421)? -/
def State.invNames (s : State) (asid va size : Nat) : Bool :=
  let w := s.barWord barInv
  let first := fld (s.barWord (barInv + 8)) 16 40 * 65536
  let cnt := fld (s.barWord (barInv + 16)) 0 32
  bit w 16 || (asid == fld w 0 16 && (cnt == 0 || (decide (va < first + 65536 * cnt) && decide (first < va + size))))

/-- Translating agents drop the entries named, and those whose canonical page is named (20 R421). -/
def State.invTlb (s : State) : State :=
  { s with
    tlb := s.tlb.filter fun e => !(s.invNames e.asid e.va e.size || s.invNames e.casid e.cva e.size)
    filters := s.filters.map fun (x : Nat × List FilterEnt) =>
      (x.1, x.2.filter fun f => !(s.invNames f.asid (f.page * f.size) f.size || s.invNames f.casid (f.cpage * f.size) f.size)) }

/-- The L1s and L2s write back and drop the lines named (20 R421). -/
def State.invLines (s : State) : State := s.writeBackAll true fun x => s.invNames x.asid (x.line * 128) 128

/-- INVALIDATION_COMPLETE (20 R421): a write-back under way may use the old or the new entry. -/
def execInvalidationComplete (s : State) : Res :=
  .next (if bit (s.barWord 0x20028) 0 then
      let d := s.draw
      ((if Config.freeBool d.1 0 then d.2.invTlb.invLines else d.2.invLines).invTlb).setBar 0x20028 0
    else s)

/-- The clock in MHz after a sample of the 1 ms average power and the hottest die sensor (20 R431). -/
def nextClock (clk limit watts : Nat) (temp : Int) : Nat :=
  if watts > limit || temp ≥ 105 then max 800 (clk - 25)
  else if 100 * watts < 97 * limit && temp < 100 then min 2000 (clk + 25)
  else clk

/-- POWER_SAMPLE (20 R431): `watts` the 1 ms average, `temp` the hottest die sensor in °C. -/
def execPowerSample (watts : Nat) (temp : Int) (s : State) : Res :=
  let w := s.barWord barPSTAT
  let limit := s.barWord barPLIMIT
  let clk := nextClock (fld w 0 12) limit watts temp
  let low := decide (clk < 2000)
  let limited := low && (bit w 32 || decide (watts > limit))
  let hot := low && (bit w 33 || decide (temp ≥ 105))
  let floor := clk == 800 && decide (watts > limit)
  .next (s.setBar barPSTAT (clk + 2 ^ 16 * min watts 4095 + 2 ^ 32 * limited.toNat + 2 ^ 33 * hot.toNat + 2 ^ 34 * floor.toNat))

/-- THERMAL_TRIP: the steward logs the trip and removes power (20 R431). -/
def execThermalTrip (s : State) : Res := .next { s.logEvent logThermal [] with powered := false }

end Sys2Proof.Machine
end

