-- ==== Sys2Proof/Machine/Fabric.lean ====
section
/-! DEFINITION. The fabric: link-up, stations, packets, notices, time-outs and departures (18 R370, R371; 19 R387-R411). -/

namespace Sys2Proof.Machine

open Sys2Proof (Operand W32 Byte SMap SMap.get? SMap.set SMap.getD SMap.del)

/-- Add one to a fabric counter, in the low or the high half of its word (19 R410). -/
def State.fabCount (s : State) (off : Nat) (high : Bool) : State :=
  let w := s.barWord off
  s.setBar off (if high then w % 2 ^ 32 + (w / 2 ^ 32 + 1) % 2 ^ 32 * 2 ^ 32 else w / 2 ^ 32 * 2 ^ 32 + (w % 2 ^ 32 + 1) % 2 ^ 32)

/-- FABRIC_LINK_UP (19 R395, R410). -/
def execFabricLinkUp (pkgid incarn : Nat) (s : State) : Res :=
  .next (s.setBar barFab (pkgid % 4096 + 65536 * (incarn % 65536) + 2 ^ 32))

/-- STATION_STATE_CHANGE (19 R388, R389, R410): which station a sector takes changes only time. -/
def execStationStateChange (station : Nat) (up : Bool) (s : State) : Res :=
  .next (if station ≥ 32 then s
    else
      let old := fld (s.barWord (barFab + 8)) 0 32
      let m := if up then Nat.lor old (2 ^ station) else Nat.land old (2 ^ 32 - 1 - 2 ^ station)
      let plane (lo : Nat) : Nat := (decide (fld m lo 16 ≠ 0)).toNat
      s.setBar (barFab + 8) (m + 2 ^ 32 * plane 0 + 2 ^ 33 * plane 16))

/-- IDLE_BEAT (19 R396): a packet that changes no state of the module. -/
def execIdleBeat (_station : Nat) (s : State) : Res := .next s

/-- The scratchpad key of a moot address on this package (19 R404). -/
def State.rankKey (s : State) (gid addr : Nat) : Option Nat :=
  (s.gangLaunches gid).findSome? fun l =>
    match s.mootLoc l.id addr with
    | .at (.spd k) => some k
    | _ => none

/-- Is the block that holds a scratchpad key attached, and is every access performed that the arrivals of its gang's blocks release:
what another member does after its own MOOTA comes after them (17 R356)? -/
def State.mootOpenAt (s : State) (gid key : Nat) : Bool :=
  match SMap.get? s.blocks (key / 2 ^ 20 / 8) with
  | some b => b.attached && s.mootReleased gid
  | none => true

/-- Another member's store or atomic waits for the attach; an atomic waits at the scratchpad for the granules it touches (05 R121; 17
R356; 19 R404). -/
def State.packetWaits (s : State) (kind gid addr n : Nat) : Bool :=
  decide (7 ≤ kind) && decide (kind ≤ 18) && match s.rankKey gid addr with
    | some k => !s.mootOpenAt gid k || (decide (8 ≤ kind) && !s.presentAt k n)
    | none => false

/-- What another package, its PKGID `src`, or its pool node does to this package's scratchpads and to the gang of a number (13 R328,
R329; 18 R370, R371; 19 R404). Kinds: 1 the rank `addr` asks for the turn, with B in `n` and SPDBYTES in `data`, 2 it has reserved, 3
fails the gang, 4 the member `addr` arrives, 5 withdraws, 6 detaches, 7 stores, 8 to 18 an atomic of 05 R122. -/
def State.gangPacket (s : State) (src kind gid addr n data : Nat) : State :=
  match kind with
  | 1 => s.askTurn gid addr src n data
  | 2 => s.modGang gid fun g => { g with reserved := insertNat addr g.reserved }
  | 3 => s.failGang gid n
  | 4 => s.modGang gid fun g => { g with arrived := insertNat addr g.arrived }
  | 5 => s.modGang gid fun g => { g with arrived := g.arrived.filter (· != addr) }
  | 6 => s.modGang gid fun g => { g with detached := insertNat addr g.detached }
  | _ =>
    match s.rankKey gid addr with
    | none => s
    | some k =>
      let put (x : Nat) : State :=
        s.writeLoc { core := 0, launch := 0, l2Only := false } { strong := true, atomic := true, scope := 4, multi := true } (.spd k) n x
          (2 ^ n - 1)
      if kind = 7 then s.crossKeys (put data) ((List.range n).map (k + ·))
      else
        match rmwNew (kind - 8) n (localRead Config.seedSpd s.spd k n) data with
        | some x => put x
        | none => s

/-- The packets that wait are performed once nothing holds them, in their order of arrival (05 R121; 17 R356; 19 R404). -/
def State.settlePackets (s : State) : State :=
  s.heldPackets.foldl (fun (s : State) (x : Nat × Nat × Nat × Nat × Nat × Nat) =>
    let (key, kind, gid, addr, n, data) := x
    if s.packetWaits kind gid addr n then { s with heldPackets := s.heldPackets ++ [x] }
    else s.gangPacket (key / 2 ^ 64) kind gid addr n data) { s with heldPackets := [] }

/-- What other packages and the pool's own software change in the pool (17 R357; 19 R397, R401, R403, R409). Kinds: 20 a store to
pool memory, 21 a group entry, 22 a slot more, 23 a slot's presence, 24
no entry, 25 a store to another member's scratchpad. -/
def State.poolPacket (s : State) (kind addr n data : Nat) : State :=
  let mod (f : PoolGroup → PoolGroup) : State :=
    match SMap.get? s.poolGroups addr with
    | some g => { s with poolGroups := SMap.set s.poolGroups addr (f g) }
    | none => s
  match kind with
  | 20 => { s with pool := localWrite s.pool addr n data (2 ^ n - 1) }
  | 21 => { s with poolGroups := SMap.set s.poolGroups addr { extent := data, asid := n, slots := [] } }
  | 22 => mod fun g => { g with slots := if g.slots.length < 64 then g.slots ++ [(data % 2 ^ 44, data / 2 ^ 44, false)] else g.slots }
  | 23 => mod fun g => { g with slots := g.slots.modify n fun x => (x.1, x.2.1, data % 2 == 1) }
  | 24 => { s with poolGroups := SMap.del s.poolGroups addr }
  | 25 => { s with peers := localWrite s.peers addr n data (2 ^ n - 1) }
  | _ => s

/-- The outstanding access to POOL or MOOT of an id (19 R399). -/
def State.remote (s : State) (id : Nat) : Option Access :=
  s.accs.find? fun a => a.id == id && (a.space == 5 || a.space == 6) && !a.settled

/-- A byte of POOL, or of another package's scratchpad, that a copy still has to reach (05 R134; 19 R399, R404). -/
def AOp.farByte (o : AOp) : Option (Nat × Nat) :=
  ((List.range o.count).filter o.pending).findSome? fun k =>
    ([o.dstSpot k, o.srcSpot k]).findSome? fun (x : Option Spot) =>
      match x with
      | some p => if p.space = 5 || p.space = 6 then (p.bytes.head?).map fun b => (p.space, b) else none
      | none => none

/-- Does an access of a space go through the fabric: all of POOL, and the MOOT of other packages (19 R404)? -/
def State.viaFabric (s : State) (launch space addr : Nat) : Bool :=
  space == 5 || (space == 6 && match s.mootLoc launch addr with | .at (.peer _) => true | _ => false)

/-- The requests of an access through the fabric: the pieces that fall in one sector share one, which the first of them stands for
(08 R187; 13 R327; 19 R404). -/
def State.requestOf (s : State) (a : Access) (k : Nat) : Nat := (s.mates a k).headD k

/-- Does the directory refuse the lane of an LDRED, which then makes no request (19 R402)? -/
def Access.refused (a : Access) (p : Piece) : Bool :=
  match a.kind, a.taken p.lane with
  | .ldred _ _, some (0 :: _) => true
  | _, _ => false

/-- Has a piece of an access a request on its way or to be made: what it waits for before is none of a page miss and of order? -/
def State.underWay (s : State) (a : Access) (p : Piece) : Bool :=
  !p.settled && !p.miss && !a.refused p && s.viaFabric a.launch a.space p.addr && s.mayPerform a p

/-- The pieces of an access that a test selects, among those that share a request. -/
def State.matesThat (s : State) (a : Access) (k : Nat) (sel : Piece → Bool) : List Nat :=
  (s.mates a k).filter fun j => match a.pieces[j]? with | some p => sel p | none => false

/-- The requests of an access that leave the package now. -/
def State.newRequests (s : State) (a : Access) : List Nat :=
  if a.space ≠ 5 && a.space ≠ 6 then []
  else
    (List.range a.pieces.length).filter fun k =>
      (a.sent.lookup k).isNone && s.requestOf a k == k && !(s.matesThat a k (s.underWay a)).isEmpty

/-- Has a copy no request on its way: it is over, or waits for accesses before it or for a page (05 R139; 08 R194)? -/
def State.opWaits (s : State) (o : AOp) : Bool := !o.isCopy || o.done || o.fault.isSome || !o.missed.isEmpty || !s.opOrdered o

/-- The words that entry `g` of the directory may be found to hold now: the current one, and those replaced at most 200 ref ticks ago
(19 R402, R411). -/
def State.dirWords (s : State) (g : Nat) : List Nat :=
  s.barWord (barGroup + 8 * g) :: (s.dirOld.filter fun x => x.1 == g && decide (s.ref ≤ x.2.2 + 200)).map (·.2.1)

/-- The access of a lane of an LDRED is sent: it takes its group's entries, the directory's as found there by a choice of its own,
and becomes the reads of the group's slots (13 R327; 19 R402, R403). -/
def State.sendLane (s : State) (id g : Nat) (p : Piece) : State :=
  let d := s.draw
  let ws := s.dirWords g
  { d.2 with accs := d.2.accs.map fun (a : Access) =>
      if a.id == id then
        let t := s.groupTaken a.asid g (nth ws (pickFree d.1 (List.range ws.length)))
        { a with
          extra := a.extra ++ [BitVec.ofNat 32 p.lane :: t]
          pieces := a.pieces ++ (List.range ((t.length - 4) / 4 - 1)).map fun k => Piece.fresh p.lane (k + 1) p.addr 0 }
      else a }

/-- The lanes of an LDRED whose accesses can be sent take their groups. -/
def State.sendLdred (s : State) (a : Access) : State :=
  match a.kind with
  | .ldred g _ =>
    (a.pieces.filter fun p => (a.taken p.lane).isNone && s.underWay a p).foldl (fun (s : State) p => s.sendLane a.id g p) s
  | _ => s

/-- Note the requests that leave the package: their silence counts from here (19 R394). A copy's counts from when it waits for
nothing before it. -/
def State.sendRequests (s : State) : State :=
  let s1 := if s.accs.all fun a => (s.newRequests a).isEmpty then s
    else
      let t := s.accs.foldl State.sendLdred s
      { t with accs := t.accs.map fun (a : Access) => { a with sent := a.sent ++ (t.newRequests a).map fun k => (k, t.ref) } }
  if s1.ops.any fun o => o.isCopy && o.farByte.isSome && s1.opWaits o then
    { s1 with ops := s1.ops.map fun (o : AOp) => if s1.opWaits o then { o with heard := s1.ref } else o }
  else s1

/-- The access of a request's id, and the piece that stands for the request. -/
def requestAcc (id : Nat) : Nat := id % 2 ^ 64
def requestPiece (id : Nat) : Nat := id / 2 ^ 64

/-- The outstanding request of an id, an access's or a copy's: the ref tick of the last copy of it or notice for it (19 R394, R398).
A copy's requests are one at a time (DESIGN CHOICE: log 52). -/
def State.request (s : State) (id : Nat) : Option Nat :=
  match s.remote (requestAcc id) with
  | some a =>
    if (s.matesThat a (requestPiece id) fun p => !p.settled).isEmpty then none else a.sent.lookup (requestPiece id)
  | none =>
    match s.opOf id with
    | some o =>
      if s.opWaits o then none
      else match o.farByte with
        | some x => if s.viaFabric o.launch x.1 x.2 then some o.heard else none
        | none => none
    | none => none

/-- A request of an id is heard of at this ref tick. -/
def State.hear (s : State) (id : Nat) : State :=
  { s with
    accs := s.accs.map fun (a : Access) =>
      if a.id == requestAcc id then { a with sent := a.sent.map fun x => if x.1 == requestPiece id then (x.1, s.ref) else x } else a
    ops := s.ops.map fun (o : AOp) => if o.id == id then { o with heard := s.ref } else o }

/-- A node refuses the request of piece `k` of an outstanding access to POOL, or a copy's, with the translation or the permission
fault (19 R391, R398). -/
def State.refuse (s : State) (code id k : Nat) : State :=
  match s.remote id with
  | some a =>
    if a.space ≠ 5 then s
    else
      ((s.mates a k).foldl (fun (s : State) j =>
        s.modPiece id j fun p => if p.settled then p else { p with miss := false, fault := some ⟨code, p.addr, a.word, 0⟩ }) s).settle id
  | none =>
    match s.opOf id with
    | none => s
    | some o =>
      if !o.isCopy || o.done || o.fault.isSome then s
      else match o.farByte with
        | some (5, x) => s.copyStop o (o.memFault code x)
        | _ => s

/-- What a packet that is new and of this incarnation does. Beside those of `gangPacket` and `poolPacket`, kind 0 is a response or a
beat, 19 the abandon of the packet of number `addr` (19 R399), and 26 and 27 refuse piece `n` of the access `addr` with the
translation and the permission fault (19 R391). -/
def State.packet (s : State) (src seq kind gid addr n data : Nat) : State :=
  if kind = 0 then s
  else if kind = 19 then { s with heldPackets := s.heldPackets.filter fun x => x.1 != src * 2 ^ 64 + addr }
  else if kind < 20 then
    if s.packetWaits kind gid addr n then { s with heldPackets := s.heldPackets ++ [(src * 2 ^ 64 + seq, kind, gid, addr, n, data)] }
    else s.gangPacket src kind gid addr n data
  else if kind = 26 then s.refuse cTranslation addr n
  else if kind = 27 then s.refuse cPermission addr n
  else s.poolPacket kind addr n data

/-- FABRIC_PACKET_RECEIVE (19 R393, R395, R409): a foreign incarnation or a second copy is dropped and counted. -/
def execFabricPacketReceive (incarn src seq kind gid addr n data : Nat) (s : State) : Res :=
  let key := src * 2 ^ 64 + seq
  .next (if incarn ≠ fld (s.barWord barFab) 16 16 then s.fabCount (barFab + 0x10) false
    else if (SMap.get? s.seqSeen key).isSome then s.fabCount (barFab + 0x10) true
    else { s with seqSeen := SMap.set s.seqSeen key () }.packet src seq kind gid addr n data)

/-- FABRIC_RESEND: after 32 microseconds without a response or a notice, a copy, which is never performed twice (19 R394). -/
def execFabricResend (id : Nat) (s : State) : Res :=
  .next (match s.request id with
    | some t => if t + 3200 ≤ s.ref then (s.hear id).fabCount (barFab + 0x18) false else s
    | none => s)

/-- KEEP_WAITING_NOTICE: every notice received is counted, one for a request that is over too, and it holds the resend of its request
back (19 R398, R410). -/
def execKeepWaitingNotice (id : Nat) (s : State) : Res :=
  .next ((if (s.request id).isSome then s.hear id else s).fabCount (barFab + 0x20) false)

/-- A piece of an access times out; whether a store or atomic was performed first is open (19 R399). -/
def State.timeOutPiece (s : State) (a : Access) (k : Nat) : State :=
  match a.pieces[k]? with
  | none => s
  | some p =>
    if p.settled then s
    else
      let d := s.draw
      let t := if a.kind.stores && Config.freeBool d.1 k then d.2.performPiece a.id k else d.2
      t.modPiece a.id k fun q =>
        { q with done := false, result := [], miss := false, fault := some ⟨cRemote, s.faultAddr a p, a.word, 0⟩ }

/-- REMOTE_TIMEOUT: 2 ms after issue (19 R399). -/
def execRemoteTimeout (id : Nat) (s : State) : Res :=
  .next (match s.remote id with
    | some a =>
      if a.since + 200000 ≤ s.ref then
        (((List.range a.pieces.length).foldl (fun (s : State) k => s.timeOutPiece a k) s).settle id).fabCount (barFab + 0x18) true
      else s
    | none =>
      match s.opOf id with
      | none => s
      | some o =>
        if !o.isCopy || o.done || o.fault.isSome || o.since + 200000 > s.ref then s
        else
          match o.farByte with
          | some x => (s.copyStop o (o.memFault cRemote x.2)).fabCount (barFab + 0x18) true
          | none => s)

/-- The pieces of an access that wait on a rank that has departed take the moot-departed fault (19 R405). -/
def State.departPieces (s : State) (gid : Nat) (ranks : List Nat) (a : Access) : Access :=
  if a.space = 6 && (s.lrecOf a.launch).gangKey == gid then
    { a with pieces := a.pieces.map fun (p : Piece) =>
        if !p.settled && ranks.contains (p.addr / 2 ^ 20) then { p with fault := some ⟨cDeparted, p.addr, p.addr / 2 ^ 20, 0⟩ } else p }
  else a

/-- The ranks of the packages that any of these ranks belong to: every rank of a package departs at once (19 R406). -/
def Gang.withPackages (g : Gang) (ranks : List Nat) : List Nat :=
  ranks ++ (List.range g.size).filter fun r => decide (0 < g.blocks) && ranks.any fun x => x / g.blocks == r / g.blocks

/-- The packages of a gang that these ranks belong to, but for those whose loss the nodes have noted already: they mark a lost
package's slots once for every gang that holds it, so that those of its next incarnation stay present (17 R357; 19 R396, R408,
R409). -/
def State.newlyLost (s : State) (gid : Nat) (ranks : List Nat) : List Nat :=
  let g := s.gangOf gid
  ((g.owners.filter fun o => ranks.any fun r => decide (0 < g.blocks) && r / g.blocks == o.1).map (·.2)).filter fun p => !g.noted.contains p

/-- The group slots of packages are absent, which is noted in every gang that holds them (17 R357, 19 R396). -/
def State.loseSlots (s : State) (pkgs : List Nat) : State :=
  { s with
    gangs := s.gangs.map fun (x : Nat × Gang) =>
      (x.1, { x.2 with noted := (pkgs.filter fun p => x.2.owners.any fun o => o.2 == p).foldl (fun l p => insertNat p l) x.2.noted })
    poolGroups := s.poolGroups.map fun (x : Nat × PoolGroup) =>
      (x.1, { x.2 with slots := x.2.slots.map fun y => if pkgs.contains y.2.1 then (y.1, y.2.1, false) else y }) }

/-- DEPARTURE_NOTICE (17 R357; 18 R371; 19 R396, R405, R406): the group slots of the lost packages are absent, their ranks departed,
and a loss while the gang holds the turn ends the turn. -/
def execDepartureNotice (gid : Nat) (ranks : List Nat) (s : State) : Res :=
  let gone := (s.gangOf gid).withPackages ranks
  let s1 := ((s.modGang gid fun g => { g with departed := gone.foldl (fun l r => insertNat r l) g.departed }).loseSlots (s.newlyLost gid gone)).fabCount
    (barFab + 0x20) true
  let s2 := { s1 with accs := s1.accs.map fun (a : Access) => s1.departPieces gid gone a }
  let s3 := ((s1.accs.filter fun (a : Access) => !a.settled).map (·.id)).foldl (fun (s : State) i => s.settle i) s2
  .next (if (s.gangOf gid).turn then s3.failGang gid 2 else s3)

end Sys2Proof.Machine
end

