-- ==== Sys2Proof/Machine/LightOps.lean ====
section
/-! DEFINITION. The ray instructions, the traversal stacks, the spectral packets and textures, and the pool reductions
(13 R296-R317, R327). -/

namespace Sys2Proof.Machine

open Sys2Proof (Operand RF MF W32 W64 Byte Mask SMap SMap.get? SMap.set SMap.getD SMap.modify SMap.del)
open Sys2Proof.Config (dieOf)

/-- The ray block of a lane (13 R296). -/
def State.rayOf (s : State) (o : Operand) (l : Nat) : List W32 := s.rdWords o 8 l

/-- RBOX and RTRI: one weak DEV read a lane (13 R299, R300). -/
def State.rayAccess (s : State) (f : RF) (kind : AKind) (align stride n : Nat) : State :=
  let base := (s.rd64 f.c).toNat
  let lanes := s.active false
  if base % align ≠ 0 then s.trapHere ⟨cAlign, base, 0, 0⟩
  else if lanes.isEmpty then s.slotDone
  else
    (s.addAcc kind 0 0 0 0 s.lrec.asid false (s.regsOf f.dst n) (lanes.map fun l => s.rayOf f.a l)
      (lanes.zipIdx.map fun x => Piece.fresh x.1 x.2 ((base + stride * ((s.rdL f.b x.1).toNat % 2 ^ 30)) % 2 ^ 56) 0)).slotDone

/-- RBOX (13 R299). -/
def execRbox (f : RF) (s : State) : Res := .next (s.rayAccess f .rbox 128 128 8)

/-- RTRI (13 R300). -/
def execRtri (f : RF) (s : State) : Res := .next (s.rayAccess f (.rtri f.sub.val) 16 48 4)

/-- TSINIT (13 R302). Of its private-range fault TADDR is `a` and TLANES 0 (DESIGN CHOICE: log 22). -/
def execTsinit (f : RF) (s : State) : Res :=
  let a := (s.rdS f.a).toNat
  let n := (s.rdS f.b).toNat
  .next (
    if a % 8 ≠ 0 then s.trapHere ⟨cAlign, a, 0, 0⟩
    else if n = 0 || n > 4096 then s.trapHere (dataRec cDescriptor (toField f.b))
    else if a + 8 * n > s.lrec.privbytes then s.trapHere ⟨cRange, a, 0, 0⟩
    else (s.wrLanes64 f.dst (s.active f.all) fun _ => BitVec.ofNat 64 (a + 2 ^ 32 * (n * 65536))).slotDone)

/-- A lane's traversal stack: the offset of entry 0, CAP, LOST and COUNT (13 R301). -/
structure TStack where
  base : Nat
  cap : Nat
  lost : Bool
  count : Nat
  rsvd : Nat
deriving DecidableEq, Repr

/-- A stack from its state pair. -/
def State.tstack (s : State) (o : Operand) (l : Nat) : TStack :=
  let x := (s.rd64L o l).toNat
  { base := fld x 0 32, cap := fld x 48 16, lost := bit x 47, count := fld x 32 13, rsvd := fld x 45 2 }

/-- The state pair of a stack. -/
def TStack.pair (t : TStack) : W64 := BitVec.ofNat 64 (t.base + 2 ^ 32 * t.count + (if t.lost then 2 ^ 47 else 0) + 2 ^ 48 * t.cap)

/-- Is the state malformed (13 R301)? -/
def TStack.malformed (t : TStack) (priv : Nat) : Bool :=
  t.base % 8 ≠ 0 || t.cap = 0 || t.cap > 4096 || t.count > t.cap || t.rsvd ≠ 0 || t.base + 8 * t.cap > priv

/-- One lane's pushes: the stack after them, the entries stored as (offset, value), and whether the lane overflows (13 R303). -/
def TStack.push (t : TStack) (drop : Bool) : List (W32 × W32) → TStack × List (Nat × Nat) × Bool
  | [] => (t, [], false)
  | (p, d) :: rest =>
    if p.toNat / 2 ^ 30 = 3 then t.push drop rest
    else if t.count < t.cap then
      let r := TStack.push { t with count := t.count + 1 } drop rest
      (r.1, (t.base + 8 * t.count, p.toNat + 4294967296 * d.toNat) :: r.2.1, r.2.2)
    else
      let r := TStack.push { t with lost := t.lost || drop } drop rest
      (r.1, r.2.1, r.2.2 || !drop)

/-- TSPUSH (13 R303). -/
def State.tspush (s : State) (f : RF) : State :=
  let c := f.sub.val % 4 + 1
  let lanes := s.active false
  let run (l : Nat) := (s.tstack f.dst l).push (f.sub.val / 4 % 2 == 1)
    (((List.range c).map fun j => (((s.rdWords f.b c l)[j]?).getD 0, ((s.rdWords f.c c l)[j]?).getD 0)).reverse)
  let spill := lanes.filter fun l => (run l).2.2
  if lanes.any fun l => (s.tstack f.dst l).malformed s.lrec.privbytes then s.trapHere (dataRec cDescriptor (toField f.dst))
  else
    match spill with
    | l :: _ => s.trapHere ⟨cRange, (s.tstack f.dst l).base + 8 * (s.tstack f.dst l).cap, 0, maskOfList spill⟩
    | [] =>
      let pieces := lanes.flatMap fun l => (run l).2.1.zipIdx.map fun e => Piece.fresh l e.2 (s.sliceAddr s.cw e.1.1 l) e.1.2
      let s1 := s.wrLanes64 f.dst lanes fun l => (run l).1.pair
      if pieces.isEmpty then s1.slotDone else (s1.addAcc (.store 8) 0 0 0 0 s.lrec.asid false [] [] pieces).slotDone

/-- TSPUSH (13 R303). -/
def execTspush (f : RF) (s : State) : Res := .next (s.tspush f)

/-- What a lane pops from an empty stack: the miss pointer and the distance +∞ (13 R304). -/
def stackMiss : W64 := 0x7F800000FFFFFFFF#64

/-- TSPOP: the entry is read like an LDL; an empty stack gives a miss (13 R304). Where vD and vS are one pair, R304 does not say
which write stands: the stack's new state is written at issue, and the entry popped lands over it (DESIGN CHOICE: log 27). With
nothing to read in any lane the misses are written at once. -/
def State.tspop (s : State) (f : RF) : State :=
  let lanes := s.active false
  let t (l : Nat) := s.tstack f.a l
  if lanes.any fun l => (t l).malformed s.lrec.privbytes then s.trapHere (dataRec cDescriptor (toField f.a))
  else if lanes.isEmpty then s.slotDone
  else
    let s1 := s.wrLanes64 f.a lanes fun l => TStack.pair { t l with count := (t l).count - 1 }
    if lanes.all fun l => (t l).count == 0 then (s1.wrLanes64 f.dst lanes fun _ => stackMiss).slotDone
    else
      (s1.addAcc (.load 8 false) 0 0 0 0 s.lrec.asid false (s.regsOf f.dst 2) [] (lanes.map fun l =>
        if (t l).count = 0 then { Piece.fresh l 0 0 0 with done := true, result := toWords stackMiss.toNat 2 }
        else Piece.fresh l 0 (s.sliceAddr s.cw ((t l).base + 8 * ((t l).count - 1)) l) 0)).slotDone

/-- TSPOP (13 R304). -/
def execTspop (f : RF) (s : State) : Res := .next (s.tspop f)

/-- Sample k a packet operand supplies to a lane: of a w register, or the lane value for every sample (13 R309). -/
def State.rdW (s : State) (o : Operand) (l k : Nat) : W32 :=
  match o with
  | .w i => s.cw.wsamp i l k
  | _ => s.rdL o l

/-- Write samples of a w register, all computed from the state before. -/
def State.wrSamples (s : State) (o : Operand) (ls ks : List Nat) (g : Nat → Nat → W32) : State :=
  s.onWave fun w => ls.foldl (fun w l => ks.foldl (fun w k => w.setW (idxOf o) l k (g l k)) w) w

/-- Write the packet of each active lane and go on (13 R310). -/
def packetRes (s : State) (f : RF) (g : Nat → Nat → W32) : Res :=
  .next (s.wrSamples f.dst (s.active f.all) (List.range s.cw.packet) g).slotDone

/-- The modified packet sources (13 R310, 02 R69). -/
def State.wA (s : State) (f : RF) (l k : Nat) : W32 := flushIn s.cw.ftz (srcMod (RF.negA f) (RF.absA f) (s.rdW f.a l k))
def State.wB (s : State) (f : RF) (l k : Nat) : W32 := flushIn s.cw.ftz (srcMod (RF.negB f) (RF.absB f) (s.rdW f.b l k))
def State.wC (s : State) (f : RF) (l k : Nat) : W32 := flushIn s.cw.ftz (srcMod (RF.negC f) false (s.rdW f.c l k))

/-- A packet result with one rounding (13 R310, 02 R69). -/
def packetFp (s : State) (f : RF) (g : Nat → XR → XR → XR → XR) : Res :=
  let rm := s.rmOf f.sub.val
  packetRes s f fun l k => s.fpOut rm (RF.sat f) (g rm (fp32Val (s.wA f l k)) (fp32Val (s.wB f l k)) (fp32Val (s.wC f l k)))

/-- WADD (13 R310). -/
def execWadd (f : RF) (s : State) : Res := packetFp s f fun rm a b _ => XR.add rm a b
/-- WSUB (13 R310). -/
def execWsub (f : RF) (s : State) : Res := packetFp s f fun rm a b _ => XR.add rm a b.neg
/-- WMUL (13 R310). -/
def execWmul (f : RF) (s : State) : Res := packetFp s f fun _ a b _ => XR.mul a b
/-- WFMA (13 R310). -/
def execWfma (f : RF) (s : State) : Res := packetFp s f fun rm a b c => XR.fma rm a b c
/-- WMIN (13 R310). -/
def execWmin (f : RF) (s : State) : Res := packetRes s f fun l k => satF32 (RF.sat f) (fmin32 false (s.wA f l k) (s.wB f l k))
/-- WMAX (13 R310). -/
def execWmax (f : RF) (s : State) : Res := packetRes s f fun l k => satF32 (RF.sat f) (fmin32 true (s.wA f l k) (s.wB f l k))
/-- WADD.V (13 R310). -/
def execWaddV (f : RF) (s : State) : Res := packetFp s f fun rm a b _ => XR.add rm a b
/-- WSUB.V (13 R310). -/
def execWsubV (f : RF) (s : State) : Res := packetFp s f fun rm a b _ => XR.add rm a b.neg
/-- WMUL.V (13 R310). -/
def execWmulV (f : RF) (s : State) : Res := packetFp s f fun _ a b _ => XR.mul a b
/-- WFMA.V (13 R310). -/
def execWfmaV (f : RF) (s : State) : Res := packetFp s f fun rm a b c => XR.fma rm a b c
/-- WMIN.V (13 R310). -/
def execWminV (f : RF) (s : State) : Res := packetRes s f fun l k => satF32 (RF.sat f) (fmin32 false (s.wA f l k) (s.wB f l k))
/-- WMAX.V (13 R310). -/
def execWmaxV (f : RF) (s : State) : Res := packetRes s f fun l k => satF32 (RF.sat f) (fmin32 true (s.wA f l k) (s.wB f l k))

/-- WEXP (13 R310, 02 R70). -/
def execWexp (f : RF) (s : State) : Res := packetRes s f fun l k => s.fixedOut f (fexp2 (fp32Val (s.wA f l k)))

/-- WSPL: broadcast or ramp (13 R311). -/
def execWspl (f : RF) (s : State) : Res :=
  packetRes s f fun l k =>
    if f.sub.val = 0 then s.rdL f.a l
    else
      roundF32 s.cw.rm s.cw.ftz
        (XR.fma s.cw.rm (XR.ofInt k) (fp32Val (flushIn s.cw.ftz (s.rdL f.b l))) (fp32Val (flushIn s.cw.ftz (s.rdL f.a l))))

/-- WGET (13 R312). -/
def execWget (f : RF) (s : State) : Res :=
  .next (s.wrLanes f.dst (s.active f.all) fun l => s.rdW f.a l ((s.rdS f.b).toNat % 8)).slotDone

/-- WSET (13 R312). -/
def execWset (f : RF) (s : State) : Res :=
  .next (s.wrSamples f.dst (s.active f.all) [(s.rdS f.b).toNat % 8] fun l _ => s.rdL f.a l).slotDone

/-- WSUM (13 R313). -/
def execWsum (f : RF) (s : State) : Res :=
  let rm := s.rmOf f.sub.val
  .next (s.wrLanes f.dst (s.active f.all) fun l =>
    s.fpOut rm (RF.sat f) (XR.sum rm (((List.range s.cw.packet).map fun k => XR.mul (fp32Val (s.wA f l k)) (fp32Val (s.wB f l k))) ++
      [fp32Val (flushIn s.cw.ftz (s.rdL f.c l))]))).slotDone

/-- Register i of a run of w or v registers. -/
def nthReg (o : Operand) (i : Nat) : Operand :=
  match o with
  | .w j => .w ⟨(j.val + i) % 32, Nat.mod_lt _ (by decide)⟩
  | .v j => .v ⟨(j.val + i) % 256, Nat.mod_lt _ (by decide)⟩
  | o => o

/-- WMM: every input is read before any output is written (13 R314). -/
def execWmm (f : RF) (s : State) : Res :=
  let rm := s.rmOf f.sub.val
  let out (r l k : Nat) : W32 :=
    s.fpOut rm false (XR.sum rm ((List.range 4).map fun c =>
      XR.mul (fp32Val (flushIn s.cw.ftz (s.rdL (nthReg f.b (4 * r + c)) l))) (fp32Val (flushIn s.cw.ftz (s.rdW (nthReg f.a c) l k)))))
  .next ((List.range 4).foldl (fun (t : State) r => t.wrSamples (nthReg f.dst r) (s.active f.all) (List.range s.cw.packet) (out r)) s).slotDone

/-- The descriptor of SXL, read before any texel: a weak DEV read that settles at the slot itself (13 R316). -/
inductive TexRead where
  | ok (s : State) (d : Nat)
  | miss (asid va : Nat)
  | fault (code : Nat)

/-- The read of a descriptor as an access of the path: a weak load of 64 bytes (13 R316). -/
def State.texDescAcc (s : State) (va : Nat) : Access := s.newAcc .hload 0 0 0 0 s.lrec.asid true [] [] [Piece.fresh 0 0 va 0]

/-- The accesses and fences of a path that hold a piece of an access back (09 R215, R216, R222). -/
def State.holders (s : State) (c : Access) (q : Piece) : List Nat :=
  ((s.earlier c).filter fun a => match a.kind with
    | .fence k => fenceHolds k c.kind
    | _ => a.pieces.any fun p => !p.done && s.mustPrecede a p c q).map (·.id)

/-- Read the 64 bytes of a descriptor. -/
def State.readTexDesc (s : State) (va : Nat) : TexRead :=
  let w := s.how (s.texDescAcc va)
  match s.orDenied (s.findHeld w s.cw.core s.cw.launch s.cw.block s.lrec.asid 0 va needRD) with
  | .miss a v => .miss a v
  | .fault c _ => .fault c
  | .at l =>
    let q : Asker := { core := s.cw.core, launch := s.cw.launch, l2Only := false }
    let r := (s.noteXlat s.cw.core s.lrec.asid va 0).readLoc q w l 64
    .ok r.1 r.2

/-- SXL and SXLG (13 R316, R317): the read of the descriptor waits for the accesses and fences of the path that come before it (09
R216, R222). -/
def State.texAccess (s : State) (f : RF) (g : Bool) : State :=
  let da := (s.rd64 f.c).toNat
  let lanes := s.active false
  let wait := s.holders (s.texDescAcc (da % 2 ^ 56)) (Piece.fresh 0 0 (da % 2 ^ 56) 0)
  if da % 64 ≠ 0 then s.trapHere ⟨cAlign, da, 0, 0⟩
  else if !wait.isEmpty then s.park (.accesses wait)
  else
    match s.readTexDesc (da % 2 ^ 56) with
    | .miss a v => s.parkMiss a v 0
    | .fault c =>
      let d := s.draw
      let s1 := d.2.wrSamples f.dst lanes (List.range s.cw.packet) fun l k => Config.freeWord d.1 (l * 8 + k)
      (s1.onPa fun p => { p with pend := p.pend ++ [⟨c, da % 2 ^ 56, s.wordOff, maskOfList lanes⟩] }).slotDone
    | .ok t x =>
      if (TexDesc.of x).malformed then t.trapHere (dataRec cDescriptor (toField f.c))
      else if lanes.isEmpty then t.slotDone
      else
        let ks := List.range s.cw.packet
        (t.addAcc (.sxl g) 0 0 0 0 s.lrec.asid false (s.regsOf f.dst 1)
          (toWords x 16 :: lanes.map fun l => ks.map fun k => s.rdW f.b l k)
          (lanes.zipIdx.map fun y => Piece.fresh y.1 y.2 (da % 2 ^ 56) (ofWords (s.rdWords f.a 3 y.1)))).slotDone

/-- SXL (13 R316). -/
def execSxl (f : RF) (s : State) : Res := .next (s.texAccess f false)

/-- SXLG (13 R316). -/
def execSxlg (f : RF) (s : State) : Res := .next (s.texAccess f true)

/-- LDRED of elements of an encoding: one access a lane, whose group is looked up as it is sent (13 R327, 19 R402). -/
def State.ldred (s : State) (f : MF) (enc : Nat) : State :=
  let e := if enc = encBf16 then 2 else 4
  let sp := f.space.val
  let who := s.accessLanes f.data f.addr
  let xs := who.2.map fun l => (l, s.effAddr f.addr sp f.off e l)
  if xs.isEmpty then s.slotDone
  else if s.badSpace [5] sp then s.trapHere (plainRec cSpace)
  else
    match laneTrap sp who.1 xs (fun x => x % e != 0) (fun _ => false) with
    | some r => s.trapHere r
    | none =>
      (s.addAcc (.ldred f.rcd.val enc) sp f.scope.val f.order.val 0 s.lrec.asid who.1 (s.regsOf f.data 2) []
        (xs.map fun x => Piece.fresh x.1 0 x.2.toNat 0)).slotDone

/-- LDRED (13 R327). -/
def execLdred (f : MF) (s : State) : Res := .next (s.ldred f encBf16)

/-- LDRED.F32 (13 R327). -/
def execLdredF32 (f : MF) (s : State) : Res := .next (s.ldred f encFp32)

end Sys2Proof.Machine
end

