-- ==== Sys2Proof/Machine/Scalar.lean ====
section
/-! DEFINITION. The scalar integer and address instructions (02 R50-R54) and NOP (01 R38). -/

namespace Sys2Proof.Machine

open Sys2Proof (Operand RF IF W32 W64)

/-- Write a scalar result and go on. -/
def scalarRes (s : State) (d : Operand) (x : W32) : Res := .next (s.wrS d x).slotDone

/-- Write a 64-bit scalar result and go on. -/
def scalarRes64 (s : State) (d : Operand) (x : W64) : Res := .next (s.wr64 d x).slotDone

/-- Sign-extend a 32-bit value to an address (02 R52). -/
def sext64 (x : W32) : W64 := x.signExtend 64

/-- NOP has no effect (01 R38). -/
def execNop (s : State) : Res := .next s.slotDone

/-- SADD (02 R50). -/
def execSadd (f : RF) (s : State) : Res := scalarRes s f.dst (s.rdS f.a + s.rdS f.b)

/-- SSUB (02 R50). -/
def execSsub (f : RF) (s : State) : Res := scalarRes s f.dst (s.rdS f.a - s.rdS f.b)

/-- SMUL (02 R50). -/
def execSmul (f : RF) (s : State) : Res := scalarRes s f.dst (s.rdS f.a * s.rdS f.b)

/-- SMULH (02 R50). -/
def execSmulh (f : RF) (s : State) : Res := scalarRes s f.dst (if f.sub.val = 1 then mulhs (s.rdS f.a) (s.rdS f.b) else mulhu (s.rdS f.a) (s.rdS f.b))

/-- SDIVU (02 R50). -/
def execSdivu (f : RF) (s : State) : Res := scalarRes s f.dst (divu (s.rdS f.a) (s.rdS f.b))

/-- SREMU (02 R50). -/
def execSremu (f : RF) (s : State) : Res := scalarRes s f.dst (remu (s.rdS f.a) (s.rdS f.b))

/-- SMIN (02 R50). -/
def execSmin (f : RF) (s : State) : Res := scalarRes s f.dst (minW (f.sub.val == 1) (s.rdS f.a) (s.rdS f.b))

/-- SMAX (02 R50). -/
def execSmax (f : RF) (s : State) : Res := scalarRes s f.dst (maxW (f.sub.val == 1) (s.rdS f.a) (s.rdS f.b))

/-- SAND (02 R50). -/
def execSand (f : RF) (s : State) : Res := scalarRes s f.dst (s.rdS f.a &&& s.rdS f.b)

/-- SOR (02 R50). -/
def execSor (f : RF) (s : State) : Res := scalarRes s f.dst (s.rdS f.a ||| s.rdS f.b)

/-- SXOR (02 R50). -/
def execSxor (f : RF) (s : State) : Res := scalarRes s f.dst (s.rdS f.a ^^^ s.rdS f.b)

/-- SNOT (02 R50). -/
def execSnot (f : RF) (s : State) : Res := scalarRes s f.dst (~~~(s.rdS f.a))

/-- SSHL (02 R50). -/
def execSshl (f : RF) (s : State) : Res := scalarRes s f.dst (shlW (s.rdS f.a) (s.rdS f.b).toNat)

/-- SSHR (02 R50). -/
def execSshr (f : RF) (s : State) : Res := scalarRes s f.dst (shrW (s.rdS f.a) (s.rdS f.b).toNat)

/-- SSRA (02 R50). -/
def execSsra (f : RF) (s : State) : Res := scalarRes s f.dst (sraW (s.rdS f.a) (s.rdS f.b).toNat)

/-- SCLZ (02 R50). -/
def execSclz (f : RF) (s : State) : Res := scalarRes s f.dst (clzW (s.rdS f.a))

/-- SPOPC (02 R50). -/
def execSpopc (f : RF) (s : State) : Res := scalarRes s f.dst (popcW (s.rdS f.a))

/-- SCMP (02 R50, R51). -/
def execScmp (f : RF) (s : State) : Res := scalarRes s f.dst (ofFlag (icond f.sub.val (s.rdS f.a) (s.rdS f.b)))

/-- SSEL (02 R50). -/
def execSsel (f : RF) (s : State) : Res := scalarRes s f.dst (if s.rdS f.c ≠ 0 then s.rdS f.a else s.rdS f.b)

/-- SMOV (02 R50). -/
def execSmov (f : RF) (s : State) : Res := scalarRes s f.dst (s.rdS f.a)

/-- SADDA: a 64-bit address plus a sign-extended 32-bit value (02 R52). -/
def execSadda (f : RF) (s : State) : Res := scalarRes64 s f.dst (s.rd64 f.a + sext64 (s.rdS f.b))

/-- SADD (I) (02 R53). -/
def execSaddI (f : IF) (s : State) : Res := scalarRes s f.dst (s.rdS f.a + f.imm)

/-- SSUB (I) (02 R53). -/
def execSsubI (f : IF) (s : State) : Res := scalarRes s f.dst (s.rdS f.a - f.imm)

/-- SMUL (I) (02 R53). -/
def execSmulI (f : IF) (s : State) : Res := scalarRes s f.dst (s.rdS f.a * f.imm)

/-- SMULH (I) (02 R53). -/
def execSmulhI (f : IF) (s : State) : Res := scalarRes s f.dst (if f.subh.val % 2 = 1 then mulhs (s.rdS f.a) (f.imm) else mulhu (s.rdS f.a) (f.imm))

/-- SDIVU (I) (02 R53). -/
def execSdivuI (f : IF) (s : State) : Res := scalarRes s f.dst (divu (s.rdS f.a) (f.imm))

/-- SREMU (I) (02 R53). -/
def execSremuI (f : IF) (s : State) : Res := scalarRes s f.dst (remu (s.rdS f.a) (f.imm))

/-- SMIN (I) (02 R53). -/
def execSminI (f : IF) (s : State) : Res := scalarRes s f.dst (minW (f.subh.val % 2 == 1) (s.rdS f.a) (f.imm))

/-- SMAX (I) (02 R53). -/
def execSmaxI (f : IF) (s : State) : Res := scalarRes s f.dst (maxW (f.subh.val % 2 == 1) (s.rdS f.a) (f.imm))

/-- SAND (I) (02 R53). -/
def execSandI (f : IF) (s : State) : Res := scalarRes s f.dst (s.rdS f.a &&& f.imm)

/-- SOR (I) (02 R53). -/
def execSorI (f : IF) (s : State) : Res := scalarRes s f.dst (s.rdS f.a ||| f.imm)

/-- SXOR (I) (02 R53). -/
def execSxorI (f : IF) (s : State) : Res := scalarRes s f.dst (s.rdS f.a ^^^ f.imm)

/-- SSHL (I) (02 R53). -/
def execSshlI (f : IF) (s : State) : Res := scalarRes s f.dst (shlW (s.rdS f.a) f.imm.toNat)

/-- SSHR (I) (02 R53). -/
def execSshrI (f : IF) (s : State) : Res := scalarRes s f.dst (shrW (s.rdS f.a) f.imm.toNat)

/-- SSRA (I) (02 R53). -/
def execSsraI (f : IF) (s : State) : Res := scalarRes s f.dst (sraW (s.rdS f.a) f.imm.toNat)

/-- SCMP (I) (02 R53, R51). -/
def execScmpI (f : IF) (s : State) : Res := scalarRes s f.dst (ofFlag (icond f.subh.val (s.rdS f.a) f.imm))

/-- SADDA (I): IMM32 sign-extended to 64 bits (02 R53). -/
def execSaddaI (f : IF) (s : State) : Res := scalarRes64 s f.dst (s.rd64 f.a + sext64 f.imm)

/-- SMOVI (02 R53). -/
def execSmovi (f : IF) (s : State) : Res := scalarRes s f.dst f.imm

/-- `size` little-endian bytes of the launch's argument copy (02 R54). -/
def State.argRead (s : State) (a size : Nat) : Nat :=
  match s.launchOf s.cw.launch with
  | some l => ofBytes ((List.range size).map fun i => ((l.args[a + i]?).getD 0).toNat)
  | none => 0

/-- SLDK (02 R54): a word or a pair of the argument block; a misaligned or outlying offset is the argument-range trap, whose record
holds the offset modulo 2^32 (DESIGN CHOICE: log 22). -/
def execSldk (f : IF) (s : State) : Res :=
  let a := (s.rdS f.a).toNat + f.imm.toNat
  let wide := f.subh.val % 2 == 1
  let size := if wide then 8 else 4
  if a % size ≠ 0 || a + size > s.lrec.argsize then .next (s.trapHere ⟨cArgRange, a % 2 ^ 32, 0, 0⟩)
  else if wide then scalarRes64 s f.dst (BitVec.ofNat 64 (s.argRead a 8))
  else scalarRes s f.dst (BitVec.ofNat 32 (s.argRead a 4))

/-- SADD.64 (02 R52). -/
def execSadd64 (f : RF) (s : State) : Res := scalarRes64 s f.dst (s.rd64 f.a + s.rd64 f.b)

/-- SSUB.64 (02 R52). -/
def execSsub64 (f : RF) (s : State) : Res := scalarRes64 s f.dst (s.rd64 f.a - s.rd64 f.b)

/-- SMUL.64 (02 R52). -/
def execSmul64 (f : RF) (s : State) : Res := scalarRes64 s f.dst (s.rd64 f.a * s.rd64 f.b)

/-- SMIN.64 (02 R52). -/
def execSmin64 (f : RF) (s : State) : Res := scalarRes64 s f.dst (minW (f.sub.val == 1) (s.rd64 f.a) (s.rd64 f.b))

/-- SMAX.64 (02 R52). -/
def execSmax64 (f : RF) (s : State) : Res := scalarRes64 s f.dst (maxW (f.sub.val == 1) (s.rd64 f.a) (s.rd64 f.b))

/-- SAND.64 (02 R52). -/
def execSand64 (f : RF) (s : State) : Res := scalarRes64 s f.dst (s.rd64 f.a &&& s.rd64 f.b)

/-- SOR.64 (02 R52). -/
def execSor64 (f : RF) (s : State) : Res := scalarRes64 s f.dst (s.rd64 f.a ||| s.rd64 f.b)

/-- SXOR.64 (02 R52). -/
def execSxor64 (f : RF) (s : State) : Res := scalarRes64 s f.dst (s.rd64 f.a ^^^ s.rd64 f.b)

/-- SSHL.64 (02 R52). -/
def execSshl64 (f : RF) (s : State) : Res := scalarRes64 s f.dst (shlW (s.rd64 f.a) (s.rdS f.b).toNat)

/-- SSHR.64 (02 R52). -/
def execSshr64 (f : RF) (s : State) : Res := scalarRes64 s f.dst (shrW (s.rd64 f.a) (s.rdS f.b).toNat)

/-- SSRA.64 (02 R52). -/
def execSsra64 (f : RF) (s : State) : Res := scalarRes64 s f.dst (sraW (s.rd64 f.a) (s.rdS f.b).toNat)

/-- SCMP.64: compares pairs into one scalar (02 R52). -/
def execScmp64 (f : RF) (s : State) : Res := scalarRes s f.dst (ofFlag (icond f.sub.val (s.rd64 f.a) (s.rd64 f.b)))

/-- SMOV.64 (02 R52). -/
def execSmov64 (f : RF) (s : State) : Res := scalarRes64 s f.dst (s.rd64 f.a)

end Sys2Proof.Machine
end

