-- ==== Sys2Proof/Machine/System.lean ====
section
/-! DEFINITION. The system registers, TRAP, BKPT and ERET (02 R59-R63). -/

namespace Sys2Proof.Machine

open Sys2Proof (Operand RF IF W32 W64 SMap.getD)

/-- The clk count of the core of the wave in focus (02 R59). -/
def State.coreClks (s : State) : Nat := SMap.getD s.coreClk s.cw.core 0

/-- The value of a system register (02 R59). -/
def State.sysRead (s : State) (n : Nat) : W32 :=
  match n with
  | 0x00 => s.cw.wsr
  | 0x01 => s.cw.tcause
  | 0x02 => s.cw.tclause
  | 0x03 => s.cw.tslot
  | 0x04 => s.cw.taddrlo
  | 0x05 => s.cw.taddrhi
  | 0x06 => s.cw.tdata
  | 0x07 => s.cw.tlanes
  | 0x10 => BitVec.ofNat 32 s.coreClks
  | 0x11 => s.cw.pa.clkhi
  | 0x12 => BitVec.ofNat 32 s.ref
  | 0x13 => s.cw.pa.refhi
  | 0x18 => BitVec.ofNat 32 s.lrec.wincap
  | 0x19 => BitVec.ofNat 32 s.cw.wsize
  | _ => BitVec.ofNat 32 s.cw.links.length

/-- A system register is written, a latch that of the path in focus (04 R109). -/
def State.cleanSys (s : State) (n : Nat) : State :=
  s.onWave fun w => w.clean poisonSys n (if n < 0x10 then 0 else w.second.toNat)

/-- A read of CLKLO or REFLO latches the high half for the path (02 R59). -/
def State.sysLatch (s : State) (n : Nat) : State :=
  match n with
  | 0x10 => (s.cleanSys 0x11).onPa fun p => { p with clkhi := BitVec.ofNat 32 (s.coreClks / 4294967296) }
  | 0x12 => (s.cleanSys 0x13).onPa fun p => { p with refhi := BitVec.ofNat 32 (s.ref / 4294967296) }
  | _ => s

/-- A WSR with RM, FTZ and WPK written; RM 5 to 7 keeps the previous mode (02 R60). -/
def Wave.writeWsr (w : Wave) (x : W32) : Wave :=
  { w with wsr := mkWsr w.forked w.tm (x.getLsbD 4) (x.getLsbD 3) (if x.toNat % 8 ≤ 4 then x.toNat % 8 else w.rm) }

/-- A write of a system register: a read-only one ignores it (02 R59, 00 R6). -/
def State.sysWrite (s : State) (n : Nat) (x : W32) : State :=
  match n with
  | 0x00 => (s.cleanSys 0).onWave fun w => w.writeWsr x
  | 0x02 => (s.cleanSys 2).onWave fun w => { w with tclause := x }
  | 0x03 => if x.toNat ≤ 17 then (s.cleanSys 3).onWave fun w => { w with tslot := x } else s
  | _ => s

/-- The system register a raw number in SRCA names (02 R62). -/
def sysNum (o : Operand) : Nat := idxOf o

/-- MFSR (02 R62). -/
def execMfsr (f : RF) (s : State) : Res := .next ((s.sysLatch (sysNum f.a)).wrS f.dst (s.sysRead (sysNum f.a))).slotDone

/-- MTSR (02 R62). -/
def execMtsr (f : RF) (s : State) : Res := .next (s.sysWrite (sysNum f.a) (s.rdS f.b)).slotDone

/-- MTSR.I (02 R62). -/
def execMtsrI (f : IF) (s : State) : Res := .next (s.sysWrite (sysNum f.a) f.imm).slotDone

/-- SRM and SRM.FTZ (02 R62). -/
def execSrm (f : IF) (s : State) : Res :=
  .next (s.onWave fun w =>
    { w with wsr := mkWsr w.forked w.tm w.wpk (if f.subh.val % 2 = 1 then f.imm.getLsbD 3 else w.ftz) (f.imm.toNat % 8) }).slotDone

/-- TRAP (02 R62). -/
def execTrap (f : IF) (s : State) : Res := .next (s.trapNext (dataRec cSoftware f.imm.toNat))

/-- BKPT: a trap where the launch record's debug flag is 1 (02 R62). -/
def execBkpt (f : IF) (s : State) : Res :=
  .next (if s.lrec.debug then s.trapNext (dataRec cBreakpoint f.imm.toNat) else s.slotDone)

/-- ERET (02 R63). -/
def execEret (s : State) : Res := .next s.eret

end Sys2Proof.Machine
end

