-- ==== Sys2Proof/Machine/Dispatch.lean ====
section
/-! DEFINITION. The meaning of every instruction and event, one arm each. -/

namespace Sys2Proof.Machine

open Sys2Proof (Instr)

def exec (i : Instr) (s : State) : Host.Outcome State Fault Refusal :=
  match i with
  | .nop => Sys2Proof.Machine.execNop s
  | .sadd f => Sys2Proof.Machine.execSadd f s
  | .ssub f => Sys2Proof.Machine.execSsub f s
  | .smul f => Sys2Proof.Machine.execSmul f s
  | .smulh f => Sys2Proof.Machine.execSmulh f s
  | .sdivu f => Sys2Proof.Machine.execSdivu f s
  | .sremu f => Sys2Proof.Machine.execSremu f s
  | .smin f => Sys2Proof.Machine.execSmin f s
  | .smax f => Sys2Proof.Machine.execSmax f s
  | .sand f => Sys2Proof.Machine.execSand f s
  | .sor f => Sys2Proof.Machine.execSor f s
  | .sxor f => Sys2Proof.Machine.execSxor f s
  | .snot f => Sys2Proof.Machine.execSnot f s
  | .sshl f => Sys2Proof.Machine.execSshl f s
  | .sshr f => Sys2Proof.Machine.execSshr f s
  | .ssra f => Sys2Proof.Machine.execSsra f s
  | .sclz f => Sys2Proof.Machine.execSclz f s
  | .spopc f => Sys2Proof.Machine.execSpopc f s
  | .scmp f => Sys2Proof.Machine.execScmp f s
  | .ssel f => Sys2Proof.Machine.execSsel f s
  | .smov f => Sys2Proof.Machine.execSmov f s
  | .sadda f => Sys2Proof.Machine.execSadda f s
  | .saddI f => Sys2Proof.Machine.execSaddI f s
  | .ssubI f => Sys2Proof.Machine.execSsubI f s
  | .smulI f => Sys2Proof.Machine.execSmulI f s
  | .smulhI f => Sys2Proof.Machine.execSmulhI f s
  | .sdivuI f => Sys2Proof.Machine.execSdivuI f s
  | .sremuI f => Sys2Proof.Machine.execSremuI f s
  | .sminI f => Sys2Proof.Machine.execSminI f s
  | .smaxI f => Sys2Proof.Machine.execSmaxI f s
  | .sandI f => Sys2Proof.Machine.execSandI f s
  | .sorI f => Sys2Proof.Machine.execSorI f s
  | .sxorI f => Sys2Proof.Machine.execSxorI f s
  | .sshlI f => Sys2Proof.Machine.execSshlI f s
  | .sshrI f => Sys2Proof.Machine.execSshrI f s
  | .ssraI f => Sys2Proof.Machine.execSsraI f s
  | .scmpI f => Sys2Proof.Machine.execScmpI f s
  | .saddaI f => Sys2Proof.Machine.execSaddaI f s
  | .smovi f => Sys2Proof.Machine.execSmovi f s
  | .sldk f => Sys2Proof.Machine.execSldk f s
  | .sadd64 f => Sys2Proof.Machine.execSadd64 f s
  | .ssub64 f => Sys2Proof.Machine.execSsub64 f s
  | .smul64 f => Sys2Proof.Machine.execSmul64 f s
  | .smin64 f => Sys2Proof.Machine.execSmin64 f s
  | .smax64 f => Sys2Proof.Machine.execSmax64 f s
  | .sand64 f => Sys2Proof.Machine.execSand64 f s
  | .sor64 f => Sys2Proof.Machine.execSor64 f s
  | .sxor64 f => Sys2Proof.Machine.execSxor64 f s
  | .sshl64 f => Sys2Proof.Machine.execSshl64 f s
  | .sshr64 f => Sys2Proof.Machine.execSshr64 f s
  | .ssra64 f => Sys2Proof.Machine.execSsra64 f s
  | .scmp64 f => Sys2Proof.Machine.execScmp64 f s
  | .smov64 f => Sys2Proof.Machine.execSmov64 f s
  | .br f => Sys2Proof.Machine.execBr f s
  | .brc f => Sys2Proof.Machine.execBrc f s
  | .call f => Sys2Proof.Machine.execCall f s
  | .ret f => Sys2Proof.Machine.execRet f s
  | .bri f => Sys2Proof.Machine.execBri f s
  | .endP f => Sys2Proof.Machine.execEndP f s
  | .fork f => Sys2Proof.Machine.execFork f s
  | .join f => Sys2Proof.Machine.execJoin f s
  | .ppush f => Sys2Proof.Machine.execPpush f s
  | .pinv f => Sys2Proof.Machine.execPinv f s
  | .ppop f => Sys2Proof.Machine.execPpop f s
  | .pset f => Sys2Proof.Machine.execPset f s
  | .ppack f => Sys2Proof.Machine.execPpack f s
  | .punpk f => Sys2Proof.Machine.execPunpk f s
  | .pany f => Sys2Proof.Machine.execPany f s
  | .pall f => Sys2Proof.Machine.execPall f s
  | .vadd f => Sys2Proof.Machine.execVadd f s
  | .vsub f => Sys2Proof.Machine.execVsub f s
  | .vmul f => Sys2Proof.Machine.execVmul f s
  | .vmulh f => Sys2Proof.Machine.execVmulh f s
  | .vmad f => Sys2Proof.Machine.execVmad f s
  | .vmin f => Sys2Proof.Machine.execVmin f s
  | .vmax f => Sys2Proof.Machine.execVmax f s
  | .vand f => Sys2Proof.Machine.execVand f s
  | .vor f => Sys2Proof.Machine.execVor f s
  | .vxor f => Sys2Proof.Machine.execVxor f s
  | .vnot f => Sys2Proof.Machine.execVnot f s
  | .vshl f => Sys2Proof.Machine.execVshl f s
  | .vshr f => Sys2Proof.Machine.execVshr f s
  | .vsra f => Sys2Proof.Machine.execVsra f s
  | .vclz f => Sys2Proof.Machine.execVclz f s
  | .vpopc f => Sys2Proof.Machine.execVpopc f s
  | .vcmp f => Sys2Proof.Machine.execVcmp f s
  | .vsel f => Sys2Proof.Machine.execVsel f s
  | .vmov f => Sys2Proof.Machine.execVmov f s
  | .vbcst f => Sys2Proof.Machine.execVbcst f s
  | .vlane f => Sys2Proof.Machine.execVlane f s
  | .vshfl f => Sys2Proof.Machine.execVshfl f s
  | .vred f => Sys2Proof.Machine.execVred f s
  | .vscan f => Sys2Proof.Machine.execVscan f s
  | .vaddI f => Sys2Proof.Machine.execVaddI f s
  | .vsubI f => Sys2Proof.Machine.execVsubI f s
  | .vmulI f => Sys2Proof.Machine.execVmulI f s
  | .vminI f => Sys2Proof.Machine.execVminI f s
  | .vmaxI f => Sys2Proof.Machine.execVmaxI f s
  | .vandI f => Sys2Proof.Machine.execVandI f s
  | .vorI f => Sys2Proof.Machine.execVorI f s
  | .vxorI f => Sys2Proof.Machine.execVxorI f s
  | .vshlI f => Sys2Proof.Machine.execVshlI f s
  | .vshrI f => Sys2Proof.Machine.execVshrI f s
  | .vsraI f => Sys2Proof.Machine.execVsraI f s
  | .vcmpI f => Sys2Proof.Machine.execVcmpI f s
  | .vselI f => Sys2Proof.Machine.execVselI f s
  | .vmovI f => Sys2Proof.Machine.execVmovI f s
  | .vlaneI f => Sys2Proof.Machine.execVlaneI f s
  | .vshflI f => Sys2Proof.Machine.execVshflI f s
  | .vadd64 f => Sys2Proof.Machine.execVadd64 f s
  | .vshl64 f => Sys2Proof.Machine.execVshl64 f s
  | .vredF f => Sys2Proof.Machine.execVredF f s
  | .vscanF f => Sys2Proof.Machine.execVscanF f s
  | .fadd f => Sys2Proof.Machine.execFadd f s
  | .fsub f => Sys2Proof.Machine.execFsub f s
  | .fmul f => Sys2Proof.Machine.execFmul f s
  | .ffma f => Sys2Proof.Machine.execFfma f s
  | .fmin f => Sys2Proof.Machine.execFmin f s
  | .fmax f => Sys2Proof.Machine.execFmax f s
  | .fcmp f => Sys2Proof.Machine.execFcmp f s
  | .frcp f => Sys2Proof.Machine.execFrcp f s
  | .frsq f => Sys2Proof.Machine.execFrsq f s
  | .fsqrt f => Sys2Proof.Machine.execFsqrt f s
  | .fexp2 f => Sys2Proof.Machine.execFexp2 f s
  | .flog2 f => Sys2Proof.Machine.execFlog2 f s
  | .fsin f => Sys2Proof.Machine.execFsin f s
  | .fcos f => Sys2Proof.Machine.execFcos f s
  | .frnd f => Sys2Proof.Machine.execFrnd f s
  | .fcvt f => Sys2Proof.Machine.execFcvt f s
  | .faddI f => Sys2Proof.Machine.execFaddI f s
  | .fsubI f => Sys2Proof.Machine.execFsubI f s
  | .fmulI f => Sys2Proof.Machine.execFmulI f s
  | .fminI f => Sys2Proof.Machine.execFminI f s
  | .fmaxI f => Sys2Proof.Machine.execFmaxI f s
  | .fcmpI f => Sys2Proof.Machine.execFcmpI f s
  | .faddH2 f => Sys2Proof.Machine.execFaddH2 f s
  | .fsubH2 f => Sys2Proof.Machine.execFsubH2 f s
  | .fmulH2 f => Sys2Proof.Machine.execFmulH2 f s
  | .ffmaH2 f => Sys2Proof.Machine.execFfmaH2 f s
  | .fminH2 f => Sys2Proof.Machine.execFminH2 f s
  | .fmaxH2 f => Sys2Proof.Machine.execFmaxH2 f s
  | .faddB2 f => Sys2Proof.Machine.execFaddB2 f s
  | .fsubB2 f => Sys2Proof.Machine.execFsubB2 f s
  | .fmulB2 f => Sys2Proof.Machine.execFmulB2 f s
  | .ffmaB2 f => Sys2Proof.Machine.execFfmaB2 f s
  | .fminB2 f => Sys2Proof.Machine.execFminB2 f s
  | .fmaxB2 f => Sys2Proof.Machine.execFmaxB2 f s
  | .vdot4 f => Sys2Proof.Machine.execVdot4 f s
  | .vdot8 f => Sys2Proof.Machine.execVdot8 f s
  | .vpk f => Sys2Proof.Machine.execVpk f s
  | .vupk f => Sys2Proof.Machine.execVupk f s
  | .ldZx8 f => Sys2Proof.Machine.execLdZx8 f s
  | .ldSx8 f => Sys2Proof.Machine.execLdSx8 f s
  | .ldZx16 f => Sys2Proof.Machine.execLdZx16 f s
  | .ldSx16 f => Sys2Proof.Machine.execLdSx16 f s
  | .ldB32 f => Sys2Proof.Machine.execLdB32 f s
  | .ldB64 f => Sys2Proof.Machine.execLdB64 f s
  | .ldB128 f => Sys2Proof.Machine.execLdB128 f s
  | .stB8 f => Sys2Proof.Machine.execStB8 f s
  | .stB16 f => Sys2Proof.Machine.execStB16 f s
  | .stB32 f => Sys2Proof.Machine.execStB32 f s
  | .stB64 f => Sys2Proof.Machine.execStB64 f s
  | .stB128 f => Sys2Proof.Machine.execStB128 f s
  | .ldb f => Sys2Proof.Machine.execLdb f s
  | .stb f => Sys2Proof.Machine.execStb f s
  | .ldlB32 f => Sys2Proof.Machine.execLdlB32 f s
  | .ldlB64 f => Sys2Proof.Machine.execLdlB64 f s
  | .ldlB128 f => Sys2Proof.Machine.execLdlB128 f s
  | .stlB32 f => Sys2Proof.Machine.execStlB32 f s
  | .stlB64 f => Sys2Proof.Machine.execStlB64 f s
  | .stlB128 f => Sys2Proof.Machine.execStlB128 f s
  | .atomAdd f => Sys2Proof.Machine.execAtomAdd f s
  | .atomSmin f => Sys2Proof.Machine.execAtomSmin f s
  | .atomSmax f => Sys2Proof.Machine.execAtomSmax f s
  | .atomUmin f => Sys2Proof.Machine.execAtomUmin f s
  | .atomUmax f => Sys2Proof.Machine.execAtomUmax f s
  | .atomAnd f => Sys2Proof.Machine.execAtomAnd f s
  | .atomOr f => Sys2Proof.Machine.execAtomOr f s
  | .atomXor f => Sys2Proof.Machine.execAtomXor f s
  | .atomXchg f => Sys2Proof.Machine.execAtomXchg f s
  | .atomCas f => Sys2Proof.Machine.execAtomCas f s
  | .atomFadd f => Sys2Proof.Machine.execAtomFadd f s
  | .atomAddB64 f => Sys2Proof.Machine.execAtomAddB64 f s
  | .atomUminB64 f => Sys2Proof.Machine.execAtomUminB64 f s
  | .atomUmaxB64 f => Sys2Proof.Machine.execAtomUmaxB64 f s
  | .atomXchgB64 f => Sys2Proof.Machine.execAtomXchgB64 f s
  | .atomCasB64 f => Sys2Proof.Machine.execAtomCasB64 f s
  | .redAdd f => Sys2Proof.Machine.execRedAdd f s
  | .redSmin f => Sys2Proof.Machine.execRedSmin f s
  | .redSmax f => Sys2Proof.Machine.execRedSmax f s
  | .redUmin f => Sys2Proof.Machine.execRedUmin f s
  | .redUmax f => Sys2Proof.Machine.execRedUmax f s
  | .redAnd f => Sys2Proof.Machine.execRedAnd f s
  | .redOr f => Sys2Proof.Machine.execRedOr f s
  | .redXor f => Sys2Proof.Machine.execRedXor f s
  | .redFadd f => Sys2Proof.Machine.execRedFadd f s
  | .redAddB64 f => Sys2Proof.Machine.execRedAddB64 f s
  | .fence f => Sys2Proof.Machine.execFence f s
  | .cinv f => Sys2Proof.Machine.execCinv f s
  | .cflush f => Sys2Proof.Machine.execCflush f s
  | .pref f => Sys2Proof.Machine.execPref f s
  | .hld f => Sys2Proof.Machine.execHld f s
  | .hst f => Sys2Proof.Machine.execHst f s
  | .hsetf f => Sys2Proof.Machine.execHsetf f s
  | .hgetf f => Sys2Proof.Machine.execHgetf f s
  | .copy f => Sys2Proof.Machine.execCopy f s
  | .copyc f => Sys2Proof.Machine.execCopyc f s
  | .cpfill f => Sys2Proof.Machine.execCpfill f s
  | .bar f => Sys2Proof.Machine.execBar f s
  | .bara f => Sys2Proof.Machine.execBara f s
  | .barw f => Sys2Proof.Machine.execBarw f s
  | .bcnt f => Sys2Proof.Machine.execBcnt f s
  | .barx f => Sys2Proof.Machine.execBarx f s
  | .aclose f => Sys2Proof.Machine.execAclose f s
  | .wait f => Sys2Proof.Machine.execWait f s
  | .mttc f => Sys2Proof.Machine.execMttc f s
  | .tld f => Sys2Proof.Machine.execTld f s
  | .tldc f => Sys2Proof.Machine.execTldc f s
  | .tst f => Sys2Proof.Machine.execTst f s
  | .tzero f => Sys2Proof.Machine.execTzero f s
  | .tmov f => Sys2Proof.Machine.execTmov f s
  | .azero f => Sys2Proof.Machine.execAzero f s
  | .mma f => Sys2Proof.Machine.execMma f s
  | .mmas f => Sys2Proof.Machine.execMmas f s
  | .mmap f => Sys2Proof.Machine.execMmap f s
  | .mdrain f => Sys2Proof.Machine.execMdrain f s
  | .mdrainP f => Sys2Proof.Machine.execMdrainP f s
  | .mfenceOp => Sys2Proof.Machine.execMfenceOp s
  | .mfenceAcc f => Sys2Proof.Machine.execMfenceAcc f s
  | .mact f => Sys2Proof.Machine.execMact f s
  | .mdtab f => Sys2Proof.Machine.execMdtab f s
  | .vcvt f => Sys2Proof.Machine.execVcvt f s
  | .vcvtAcc f => Sys2Proof.Machine.execVcvtAcc f s
  | .bdset f => Sys2Proof.Machine.execBdset f s
  | .ttprog f => Sys2Proof.Machine.execTtprog f s
  | .ttbuf f => Sys2Proof.Machine.execTtbuf f s
  | .ttstep f => Sys2Proof.Machine.execTtstep f s
  | .ttrun f => Sys2Proof.Machine.execTtrun f s
  | .rbox f => Sys2Proof.Machine.execRbox f s
  | .rtri f => Sys2Proof.Machine.execRtri f s
  | .tsinit f => Sys2Proof.Machine.execTsinit f s
  | .tspush f => Sys2Proof.Machine.execTspush f s
  | .tspop f => Sys2Proof.Machine.execTspop f s
  | .nmwalk f => Sys2Proof.Machine.execNmwalk f s
  | .wadd f => Sys2Proof.Machine.execWadd f s
  | .wsub f => Sys2Proof.Machine.execWsub f s
  | .wmul f => Sys2Proof.Machine.execWmul f s
  | .wfma f => Sys2Proof.Machine.execWfma f s
  | .wmin f => Sys2Proof.Machine.execWmin f s
  | .wmax f => Sys2Proof.Machine.execWmax f s
  | .wexp f => Sys2Proof.Machine.execWexp f s
  | .wspl f => Sys2Proof.Machine.execWspl f s
  | .wget f => Sys2Proof.Machine.execWget f s
  | .wset f => Sys2Proof.Machine.execWset f s
  | .wsum f => Sys2Proof.Machine.execWsum f s
  | .wmm f => Sys2Proof.Machine.execWmm f s
  | .sxl f => Sys2Proof.Machine.execSxl f s
  | .sxlg f => Sys2Proof.Machine.execSxlg f s
  | .filmadd f => Sys2Proof.Machine.execFilmadd f s
  | .waddV f => Sys2Proof.Machine.execWaddV f s
  | .wsubV f => Sys2Proof.Machine.execWsubV f s
  | .wmulV f => Sys2Proof.Machine.execWmulV f s
  | .wfmaV f => Sys2Proof.Machine.execWfmaV f s
  | .wminV f => Sys2Proof.Machine.execWminV f s
  | .wmaxV f => Sys2Proof.Machine.execWmaxV f s
  | .spawn f => Sys2Proof.Machine.execSpawn f s
  | .spawnc f => Sys2Proof.Machine.execSpawnc f s
  | .spawnr f => Sys2Proof.Machine.execSpawnr f s
  | .tnext f => Sys2Proof.Machine.execTnext f s
  | .tres f => Sys2Proof.Machine.execTres f s
  | .tcommit f => Sys2Proof.Machine.execTcommit f s
  | .tcancel f => Sys2Proof.Machine.execTcancel f s
  | .tend => Sys2Proof.Machine.execTend s
  | .ldred f => Sys2Proof.Machine.execLdred f s
  | .ldredF32 f => Sys2Proof.Machine.execLdredF32 f s
  | .moota f => Sys2Proof.Machine.execMoota f s
  | .mootd => Sys2Proof.Machine.execMootd s
  | .mootq f => Sys2Proof.Machine.execMootq f s
  | .mfsr f => Sys2Proof.Machine.execMfsr f s
  | .mtsr f => Sys2Proof.Machine.execMtsr f s
  | .mtsrI f => Sys2Proof.Machine.execMtsrI f s
  | .srm f => Sys2Proof.Machine.execSrm f s
  | .trap f => Sys2Proof.Machine.execTrap f s
  | .bkpt f => Sys2Proof.Machine.execBkpt f s
  | .eret => Sys2Proof.Machine.execEret s
  | .ptprd f => Sys2Proof.Machine.execPtprd f s
  | .framec f => Sys2Proof.Machine.execFramec f s
  | .snap f => Sys2Proof.Machine.execSnap f s
  | .clauseStart core part pipe => Sys2Proof.Machine.execClauseStart core part pipe s
  | .pathResume uid second => Sys2Proof.Machine.execPathResume uid second s
  | .memoryResponse id pieces => Sys2Proof.Machine.execMemoryResponse id pieces s
  | .storePerform id pieces => Sys2Proof.Machine.execStorePerform id pieces s
  | .deliveredFault uid second => Sys2Proof.Machine.execDeliveredFault uid second s
  | .pagerResolve token => Sys2Proof.Machine.execPagerResolve token s
  | .pagerReject token => Sys2Proof.Machine.execPagerReject token s
  | .copyUnitsLand op elems => Sys2Proof.Machine.execCopyUnitsLand op elems s
  | .copyFault op elem => Sys2Proof.Machine.execCopyFault op elem s
  | .asyncOpComplete op => Sys2Proof.Machine.execAsyncOpComplete op s
  | .engineOpStart op => Sys2Proof.Machine.execEngineOpStart op s
  | .pairOpStart op => Sys2Proof.Machine.execPairOpStart op s
  | .engineOpComplete op => Sys2Proof.Machine.execEngineOpComplete op s
  | .sequencerStep op => Sys2Proof.Machine.execSequencerStep op s
  | .nmWalkPass op ray => Sys2Proof.Machine.execNmWalkPass op ray s
  | .nmWalkComplete op => Sys2Proof.Machine.execNmWalkComplete op s
  | .waitEvaluate uid second => Sys2Proof.Machine.execWaitEvaluate uid second s
  | .waitTimeout uid second => Sys2Proof.Machine.execWaitTimeout uid second s
  | .mootaTimeout uid second => Sys2Proof.Machine.execMootaTimeout uid second s
  | .gangAttachComplete gid => Sys2Proof.Machine.execGangAttachComplete gid s
  | .blockPlace launch places => Sys2Proof.Machine.execBlockPlace launch places s
  | .blockStart block => Sys2Proof.Machine.execBlockStart block s
  | .blockExit block => Sys2Proof.Machine.execBlockExit block s
  | .launchComplete launch => Sys2Proof.Machine.execLaunchComplete launch s
  | .launchAccept queue => Sys2Proof.Machine.execLaunchAccept queue s
  | .dependenceRead launch dep => Sys2Proof.Machine.execDependenceRead launch dep s
  | .doorbell fn queue addr => Sys2Proof.Machine.execDoorbell fn queue addr s
  | .qctlWrite fn queue value => Sys2Proof.Machine.execQctlWrite fn queue value s
  | .stfaultClear fn queue value => Sys2Proof.Machine.execStfaultClear fn queue value s
  | .gangTurnGrant gid => Sys2Proof.Machine.execGangTurnGrant gid s
  | .gangStart gid => Sys2Proof.Machine.execGangStart gid s
  | .gangAbandon gid => Sys2Proof.Machine.execGangAbandon gid s
  | .preemptWaitExpiry launch => Sys2Proof.Machine.execPreemptWaitExpiry launch s
  | .preemptSwap launch places => Sys2Proof.Machine.execPreemptSwap launch places s
  | .bankExchange core => Sys2Proof.Machine.execBankExchange core s
  | .swapBack core => Sys2Proof.Machine.execSwapBack core s
  | .contextSave block => Sys2Proof.Machine.execContextSave block s
  | .contextRestore block places => Sys2Proof.Machine.execContextRestore block places s
  | .taskWaveStart core slot record => Sys2Proof.Machine.execTaskWaveStart core slot record s
  | .taskGatherTimeout core => Sys2Proof.Machine.execTaskGatherTimeout core s
  | .workRequest core donor => Sys2Proof.Machine.execWorkRequest core donor s
  | .futureResume uid slot => Sys2Proof.Machine.execFutureResume uid slot s
  | .triggerEvaluate => Sys2Proof.Machine.execTriggerEvaluate s
  | .frameDeadline stream => Sys2Proof.Machine.execFrameDeadline stream s
  | .streamEnable stream => Sys2Proof.Machine.execStreamEnable stream s
  | .streamDisable stream => Sys2Proof.Machine.execStreamDisable stream s
  | .ptpMessageReceive offset => Sys2Proof.Machine.execPtpMessageReceive offset s
  | .snapgo tag => Sys2Proof.Machine.execSnapgo tag s
  | .snapPtpFire => Sys2Proof.Machine.execSnapPtpFire s
  | .snapBusyClear => Sys2Proof.Machine.execSnapBusyClear s
  | .powerSample watts temp => Sys2Proof.Machine.execPowerSample watts temp s
  | .thermalTrip => Sys2Proof.Machine.execThermalTrip s
  | .moduleReset powerOn => Sys2Proof.Machine.execModuleReset powerOn s
  | .modreset value => Sys2Proof.Machine.execModreset value s
  | .vfFunctionLevelReset fn => Sys2Proof.Machine.execVfFunctionLevelReset fn s
  | .bringUpComplete => Sys2Proof.Machine.execBringUpComplete s
  | .invgo => Sys2Proof.Machine.execInvgo s
  | .invalidationComplete => Sys2Proof.Machine.execInvalidationComplete s
  | .sensors len tag => Sys2Proof.Machine.execSensors len tag s
  | .logread len tag => Sys2Proof.Machine.execLogread len tag s
  | .fwstage len tag => Sys2Proof.Machine.execFwstage len tag s
  | .fwcommit len tag => Sys2Proof.Machine.execFwcommit len tag s
  | .measure len tag => Sys2Proof.Machine.execMeasure len tag s
  | .extend len tag => Sys2Proof.Machine.execExtend len tag s
  | .quote len tag => Sys2Proof.Machine.execQuote len tag s
  | .ptpcfg len tag => Sys2Proof.Machine.execPtpcfg len tag s
  | .mailboxComplete => Sys2Proof.Machine.execMailboxComplete s
  | .logPersist n => Sys2Proof.Machine.execLogPersist n s
  | .hostAccess op hostMem addr n data => Sys2Proof.Machine.execHostAccess op hostMem addr n data s
  | .registerWrite fn off n value => Sys2Proof.Machine.execRegisterWrite fn off n value s
  | .fabricLinkUp pkgid incarn => Sys2Proof.Machine.execFabricLinkUp pkgid incarn s
  | .stationStateChange station up => Sys2Proof.Machine.execStationStateChange station up s
  | .fabricPacketReceive incarn src seq kind gid addr n data => Sys2Proof.Machine.execFabricPacketReceive incarn src seq kind gid addr n data s
  | .idleBeat station => Sys2Proof.Machine.execIdleBeat station s
  | .fabricResend id => Sys2Proof.Machine.execFabricResend id s
  | .keepWaitingNotice id => Sys2Proof.Machine.execKeepWaitingNotice id s
  | .remoteTimeout id => Sys2Proof.Machine.execRemoteTimeout id s
  | .departureNotice gid ranks => Sys2Proof.Machine.execDepartureNotice gid ranks s
  | .lossOfLock => Sys2Proof.Machine.execLossOfLock s
  | .checkBitError place core slot reg lane byte corrected => Sys2Proof.Machine.execCheckBitError place core slot reg lane byte corrected s
  | .pqtailWrite value => Sys2Proof.Machine.execPqtailWrite value s

end Sys2Proof.Machine
end

