-- ==== Sys2Proof/Machine/Time.lean ====
section
/-! DEFINITION. The passing of time: one clk of the core clock and one ref tick (00 R4; 16 R347-R351; 18 R371, R383; 20 R429, R430).
-/

namespace Sys2Proof.Machine

open Sys2Proof (SMap SMap.set SMap.getD)
open Sys2Proof.Config (partOf)

/-- The cores whose counters have been written (20 R430). -/
def State.countedCores (s : State) : List Nat :=
  s.bar.foldl (fun l x => if 0x100000 ≤ x.1 && x.1 < 0x138000 then insertNat ((x.1 - 0x100000) / 0x200) l else l) []

/-- The sources of a core that count every clk: clk, parked paths, array busy; a core without a wave gates its clock
(20 R430, R431). -/
def State.countClk (s : State) (core : Nat) : State :=
  if !s.allWaves.any fun w => w.core == core && (w.resid == .active || w.resid == .shadow) then s
  else
    let s1 := s.countCore core 1 8 1
    let s2 := (List.range 8).foldl (fun (t : State) p =>
      t.countCore core 4 p ((s.partPaths core p).countP fun x => !(x.1.path x.2).elig)) s1
    if (s.queueOf core).any fun (o : AOp) => o.started && o.kind.unit == 0 then s2.countCore core 7 8 1 else s2

/-- The cores that hold a wave in a bank: the others gate their clocks (20 R431). -/
def State.clockedCores (s : State) : List Nat :=
  (s.allWaves.filter fun w => w.resid == .active || w.resid == .shadow).foldl (fun l w => insertNat w.core l) []

/-- One clk of every core (02 R59). -/
def State.clkTurn (s : State) : State :=
  { s.countedCores.foldl State.countClk s with
    clk := s.clk + 1, coreClk := s.clockedCores.foldl (fun m c => SMap.set m c (SMap.getD m c 0 + 1)) s.coreClk }

/-- The clk of the next ref tick, in hundredths: a tick lasts CLKMHZ / 100 clk (00 R4, 20 R431). -/
def State.nextTick (s : State) : Nat := s.tickClk + fld (s.barWord barPSTAT) 0 12

/-- One ref tick: what acts at the tick that ends, the deadline steps, the records that waited on a page, the PTP firing and the
SNAPs, after its commits, and the steward's submissions, after its doorbells; then the tick advances, with the time, and the trigger
table is evaluated (16 R347, R349, R351, R352; 18 R360; 20 R429). -/
def State.tickTurn (s : State) : State :=
  let s1 := (s.streams.map (·.1)).foldl (fun (s : State) n => (s.frameStep n).writeFrames n) s
  let s2 := s1.snapPtp.snapTick.stewardSubmits
  { s2 with ref := s2.ref + 1, tickClk := min s2.nextTick (100 * s2.clk) }.ptpTick.evalTriggers.askGangs.noteWaiting

/-- A cache drops a sector, writing dirty bytes out first (08 R184). -/
def State.evictTurn (s : State) (n : Nat) : State :=
  match s.sectors[n]? with
  | some x => s.writeBack x true
  | none => s

/-- The accesses to come are given the tables' translation in place of a cached one, or the cached one again: after a change
without the invalidation sequence each access takes the old or the new (08 R195). -/
def State.dropTlbTurn (s : State) (n : Nat) : State := { s with tlb := s.tlb.modify n fun e => { e with hid := !e.hid } }

end Sys2Proof.Machine
end

