-- ==== Sys2Proof/Machine/Auto.lean ====
section
/-! DEFINITION. What acts next when no order of the agents is given, the two paths of a fork in one clk, and placing an instruction
where it issues next (04 R104; log 2, 3). -/

namespace Sys2Proof.Machine

open Sys2Proof (Instr SMap SMap.get?)
open Sys2Proof.Config (partOf)

/-- Every path of every wave in the active bank of its core. -/
def State.livePaths (s : State) : List (Wave × Bool) :=
  (s.allWaves.filter fun w => w.resid == .active).flatMap fun w => [(w, false), (w, true)].filter fun x => (w.path x.2).phase != .idle

/-- Can this piece of an access be performed, or meet its miss, now? -/
def State.pieceReady (s : State) (a : Access) (k : Nat) : Bool :=
  match a.pieces[k]? with
  | none => false
  | some p =>
    s.mayPerform a p &&
      match a.kind with
      | .ldred _ _ => true
      | _ =>
        match s.reach a p with
        | .miss x v => s.pageSettled x v
        | .fault _ _ _ => true
        | .ok _ => true

/-- The pieces of an access that can be performed now. -/
def State.readyPieces (s : State) (a : Access) : List Nat := (List.range a.pieces.length).filter (s.pieceReady a)

/-- What an asynchronous operation does next (05, 10, 12, 13). -/
noncomputable def State.opEvent (s : State) (o : AOp) : Option Instr :=
  if o.done || !o.missed.isEmpty then none
  else if o.isCopy then
    if !s.opOrdered o then none
    else if o.copyOver then some (.asyncOpComplete o.id)
    else
      match (List.range (o.count + o.segs)).find? fun k => (s.copyFaultAt o k).isSome with
      | some k => some (.copyFault o.id k)
      | none => some (.copyUnitsLand o.id ((List.range o.count).filter o.pending))
  else if o.kind == .nmwalk then
    if o.fault.isSome || o.walkOver then some (.nmWalkComplete o.id)
    else if s.opOrdered o then
      some (.nmWalkPass o.id (((List.range o.nray).find? fun r =>
        match o.walk.find? fun w => w.ray == r with | some w => !w.todo.isEmpty | none => true).getD 0))
    else none
  else if !o.started then
    if s.mayStart o then some (if o.kind.pair then .pairOpStart o.id else .engineOpStart o.id) else none
  else if o.kind.steps && s.stepsLeft o then (if s.mustYield o then none else some (.sequencerStep o.id))
  else some (.engineOpComplete o.id)

/-- What a path that is parked or has a fault to take does next. -/
noncomputable def State.pathEvent (s : State) (x : Wave × Bool) : Option Instr :=
  let p := x.1.path x.2
  if p.takesFault && !p.wants && (!x.1.tm || p.inTrap) && !s.missing x.1.uid x.2 then some (.deliveredFault x.1.uid x.2)
  else
    match p.phase with
    | .parked (.wait w) =>
      if (s.waitOf x.1.uid x.2).isNone then none
      else if expired s.ref w.since w.timeout then some (.waitTimeout x.1.uid x.2)
      else if w.polled < s.ref && !s.accs.any (fun a => a.ofPath x.1.uid x.2 && a.kind.ofWait) then some (.waitEvaluate x.1.uid x.2)
      else none
    | .parked (.moota d since t) =>
      if s.parkOver x.1 x.2 (.moota d since t) then some (.pathResume x.1.uid x.2)
      else if expired s.ref since t then some (.mootaTimeout x.1.uid x.2)
      else none
    | .parked why => if s.parkOver x.1 x.2 why then some (.pathResume x.1.uid x.2) else none
    | _ => none

/-- Does a path start on its pipe now? -/
def State.startable (s : State) (x : Wave × Bool) : Bool :=
  let p := x.1.path x.2
  p.elig && p.wants && !s.swapping x.1.core && !s.pipeHeld x.1.core (partOf x.1.slot) (s.wantsPipe x.1 p)

/-- Free slots of a bank for the waves of a block on a set of cores, the lowest first (04 R91, 18 R368). -/
def State.placesIn (s : State) (r : LRec) (shadow : Bool) (cs : List Nat) : List Nat :=
  ((List.range r.waves).foldl (fun (acc : List Nat × List (Nat × Nat)) i =>
    let c := (cs[i % cs.length]?).getD 0
    let held := s.heldSlots c shadow ++ (acc.2.filter fun h => h.1 / 96 == c).map fun h => (h.1 % 96, h.2)
    match (List.range 96).find? fun x => slotsFit r.stackregs held [x] with
    | some x => (acc.1 ++ [96 * c + x], (96 * c + x, r.stackregs) :: acc.2)
    | none => acc) ([], [])).1

/-- A place for the next block of a launch (18 R367-R369). -/
def State.somePlaces (s : State) (l : Launch) : Option (List Nat) :=
  if !s.placing l then none
  else l.rec_.coreSets.findSome? fun cs =>
    let p := s.placesIn l.rec_ false cs
    if s.mayPlace l p then some p else none

/-- What the distributor does next (18 R362-R369). -/
noncomputable def State.launchEvent (s : State) : Option Instr :=
  let due (i : Instr) : Option Instr :=
    match exec i s with
    | .next t => if t = s then none else some i
    | _ => none
  let blockEv (b : Block) : Option Instr :=
    match b.phase with
    | .placed =>
      match s.launchOf b.launch with
      | some l => 
        let die := Config.dieOf (b.cores.headD 0)
        if !l.rec_.gang && s.staggerOk l die && !s.heldUp l die then some (.blockStart b.id) else none
      | none => none
    | .exiting => if s.blockQuiet b && (((s.lrecOf b.launch).gang && !b.isTask && !b.detached) || s.gangLets b) then some (.blockExit b.id) else none
    | .running => none
  let taskEv (t : TaskRec) : Option Instr :=
    match s.nextList t.core with
    | some r =>
      match (List.range 96).find? fun x => s.slotFree t.core x (s.lrecOf r.launch).stackregs with
      | some x => if s.swapping t.core then none else some (.taskWaveStart t.core x r.id)
      | none => none
    | none => none
  let futEv (w : Wave) : Option Instr :=
    if !s.futureReady w || s.swapping w.core then none
    else ((List.range 96).find? fun x => s.slotFree w.core x (s.lrecOf w.launch).stackregs).map fun x => .futureResume w.uid x
  match (s.blocks.map (·.2)).findSome? blockEv with
  | some e => some e
  | none =>
    match s.allWaves.findSome? futEv with
    | some e => some e
    | none =>
      match s.tasks.findSome? taskEv with
      | some e => some e
      | none =>
        match (s.launches.map (·.2)).findSome? fun l => if s.launchOver l then due (.launchComplete l.id) else none with
        | some e => some e
        | none =>
          match (s.launches.map (·.2)).findSome? fun l => (s.somePlaces l).map fun p => Instr.blockPlace l.id p with
          | some e => some e
          | none =>
            s.queues.findSome? fun q =>
              if q.2.taking.isSome || (q.2.en && !q.2.pending.isEmpty && s.trv && decide (s.running q.1 < 8)) then due (.launchAccept q.1) else none

/-- Does an event change anything now? -/
def State.changes (s : State) (i : Instr) : Bool :=
  match exec i s with
  | .next t => decide (t ≠ s)
  | _ => false

/-- The events of gangs, banks, saved blocks, dependences, remote accesses and the steward that could be due (13 R328; 18 R363,
R371, R383, R384; 19 R394, R399; 20 R421, R425, R427). -/
noncomputable def State.dueEvents (s : State) : List Instr :=
  let ls := s.launches.map (·.2)
  let bs := s.blocks.map (·.2)
  let pre := ls.filter s.preempting
  (s.gangs.flatMap fun g => [.gangAttachComplete g.1, .gangTurnGrant g.1, .gangStart g.1, .gangAbandon g.1]) ++
    (pre.flatMap fun l => (s.swapSets l).map fun cs => Instr.preemptSwap l.id (s.placesIn l.rec_ true cs)) ++
    (if pre.isEmpty then [] else bs.map fun b => Instr.contextSave b.id) ++
    (s.coreSt.flatMap fun c => [.bankExchange c.1, .swapBack c.1]) ++
    ((bs.filter fun (b : Block) => b.saved).flatMap fun b =>
      (s.lrecOf b.launch).coreSets.map fun cs => Instr.contextRestore b.id (s.placesIn (s.lrecOf b.launch) false cs)) ++
    ((ls.filter fun (l : Launch) => l.waiting.isSome).map fun l => Instr.preemptWaitExpiry l.id) ++
    (ls.flatMap fun (l : Launch) => (List.range 4).map fun d => Instr.dependenceRead l.id d) ++
    (s.accs.flatMap fun (a : Access) => Instr.remoteTimeout a.id :: a.sent.map fun x => .fabricResend (a.id + 2 ^ 64 * x.1)) ++
    ((s.ops.filter fun (o : AOp) => decide (o.heard + 3200 ≤ s.ref)).flatMap fun o => [Instr.remoteTimeout o.id, .fabricResend o.id]) ++
    (if s.mbCmd.isSome then [.mailboxComplete] else []) ++
    (if s.isReady then [] else [.bringUpComplete]) ++ (if bit (s.barWord 0x20028) 0 then [.invalidationComplete] else [])

/-- The next turn where the agenda is empty (log 2): accesses that can be performed; then the path in focus goes on issuing; else
what can act acts, in a fixed order, each path starting one clause in a clk at most; else time passes, with a ref tick every CLKMHZ
/ 100 clk. -/
noncomputable def State.autoTurn (s : State) : Turn :=
  match s.accs.find? fun a => !(s.readyPieces a).isEmpty with
  | some a => .event (if a.kind.silent then .storePerform a.id (s.readyPieces a) else .memoryResponse a.id (s.readyPieces a))
  | none =>
    if s.cw.pa.phase == .issuing then .issue s.cw.uid s.cw.second
    else
      match s.livePaths.find? fun x => (x.1.path x.2).phase == .issuing with
      | some x => .issue x.1.uid x.2
      | none =>
        match s.livePaths.findSome? s.pathEvent with
        | some e => .event e
        | none =>
          match s.livePaths.find? fun x => s.startable x && decide ((x.1.path x.2).readyAt < s.clk) with
          | some x => .event (.clauseStart x.1.core (partOf x.1.slot) (s.wantsPipe x.1 (x.1.path x.2)))
          | none =>
            match s.ops.findSome? s.opEvent with
            | some e => .event e
            | none =>
              match s.launchEvent with
              | some e => .event e
              | none =>
                match s.dueEvents.find? s.changes with
                | some e => .event e
                | none => if s.nextTick ≤ 100 * s.clk then .tick else .clk

/-- What follows every turn: packets that waited for granules or for an attach, the reads of dependences where a launch has
completed, the WAITs that the turn has ended, the waves that end with an aborted launch, fences that wait for nothing any more, and
requests that leave for the fabric (05 R126, R154; 18 R363, R366; 19 R394, R404). -/
def State.settleTurn (s : State) : State :=
  (((s.settlePackets.settleDeps (s.launches.length + 1)).settleWaits.reap).settleFences).sendRequests

/-- Did path 0 of a fork trap at its slot? `s` before it issued, `t` after. -/
def State.trapped (s t : State) (uid : Nat) : Bool :=
  match s.waveOf uid, t.waveOf uid with
  | some w, some v => !w.tm && v.tm && (v.path false).inTrap && v.forked
  | _, _ => false

/-- Path 0 of a fork has trapped in the clk in which path 1 also issues: path 1 issues its slot as if in no trap (04 R104). -/
def State.bothMid (s t : State) (uid : Nat) : State :=
  match s.waveOf uid with
  | none => t
  | some w => t.modWave uid fun v => (v.setTm false).onPath true fun _ => w.path true

/-- Path 1 has issued as well: where it trapped too its cause is held; else it stops at its next slot boundary (04 R104). `t` is
the state after path 0 trapped, `u` after path 1 issued. -/
def State.bothEnd (t u : State) (uid : Nat) : State :=
  match t.waveOf uid, u.waveOf uid with
  | some v, some x =>
    let back (y : Wave) : Wave :=
      { (y.setTm true) with
        tcause := v.tcause, tclause := v.tclause, tslot := v.tslot, taddrlo := v.taddrlo, taddrhi := v.taddrhi, tdata := v.tdata
        tlanes := v.tlanes, eregs := v.eregs, eseed := v.eseed }
    if x.tm && (x.path true).inTrap then
      let r : TrapRec := { cause := x.tcause.toNat, addr := x.taddrlo.toNat + 2 ^ 32 * x.taddrhi.toNat, data := x.tdata.toNat, lanes := x.tlanes }
      u.modWave uid fun y => { (back y).onPath true fun _ => v.path true with heldTrap := some (r, x.tclause.toNat, x.tslot.toNat) }
    else u.modWave uid fun y => (back y).onPath true PathSt.stop
  | _, _ => u

/-- Place an instruction word where the path in focus issues next: as the one slot of a fetched clause (log 3). -/
def State.placeWord (s : State) (w : Nat) : State :=
  { s with
    agenda := []
    cw := { s.cw with
      pa := { s.cw.pa with
        clause := some { off := s.cw.pa.pc, cls := Sys2Proof.classOfOp (Sys2Proof.opcodeOf (w % 2 ^ 64)), bwait := 0, yld := 0,
                         words := [w % 2 ^ 64], window := s.cw.wsize }
        slot := 0, phase := .issuing, pend := [], waited := false } } }

end Sys2Proof.Machine
end

