-- ==== Sys2Proof/Machine/Step.lean ====
section
/-! DEFINITION. One step of the machine: the next turn of the agenda, or the one the machine takes of itself (log 2). -/

namespace Sys2Proof.Machine

open Sys2Proof (Instr instrOf)

/-- A path issues the slot in progress: the checks of issue, then the instruction. -/
noncomputable def issueTurn (uid : Nat) (second : Bool) (s : State) : Host.Outcome State Fault Refusal :=
  match (s.focus uid second).issueCheck with
  | .stop t => .next t
  | .run op f t =>
    match instrOf op f with
    | some i => exec i t
    | none => .next t

/-- Both paths of a fork issue in one clk (04 R104). -/
noncomputable def bothTurn (uid : Nat) (s : State) : Host.Outcome State Fault Refusal :=
  match issueTurn uid false s with
  | .next t =>
    if s.trapped t uid then
      match issueTurn uid true (s.bothMid t uid) with
      | .next u => .next (State.bothEnd t u uid)
      | r => r
    else issueTurn uid true t
  | r => r

/-- One turn. An event turn that names an instruction does nothing: only a path issues instructions. -/
noncomputable def runTurn (t : Turn) (s : State) : Host.Outcome State Fault Refusal :=
  match t with
  | .event i => if i.isEvent then exec i s else .next s
  | .issue uid second => issueTurn uid second s
  | .both uid => bothTurn uid s
  | .clk => .next s.clkTurn
  | .tick => .next s.tickTurn
  | .steward queue addr => .next (s.stewardTurn queue addr)
  | .evict n => .next (s.evictTurn n)
  | .dropTlb n => .next (s.dropTlbTurn n)

/-- Is it power coming on? -/
def Turn.isPowerOn : Turn → Bool
  | .event (.moduleReset p) => p
  | _ => false

/-- The outcome of a turn with what follows it. -/
def settled (o : Host.Outcome State Fault Refusal) : Host.Outcome State Fault Refusal :=
  match o with
  | .next t => .next t.settleTurn
  | r => r

/-- One step. -/
noncomputable def step (s : State) : Host.Outcome State Fault Refusal :=
  match s.agenda with
  | [] => if s.powered then settled (runTurn s.autoTurn s) else .fault .powerRemoved
  | t :: rest => if s.powered || t.isPowerOn then settled (runTurn t { s with agenda := rest }) else .fault .powerRemoved

/-- The state with an instruction stored where the next step fetches it (log 3). -/
def State.withFetchWord (s : State) (_nbits w : Nat) : State := s.placeWord w

end Sys2Proof.Machine
end

