-- ==== Sys2Proof/Safety.lean ====
section
/-! DEFINITION. What a safe run is, and the words the statements use: the state but for the place and the schedule of the
paths, the completion of a slot, and the canonical form of memory. -/

namespace Sys2Proof

open Sys2Proof.Machine

/-- A state from which the next step neither faults nor refuses. -/
def SafeState (s : State) : Prop := ∃ t, step s = .next t

/-- Every state of the first `n` steps is safe. -/
def SafeRun : Nat → State → Prop
  | 0, _ => True
  | n + 1, s => ∃ t, step s = .next t ∧ SafeRun n t

/-- A property of states that every step keeps. -/
def StepInvariant (p : State → Prop) : Prop := ∀ s t, p s → step s = .next t → p t

/-- The control-transfer instructions (01 R22). -/
def Instr.transfersControl : Instr → Bool
  | .br _ => true
  | .brc _ => true
  | .call _ => true
  | .ret _ => true
  | .bri _ => true
  | .endP _ => true
  | .fork _ => true
  | .join _ => true
  | .eret => true
  | .tend => true
  | _ => false

namespace Machine

open Sys2Proof (Instr Operand RF IF W32 W64 Byte Mask SMap SMap.set)

/-- A path but for its place in the program and what the schedule keeps of it (18 R374-R376): its masks, its latched counters,
its delivered faults, what it has written unfenced, and whether it runs the handler. -/
def PathSt.arch (p : PathSt) : PathSt :=
  { PathSt.absent with base := p.base, stack := p.stack, clkhi := p.clkhi, refhi := p.refhi, pend := p.pend, unfenced := p.unfenced,
                       inTrap := p.inTrap }

/-- A wave but for the place and schedule of its paths. -/
def Wave.arch (w : Wave) : Wave := { w with pa := w.pa.arch, pb := w.pb.arch }

/-- The state but for the place and schedule of every path: all registers, all memories, all that is outstanding. -/
def State.arch (s : State) : State :=
  { s with cw := s.cw.arch, waves := s.waves.map fun (x : Nat × Wave) => (x.1, x.2.arch) }

/-- Where a path stands: the offset of its next clause, the clause in progress and the slot in it. -/
def PathSt.spot (p : PathSt) : Nat × Option Clause × Nat := (p.pc, p.clause, p.slot)

/-- Where a path stands after the slot in progress: the next slot, or the successor clause (01 R17, R21). -/
def PathSt.after (p : PathSt) : Nat × Option Clause × Nat :=
  if p.lastSlot then (p.seqPc, none, 0) else (p.pc, p.clause, p.slot + 1)

/-- The slot in progress completes with the effect `t`: a next state equal to `t` but for the place and schedule of the paths,
in which the path in focus stands after the slot. -/
def Completes (s : State) (r : Res) (t : State) : Prop :=
  ∃ u, r = .next u ∧ u.arch = t.arch ∧ u.cw.pa.spot = s.cw.pa.after

/-- The slot in progress branches: the effect is `t`, and the path in focus is before the clause at `target`. -/
def Branches (r : Res) (t : State) (target : Nat) : Prop :=
  ∃ u, r = .next u ∧ u.arch = t.arch ∧ u.cw.pa.spot = (target % 2 ^ 32, none, 0)

/-- MTSR and MTSR.I of a value to the system register an operand names complete with the effect `t` (02 R62). -/
def WritesSystem (s : State) (o : Operand) (x : W32) (t : State) : Prop :=
  (∀ f : RF, f.a = o → s.rdS f.b = x → Completes s (exec (.mtsr f) s) t) ∧
  (∀ f : IF, f.a = o → f.imm = x → Completes s (exec (.mtsrI f) s) t)

/-- A scalar instruction of the R format completes and writes `g` of its sources; nothing else of the state changes. -/
def ScalarR (c : RF → Instr) (g : RF → W32 → W32 → W32 → W32) : Prop :=
  ∀ (f : RF) (s : State), Completes s (exec (c f) s) (s.wrS f.dst (g f (s.rdS f.a) (s.rdS f.b) (s.rdS f.c)))

/-- A scalar instruction of the I format completes and writes `g` of its source and IMM32. -/
def ScalarI (c : IF → Instr) (g : IF → W32 → W32 → W32) : Prop :=
  ∀ (f : IF) (s : State), Completes s (exec (c f) s) (s.wrS f.dst (g f (s.rdS f.a) f.imm))

/-- A lane instruction of the R format completes and writes `g` of each active lane's sources to that lane. -/
def LaneR (c : RF → Instr) (g : RF → W32 → W32 → W32 → W32) : Prop :=
  ∀ (f : RF) (s : State),
    Completes s (exec (c f) s) (s.wrLanes f.dst (s.active f.all) fun l => g f (s.rdL f.a l) (s.rdL f.b l) (s.rdL f.c l))

/-- A lane instruction of the I format completes and writes `g` of each active lane's source and IMM32 to that lane. -/
def LaneI (c : IF → Instr) (g : IF → W32 → W32 → W32) : Prop :=
  ∀ (f : IF) (s : State), Completes s (exec (c f) s) (s.wrLanes f.dst (s.active false) fun l => g f (s.rdL f.a l) f.imm)

/-- A packed-pair instruction completes with the operation applied to each half of each active lane (02 R75). -/
def PackedR (c : RF → Instr) (fmt : FpFmt) (op : Nat → XR → XR → XR → XR) : Prop :=
  ∀ (f : RF) (s : State), Completes s (exec (c f) s) (s.wrLanes f.dst (s.active f.all) fun l => s.packed fmt f l op)

/-- A packed minimum or maximum completes with each half of each active lane (02 R75). -/
def PackedLesser (c : RF → Instr) (fmt : FpFmt) (gt : Bool) : Prop :=
  ∀ (f : RF) (s : State), Completes s (exec (c f) s) (s.wrLanes f.dst (s.active f.all) fun l => s.packedMin fmt f l gt)

/-- The instruction completes, and every NaN it leaves in the lanes `ls` of an operand is the canonical NaN of FP32 (02 R49). -/
def LaneNaNs (r : Res) (o : Operand) (ls : List Nat) : Prop :=
  ∃ t, r = .next t ∧ ∀ l ∈ ls, isNaN32 (t.rdL o l) = true → t.rdL o l = 0x7FC00000#32

/-- The instruction completes, and every NaN it leaves in a half of the lanes `ls` of an operand is the canonical NaN of the half's
format (02 R49, R75). -/
def HalfNaNs (fmt : FpFmt) (r : Res) (o : Operand) (ls : List Nat) : Prop :=
  ∃ t, r = .next t ∧ ∀ l ∈ ls, ∀ h < 2, fmt.special < halfN h (t.rdL o l) % 2 ^ 15 → halfN h (t.rdL o l) = fmt.canonNaN

/-- The lanes of a memory instruction with their effective addresses, for elements of `e` bytes (01 R29, 05 R111). -/
def State.laneAddrs (s : State) (f : MF) (e : Nat) : List (Nat × Int) :=
  (s.accessLanes f.data f.addr).2.map fun l => (l, s.effAddr f.addr f.space.val f.off e l)

/-- What the checks at issue answer for the lanes of a memory instruction (05 R112). -/
def State.accessTrap (s : State) (f : MF) (e : Nat) : Option TrapRec :=
  laneTrap f.space.val (s.accessLanes f.data f.addr).1 (s.laneAddrs f e) (fun x => x % e != 0)
    fun x => s.outOfRange f.space.val x e

/-- A memory instruction without a record, of `e` bytes in the spaces `ok`: with no lane it changes nothing; in another space it is
the invalid-space trap; a failed check is its trap; else it lists one access of its lanes, and the path goes on (05 R111-R116). -/
def PlainAccess (s : State) (i : Instr) (f : MF) (kind : AKind) (e : Nat) (ok : List Nat) (dst : List (Cls × Nat))
    (data : Nat → Nat) : Prop :=
  (s.laneAddrs f e = [] → Completes s (exec i s) s) ∧
  (s.laneAddrs f e ≠ [] →
    (s.badSpace ok f.space.val = true → exec i s = .next (s.trap (plainRec cSpace) s.cw.pa.here s.cw.pa.slot)) ∧
    (s.badSpace ok f.space.val = false →
      (∀ r, s.accessTrap f e = some r → exec i s = .next (s.trap r s.cw.pa.here s.cw.pa.slot)) ∧
      (s.accessTrap f e = none → (kind.loads = false ∨ s.granulesOk f.space.val (s.laneAddrs f e) e = true) →
        Completes s (exec i s)
          (s.addAcc kind (if f.space.val = 1 then 0 else f.space.val) f.scope.val f.order.val f.cache.val s.lrec.asid
            (s.accessLanes f.data f.addr).1 dst [] (s.lanePieces f.space.val (s.laneAddrs f e) e data)))))

/-- The lanes of an access through a record with the elements they name (08 R201, R202). -/
def State.recAddrs (s : State) (f : MF) : List (Nat × Int) :=
  (s.accessLanes f.data f.addr).2.map fun l =>
    (l, if addrRegs f.space.val = 2 then s.effAddr f.addr f.space.val f.off (s.bufRec s.cw.launch f.rcd.val).esize l % 2 ^ 56
      else s.effAddr f.addr f.space.val f.off (s.bufRec s.cw.launch f.rcd.val).esize l)

/-- The bytes that the lanes of an access of `n` elements through a record touch (08 R202, R203). -/
def State.recTouched (s : State) (f : MF) (n : Nat) (store : Bool) : List (Nat × Int) :=
  (s.recAddrs f).flatMap fun x =>
    ((s.bufRec s.cw.launch f.rcd.val).touched (s.recSlot s.cw.launch (s.bufRec s.cw.launch f.rcd.val)) x.2 n (!store)).map
      fun (y : Nat) => (x.1, (y : Int))

/-- An access of `n` elements a lane through a buffer record: with no lane it changes nothing; in another space, or where the record
fails a check, it is the trap of that check; where every lane's address is on the record's grid and everything it touches is inside
the space, it lists one access of its lanes, and the path goes on (05 R119, R120; 08 R201-R205, R435). -/
def RecordAccess (s : State) (i : Instr) (f : MF) (n : Nat) (store width : Bool) (ok : List Nat) : Prop :=
  ((s.accessLanes f.data f.addr).2 = [] → Completes s (exec i s) s) ∧
  ((s.accessLanes f.data f.addr).2 ≠ [] →
    (s.badSpace ok f.space.val = true → exec i s = .next (s.trap (plainRec cSpace) s.cw.pa.here s.cw.pa.slot)) ∧
    (s.badSpace ok f.space.val = false →
      (∀ r, s.recTrap s.cw.launch f.space.val f.rcd.val width store = some r →
        exec i s = .next (s.trap r s.cw.pa.here s.cw.pa.slot)) ∧
      (s.recTrap s.cw.launch f.space.val f.rcd.val width store = none →
        (∀ x ∈ s.recAddrs f, (x.2 - (s.bufRec s.cw.launch f.rcd.val).base) % (s.bufRec s.cw.launch f.rcd.val).esize = 0 ∧
          s.outOfRange f.space.val x.2 (s.bufRec s.cw.launch f.rcd.val).esize = false) →
        (∀ y ∈ s.recTouched f n store, s.outOfRange f.space.val y.2 1 = false) →
        (store = true ∨ s.granulesOk f.space.val (s.recTouched f n store) 1 = true) →
        Completes s (exec i s)
          (s.addAcc (if store then .recStore f.rcd.val n else .recLoad f.rcd.val n) f.space.val f.scope.val f.order.val
            (if f.cache.val = 0 && bit (s.bufRec s.cw.launch f.rcd.val).flags 3 then 2 else f.cache.val)
            (if addrRegs f.space.val = 2 then (s.bufRec s.cw.launch f.rcd.val).asid else s.lrec.asid)
            (s.accessLanes f.data f.addr).1 (if store then [] else s.regsOf f.data n) []
            ((s.recAddrs f).map fun x => Piece.fresh x.1 0 x.2.toNat (ofWords (s.rdWords f.data n x.1)))))))

/-- The word at an offset of a lane's spill area lies at an HBM address, which a cached translation under the area's own name gives
for reads and for writes (03 R84; 08 R178, R195). -/
def State.SpillAt (s : State) (off l pa : Nat) : Prop :=
  ∃ va e, va = s.sliceAddr s.cw (s.lrec.privbytes + 512 + off) l ∧ s.tlbFind (Config.dieOf s.cw.core) s.lrec.asid va = some e ∧
    e.casid = s.lrec.asid ∧ e.cva = e.va ∧ bit (e.va + va % e.size) 55 = false ∧ bit e.va 55 = false ∧ e.pa + e.size ≤ 2 ^ 40 ∧
    Nat.land e.perms 3 = 3 ∧ pa = e.pa + va % e.size

/-- The `n` bytes at an address of an address space, which the device may write, lie side by side in HBM or in host memory once the
sectors that hold them are home (08 R194, R195; 18 R365). -/
def State.DevAt (s : State) (asid va n : Nat) (host : Bool) (pa : Nat) : Prop :=
  (s.devSync 0 asid va n needWR).devFind 0 asid va n needWR = ((List.range n).map fun i => (pa + i, host), .ok [])

/-- Two states hold the same in every memory, in the caches and in the waves out of focus, and list the same operations. -/
def State.SameStore (t r : State) : Prop :=
  t.hbm = r.hbm ∧ t.host = r.host ∧ t.undef = r.undef ∧ t.pool = r.pool ∧ t.peers = r.peers ∧ t.gran = r.gran ∧ t.spd = r.spd ∧
    t.sectors = r.sectors ∧ t.grants = r.grants ∧ t.waves = r.waves ∧ t.ops = r.ops

/-- The result words of a lane in the registers of an access's destination. -/
def Wave.landWords (w : Wave) (dst : List (Cls × Nat)) (lane : Nat) (ws : List W32) : Wave :=
  (dst.zip ws).foldl (fun (w : Wave) x => w.setReg x.1 lane x.2) w

/-- An operation but for the overlaps noted for it. -/
def AOp.bare (o : AOp) : AOp := { o with spoil := [] }

/-- The value of a drain's fragment element (m, n) of a core after BIAS, ACT and RQ, without I32: each stage rounds to nearest even
and never flushes (10 R257). -/
def State.drainX (s : State) (o : AOp) (c m n : Nat) : W32 :=
  let rnd (y : XR) : W32 := BitVec.ofNat 32 (roundTo encFp32 y 0 false false)
  let bias : W32 := BitVec.ofNat 32 (s.spdRead o.block c (o.arg 4 + 4 * n) 4)
  let x := s.fragWord (fragKey o.block c (nth o.names 0)) m n
  let x1 := if o.flag 19 then rnd (XR.add 0 (fp32Val x) (fp32Val bias)) else x
  let x2 := if o.flag 18 then actFn (s.actWord o.block c) x1 else x1
  if o.flag 17 then rnd (XR.mul (fp32Val x2) (fp32Val (BitVec.ofNat 32 (o.arg 5)))) else x2

/-- The scale of block q of a drain's row m: of at most as many elements as the slot's blocks hold (10 R259). -/
def State.drainScale (s : State) (o : AOp) (c m q : Nat) : Nat :=
  let B := slotBlk o.slotDesc
  blockScale (slotEnc o.slotDesc) ((List.range (min B (o.drainN - q * B))).map fun i => s.drainX o c m (q * B + i))

/-- What a drain writes for fragment element (m, n) of a core: with COMP the quotient by its block's scale, saturating; with I32 the
exact integer, biased and requantised; else the last rounding of the chain (10 R257-R259). -/
def State.drainEl (s : State) (o : AOp) (c m n : Nat) : Nat :=
  let enc := slotEnc o.slotDesc
  let sat := o.sat || slotSat o.slotDesc
  let flush := (enc == encFp32 && o.ftz) || ((enc == encFp16 || enc == encBf16) && slotSubn o.slotDesc)
  if o.flag 16 then
    roundTo enc (XR.mul (fp32Val (s.drainX o c m n)) (bf16Val (s.drainScale o c m (n / slotBlk o.slotDesc))).recip) o.rm true false
  else if o.flag 1 then
    let x := s.fragWord (fragKey o.block c (nth o.names 0)) m n
    let bias : W32 := BitVec.ofNat 32 (s.spdRead o.block c (o.arg 4 + 4 * n) 4)
    let v := if !o.flag 19 then x else if o.sat then satS32 (x.toInt + bias.toInt) else x + bias
    roundTo enc (if o.flag 17 then XR.mul (XR.ofInt v.toInt) (fp32Val (BitVec.ofNat 32 (o.arg 5))) else XR.ofInt v.toInt) o.rm sat flush
  else roundTo enc (fp32Val (s.drainX o c m n)) o.rm sat flush

/-- Element (m, n) of the fragment of core `c` after a matrix operation: the K-steps of row m of that core's tile A and column n of
the leader's tile B, from 0 with Z, else from the fragment (10 R248-R251). -/
def State.mmaEl (s : State) (o : AOp) (c m n : Nat) : W32 :=
  let ctlA := if c = o.core then nth o.ctl 0 else o.fctl
  let ctlB := nth o.ctl 1
  let bytes (core k : Nat) : Bytes := fun i => (undefByte Config.seedTile s.tiles (tileKey o.block core k * 4096 + i)).toNat
  let a := s.rowVals o c (bytes c (nth o.names 1)) ctlA m
  let row (r : Nat) : List XR := s.rowVals o o.core (bytes o.core (nth o.names 2)) ctlB r
  let b := if o.trn then (List.range (ctlRows ctlB)).map fun r => ((row r)[n]?).getD XR.nan else row n
  let acc : W32 := if o.flag 0 then 0 else s.fragWord (fragKey o.block c (nth o.names 0)) m n
  let q := slotBlk o.slotDesc
  let Q := o.dimK / q
  if isIntEnc (ctlEnc ctlA) then mmaInt o.sat a b acc
  else mmaFp (kStep (ctlEnc ctlA) (ctlEnc ctlB)) q a b (fun i => s.spdRead o.block c (o.arg 0 + 2 * (m * Q + i)) 2)
    (fun i => s.spdRead o.block o.core (o.arg 1 + 2 * (n * Q + i)) 2) o.scaled acc

/-- The slot in progress lists the operation `o` after those listed before, and the path goes on: nothing else changes but the
wave's completion scope of its open set (09 R225), the notes of which engine operation writes each fragment and each tile (10 R244,
R252, R264), the scratchpad bytes `x` noted as read by the operation (09 R228), the overlaps noted for the operations and the
granules whose presence is cleared (05 R133, R137, R142). -/
def Lists (s : State) (i : Instr) (o : AOp) : Prop :=
  ∃ (t : State) (x : List (Nat × Nat)), Completes s (exec i s) t ∧
    t = { s with nextId := s.nextId + 1, ops := t.ops, absent := t.absent,
                 cw := { s.cw with openScope := max s.cw.openScope o.doneScope },
                 fragWriters := if o.kind.engine then (s.noteWritten o).fragWriters else s.fragWriters,
                 tileWrites := if o.kind.engine then (s.noteWritten o).tileWrites else s.tileWrites,
                 pairWrites := if o.kind.engine then (s.noteWritten o).pairWrites else s.pairWrites } ∧
    t.ops.map AOp.bare = (s.ops ++ [{ o with spans := x }]).map AOp.bare

/-- An asynchronous instruction whose first failed check is `r`: it takes that trap; with no check failed, and room among the wave's
64 operations and in the queues of the cores it enters, it lists the operation `o` (05 R133, R142; 12 R281). -/
def Issues (s : State) (i : Instr) (r : Option TrapRec) (o : AOp) : Prop :=
  (∀ t, r = some t → exec i s = .next (s.trap t s.cw.pa.here s.cw.pa.slot)) ∧
  (r = none → s.outstanding s.cw.uid < 64 → (o.kind.engine = true → s.engineRoom o.onCores = true) → Lists s i o)

/-- An engine operation `o` is listed where none of its checks fails and there is room for it. -/
def IssuesWhen (s : State) (i : Instr) (ok : Prop) (o : AOp) : Prop :=
  ok → s.outstanding s.cw.uid < 64 → s.engineRoom o.onCores = true → Lists s i o

/-- HBM in its canonical form: the addresses rise strictly, and no byte listed reads as an unlisted one, 0 (20 R418). -/
def Memory.wf (m : SMap Byte) : Bool := SMap.wf m && m.all fun x => x.2 != 0

/-- The state's memories in canonical form: HBM lists no zero byte, and the addresses of every other memory rise strictly: host, pool
and peer memory, the scratchpads, the granule store, the tiles, the accumulators, the bank and table words, and MBDATA. -/
def State.memWf (s : State) : Bool :=
  Memory.wf s.hbm && SMap.wf s.host && SMap.wf s.pool && SMap.wf s.peers && SMap.wf s.spd && SMap.wf s.gran && SMap.wf s.tiles &&
  SMap.wf s.accm && SMap.wf s.banks && SMap.wf s.acts && SMap.wf s.mbdata

end Machine

end Sys2Proof
end

