-- ==== Sys2Proof/Certificates/Slice0/Obligations.lean ====
section
/-! DEFINITION. The statements for the provers. `Completes s r t` says that `r` is a next state that holds the effect `t` and
nothing else, and that the path in focus stands after its slot (Safety.lean): every register, memory, access and operation that
`t` does not change is unchanged. -/

open Sys2Proof Sys2Proof.Machine

/-! ## Encoding and decoding -/

/-- Words written out from the spec's own encodings and worked programs decode to the instruction they stand for (01 R26, R37;
the programs of 03, 06, 11, 14, 15 and 17). -/
def Obligations.WrittenWordsDecode : Prop :=
  decodeWord 0x2880680000000040 = .ok (.brc ⟨.s 3, 2, 0, 0x40#32⟩) ∧
  decodeWord 0x2880A800FFFFFFF0 = .ok (.brc ⟨.s 5, 2, 0, 0xFFFFFFF0#32⟩) ∧
  decodeWord 0x1802800000000100 = .ok (.smovi ⟨.s 20, .s 0, 0, 0x100#32⟩) ∧
  decodeWord 0x0100000702000000 = .ok (.ssub ⟨.s 0, .s 0, .c 1, .s 0, 0, 0, false, 0⟩) ∧
  decodeWord 0x6140B027D0000000 = .ok (.fmul ⟨.v 5, .v 4, .c 0x68, .s 0, 0, 0, false, 0⟩) ∧
  decodeWord 0x61C0D0240B038000 = .ok (.ffma ⟨.v 6, .v 4, .v 5, .v 7, 0, 0, false, 0⟩) ∧
  decodeWord 0x824080A200FF0010 = .ok (.ldB32 ⟨.v 4, .s 20, 2, 0, 0, 0, 255, 16#16⟩) ∧
  decodeWord 0x2A80000000000000 = .ok (.endP ⟨.s 0, 0, 0, 0#32⟩) ∧
  decodeWord 0x2900010000000013 = .ok (.call ⟨.s 0, 0, 32, 19#32⟩) ∧
  decodeWord 0xF300000000000000 = .ok .eret ∧
  decodeWord 0x9F30000000000000 = .ok (.aclose ⟨3⟩) ∧
  decodeWord 0x9F83C043000003E8 = .ok (.wait ⟨.s 30, .s 8, 1, true, 1000#32⟩) ∧
  decodeWord 0xA600000000000000 = .ok .mfenceOp ∧
  decodeWord 0xE980000000000000 = .ok .mootd ∧
  decodeWord 0xE9014000FFFFFFFF = .ok (.moota ⟨.s 10, 0xFFFFFFFF#32⟩) ∧
  decodeWord 0x048280A786000000 = .ok (.sand ⟨.s 20, .s 20, .c 0x43, .s 0, 0, 0, false, 0⟩) ∧
  decodeWord 0x88C04BF100FF0000 = .ok (.stlB32 ⟨.v 2, .s 382, 1, 0, 0, 0, 255, 0#16⟩) ∧
  decodeWord 0x8EC1501A30FF0000 = .ok (.atomCas ⟨.v 10, .v 3, 2, 1, 4, 0, 255, 0#16⟩) ∧
  decodeWord 0x9B08060002E00003 = .ok (.copy ⟨1, 0, .s 48, .s 0, 2, 0xE00003#24⟩) ∧
  decodeWord 0xA0647D0000000001 = .ok (.mttc ⟨.t 3, .c 0x20, .s 0, .s 0, 0, 0, false, 1⟩) ∧
  decodeWord 0xC0431084101E0000 = .ok (.rbox ⟨.v 24, .v 16, .v 8, .s 60, 0, 0, false, 0⟩) ∧
  decodeWord 0x33041AC800000001 = .ok (.pany ⟨.s 32, .p 1, .s 0, .s 0, 0, 0, false, 1⟩) ∧
  decodeWord 0xE088D0A180000000 = .ok (.spawnc ⟨.s 70, .v 20, 6, false⟩)

/-- Encoding a well-formed instruction and decoding the word gives the instruction back, with every operand and field at every
value an encoding admits (01 R26-R36). -/
def Obligations.EncodeThenDecode : Prop :=
  ∀ (i : Instr) (w : Nat), i.wellFormed = true → encode i = some w → decodeWord w = .ok i

/-- A word that decodes is the encoding of the instruction it decodes to, which is well-formed: no bit of a word is ignored
(01 R8, R26). -/
def Obligations.DecodeThenEncode : Prop :=
  ∀ (w : Nat) (i : Instr), w < 2 ^ 64 → decodeWord w = .ok i → i.wellFormed = true ∧ encode i = some w

/-- The six checks of a slot in their order (01 R39): each failure is the one reported where the earlier checks pass. Check 3 fails
for a field value or a SUB that names nothing; check 4 for an illegal combination, an operand of the wrong class or of an unaligned
group, and an instruction or a trap scalar outside its mode; check 5 for a register at or above the window and for a CALL whose W is
above WINCAP; check 6 for a control transfer outside the last slot. A slot that passes all six decodes to its fields. -/
def Obligations.DecodeCheckOrder : Prop :=
  ∀ (c : DecodeCtx) (w : Nat),
    (opAssigned (opcodeOf w) = false → slotFields c w = .error .illegalOpcode) ∧
    (opAssigned (opcodeOf w) = true → classLegal c.cls (opcodeOf w) = false → slotFields c w = .error .classMismatch) ∧
    (opAssigned (opcodeOf w) = true → classLegal c.cls (opcodeOf w) = true →
      (fieldsOf (opcodeOf w) (fld w 0 55) = none → slotFields c w = .error .reservedField) ∧
      ∀ f k, fieldsOf (opcodeOf w) (fld w 0 55) = some f → k = chkFmt (opcodeOf w) f →
        (k.res = true → slotFields c w = .error .reservedField) ∧
        (k.res = false → (k.ill = true ∨ (∃ p ∈ k.pos, p.legal = false) ∨ modeIllegal k c.trapMode = true) →
          slotFields c w = .error .illegalOperand) ∧
        (k.res = false → k.ill = false → (∀ p ∈ k.pos, p.legal = true) → modeIllegal k c.trapMode = false →
          (outsideWindow k c.window = true ∨ aboveCap f (opcodeOf w) c.wincap = true → slotFields c w = .error .registerWindow) ∧
          (outsideWindow k c.window = false → aboveCap f (opcodeOf w) c.wincap = false →
            (isControl (opcodeOf w) = true → c.last = false → slotFields c w = .error .branchPlacement) ∧
            (isControl (opcodeOf w) = false ∨ c.last = true → slotFields c w = .ok f))))

/-- 01 R22: BR, BRC, CALL, RET, BRI, END, FORK, JOIN, ERET and TEND decode in a clause's last slot only, and are branch-placement
errors in another; every other instruction decodes in another slot as it does in the last. -/
def Obligations.ControlTransfersStandLast : Prop :=
  decodeCause .branchPlacement = 0x06 ∧
  ∀ (c : DecodeCtx) (w : Nat) (f : Fmt) (i : Instr),
    slotFields { c with last := true } w = .ok f → instrOf (opcodeOf w) f = some i →
      slotFields { c with last := false } w = if i.transfersControl then .error .branchPlacement else .ok f

/-! ## The step -/

/-- A step runs the decoded instruction: where a path issues, the word at its slot decodes to `i`, and nothing holds the slot back
(no other path in the handler, no fault to take, no access waiting on a miss, no owed register, no ALL in a fork, no poison), the
step is `exec i` at the state with that path in focus, the instruction counted as an event of its core (20 R430), with what follows
every turn: packets that waited for granules, reads of dependences after a completion, WAITs that the turn ended, the end of waves of
an aborted launch, fences that wait for nothing any more and requests that leave the package (05 R126, R154; 18 R363, R366; 19 R394,
R404), which is nothing where none of these waits. The word is decoded under the window the clause began with. -/
def Obligations.StepRunsDecoded : Prop :=
  (∀ t : State, t.heldPackets = [] → t.depsDue = false → t.waiters = [] → (t.launches.any fun l => l.2.aborted) = false →
    (∀ a ∈ t.accs, (∀ k, a.kind ≠ .fence k) ∧ t.newRequests a = []) →
    (t.ops.any fun o => o.isCopy && o.farByte.isSome && t.opWaits o) = false → t.settleTurn = t) ∧
  ∀ (s : State) (uid : Nat) (second : Bool) (rest : List Turn) (u : State) (c : Clause) (w : Nat) (f : Fmt) (i : Instr),
    s.powered = true → s.agenda = .issue uid second :: rest → u = { s with agenda := rest }.focus uid second →
    u.cw.pa.clause = some c → c.words[u.cw.pa.slot]? = some w → u.cw.pa.phase = .issuing → (u.cw.tm && !u.cw.pa.inTrap) = false →
    u.cw.pa.pend = [] → u.missing u.cw.uid u.cw.second = false →
    slotFields { u.decodeCtx c.cls u.cw.pa.lastSlot with window := c.window } w = .ok f → instrOf (opcodeOf w) f = some i →
    (u.posRegs ((chkFmt (opcodeOf w) f).reads ++ (chkFmt (opcodeOf w) f).writes)).any (u.owed u.cw.uid u.cw.second).contains = false →
    (allOf (opcodeOf w) f && u.cw.forked && !u.cw.tm) = false → u.poisonTrap (opcodeOf w) f (chkFmt (opcodeOf w) f) = none →
    step s = settled (exec i (u.countCore u.cw.core 2 (Config.partOf u.cw.slot) 1))

/-- A clause starts with the words fetched at the path's pc: the header at pc, its COUNT words after it, in address order
(01 R15-R18), where every slot decodes, nothing of its input set is owed and the batches BWAIT names are complete without fault. -/
def Obligations.ClauseIsFetchedAtPc : Prop :=
  ∀ (s : State) (h : Nat) (ws : List Nat) (off : Nat),
    s.fetchWord s.cw.core s.lrec s.cw.pa.pc = .word h → opcodeOf h = 0x1FF →
    s.fetchWords (countOf h) (s.cw.pa.pc + 8) [] = (.word 0, ws, off) → fld h 52 3 < 6 → fld h 38 2 ≠ 3 → fld h 0 38 = 0 →
    s.decodeErr (fld h 52 3) (countOf h) 0 ws = none → s.owed s.cw.uid s.cw.second = [] → s.cw.pa.replay = none →
    (bwaitSet (fld h 40 8)).all (fun n => s.batchDone s.cw.uid n && (s.batchFault s.cw.uid n).isNone) = true →
    s.nextClause = .start { off := s.cw.pa.pc, cls := fld h 52 3, bwait := fld h 40 8, yld := fld h 38 2, words := ws,
                            window := s.cw.wsize } 0 ∧
      ws.length = countOf h

/-- While power is on a step always answers a next state, whatever the state and the turn, so no state of the powered machine,
reachable or not, is stuck. That with power off every step but power-on is the fault powerRemoved, and that power-on resets the
machine, are the model's own choices (logs 2 and 51; 20 R431). -/
def Obligations.PoweredStepGoesOn : Prop :=
  ∀ s : State,
    (s.powered = true → ∃ t, step s = .next t) ∧
    (s.powered = false → (∀ rest, s.agenda ≠ .event (.moduleReset true) :: rest) → step s = .fault .powerRemoved) ∧
    (∀ rest, s.agenda = .event (.moduleReset true) :: rest → ∃ t, step s = .next t ∧ t.powered = true)

/-- The memories keep their canonical form over every step, from every state that has it: HBM, host, pool and peer memory, the
scratchpads, the granule store, the tiles, the accumulators, the bank and table words and MBDATA. -/
def Obligations.StepKeepsMemoryForm : Prop := StepInvariant fun s => s.memWf = true

/-- 20 R418: right after reset nothing runs: no wave, launch, queue entry or cached sector; clk and ref are 0; HBM reads 0 and
is in canonical form, and so is every other memory. That the wave in focus, a slot without a wave, holds zero registers and stands
outside trap mode and outside a fork is the model's choice of reset values, where the spec leaves the registers undefined (logs 3
and 4). -/
def Obligations.ResetState : Prop :=
  State.reset.memWf = true ∧ State.reset.powered = true ∧ State.reset.clk = 0 ∧ State.reset.ref = 0 ∧
  State.reset.cw.resid = .free ∧ State.reset.waves = [] ∧ State.reset.launches = [] ∧ State.reset.blocks = [] ∧
  State.reset.sectors = [] ∧ State.reset.tlb = [] ∧ State.reset.accs = [] ∧ State.reset.ops = [] ∧
  (∀ a, hbmByte State.reset.hbm a = 0) ∧ (∀ q, State.reset.queue q = Queue.reset) ∧
  (∀ i, State.reset.cw.sreg i = 0) ∧ State.reset.cw.tm = false ∧ State.reset.cw.forked = false

/-! ## Registers -/

/-- What is written is what is read, nothing else changes, and `zero` discards a write and reads as 0 (01 R33, R34, R41). -/
def Obligations.RegisterReadsWhatWasWritten : Prop :=
  ∀ (s : State) (x : W32) (y : W64),
    (∀ i j : Fin 384, (s.wrS (.s i) x).rdS (.s j) = if j = i then x else s.rdS (.s j)) ∧
    (∀ i j : Fin 16, (s.wrS (.e i) x).rdS (.e j) = if j = i then x else s.rdS (.e j)) ∧
    s.wrS (.sp 0) x = s ∧ s.rdS (.sp 0) = 0 ∧ s.wr64 (.sp 0) y = s ∧
    (∀ i : Fin 384, i.val + 1 < 384 → (s.wr64 (.s i) y).rd64 (.s i) = y) ∧
    (∀ (i j : Fin 256) (ls : List Nat) (g : Nat → W32) (l : Nat), i.val < s.stackRegs → j.val < s.stackRegs →
      (∀ k ∈ ls, k < 32) → l < 32 →
      (s.wrLanes (.v i) ls g).rdL (.v j) l = if j = i ∧ l ∈ ls then g l else s.rdL (.v j) l)

/-- MFSR gives each system register its value and changes nothing else, but that a read of CLKLO or REFLO latches the high half of
the count for the path; MTSR, MTSR.I and SRM write the fields of WSR that software may write (RM 5 to 7 keeps the mode), TCLAUSE and
TSLOT (0 to 17), and a write to a read-only register has no effect (02 R59, R60, R62; 00 R6). -/
def Obligations.SystemRegisters : Prop :=
  (∀ (f : RF) (s : State),
     (f.a = .s 0x00 → Completes s (exec (.mfsr f) s) (s.wrS f.dst s.cw.wsr)) ∧
     (f.a = .s 0x01 → Completes s (exec (.mfsr f) s) (s.wrS f.dst s.cw.tcause)) ∧
     (f.a = .s 0x02 → Completes s (exec (.mfsr f) s) (s.wrS f.dst s.cw.tclause)) ∧
     (f.a = .s 0x03 → Completes s (exec (.mfsr f) s) (s.wrS f.dst s.cw.tslot)) ∧
     (f.a = .s 0x04 → Completes s (exec (.mfsr f) s) (s.wrS f.dst s.cw.taddrlo)) ∧
     (f.a = .s 0x05 → Completes s (exec (.mfsr f) s) (s.wrS f.dst s.cw.taddrhi)) ∧
     (f.a = .s 0x06 → Completes s (exec (.mfsr f) s) (s.wrS f.dst s.cw.tdata)) ∧
     (f.a = .s 0x07 → Completes s (exec (.mfsr f) s) (s.wrS f.dst s.cw.tlanes)) ∧
     (f.a = .s 0x10 → Completes s (exec (.mfsr f) s)
       ((s.onPa fun p => { p with clkhi := BitVec.ofNat 32 (SMap.getD s.coreClk s.cw.core 0 / 2 ^ 32) }).wrS f.dst
         (BitVec.ofNat 32 (SMap.getD s.coreClk s.cw.core 0)))) ∧
     (f.a = .s 0x11 → Completes s (exec (.mfsr f) s) (s.wrS f.dst s.cw.pa.clkhi)) ∧
     (f.a = .s 0x12 → Completes s (exec (.mfsr f) s)
       ((s.onPa fun p => { p with refhi := BitVec.ofNat 32 (s.ref / 2 ^ 32) }).wrS f.dst (BitVec.ofNat 32 s.ref))) ∧
     (f.a = .s 0x13 → Completes s (exec (.mfsr f) s) (s.wrS f.dst s.cw.pa.refhi)) ∧
     (f.a = .s 0x18 → Completes s (exec (.mfsr f) s) (s.wrS f.dst (BitVec.ofNat 32 s.lrec.wincap))) ∧
     (f.a = .s 0x19 → Completes s (exec (.mfsr f) s) (s.wrS f.dst (BitVec.ofNat 32 s.cw.wsize))) ∧
     (f.a = .s 0x1A → Completes s (exec (.mfsr f) s) (s.wrS f.dst (BitVec.ofNat 32 s.cw.links.length)))) ∧
  (∀ s : State,
     (∀ x : W32,
       WritesSystem s (.s 0x00) x (s.onWave fun w =>
         { w with wsr := mkWsr w.forked w.tm (x.getLsbD 4) (x.getLsbD 3) (if x.toNat % 8 ≤ 4 then x.toNat % 8 else w.rm) }) ∧
       WritesSystem s (.s 0x02) x (s.onWave fun w => { w with tclause := x }) ∧
       (x.toNat ≤ 17 → WritesSystem s (.s 0x03) x (s.onWave fun w => { w with tslot := x })) ∧
       (17 < x.toNat → WritesSystem s (.s 0x03) x s) ∧
       (∀ n : Fin 384, n ≠ 0x00 → n ≠ 0x02 → n ≠ 0x03 → WritesSystem s (.s n) x s)) ∧
     (∀ f : IF, Completes s (exec (.srm f) s) (s.onWave fun w =>
       { w with wsr := mkWsr w.forked w.tm w.wpk (if f.subh.val % 2 = 1 then f.imm.getLsbD 3 else w.ftz) (f.imm.toNat % 8) })))

/-! ## Traps -/

/-- Trap entry (04 R99, R103): outside trap mode and with a handler, the registers of the trap record take the cause, the clause,
the slot, the address, the data and the lanes, TM is set, e0 to e15 are undefined (the free value named by the counter), and
the path is before the handler's first clause; nothing else changes but the schedule of the wave's paths. -/
def Obligations.TrapEntry : Prop :=
  ∀ (s : State) (r : TrapRec) (clause slot : Nat), s.cw.tm = false → s.lrec.trapentry ≠ 0xFFFFFFFF →
    (s.trap r clause slot).cw.pa.spot = (s.lrec.trapentry, none, 0) ∧
    (s.trap r clause slot).arch = ({ s with fresh := s.fresh + 1 }.onWave fun w =>
      { w with
        wsr := mkWsr w.forked true w.wpk w.ftz w.rm, tcause := BitVec.ofNat 32 r.cause, tclause := BitVec.ofNat 32 clause,
        tslot := BitVec.ofNat 32 slot, taddrlo := BitVec.ofNat 32 r.addr, taddrhi := BitVec.ofNat 32 (r.addr / 2 ^ 32),
        tdata := BitVec.ofNat 32 r.data, tlanes := r.lanes, eregs := [], eseed := some s.fresh,
        poison := w.trapPoison, pa := { w.pa with inTrap := true } }).arch

/-- TRAP, and BKPT in a launch with the debug flag, take their trap with the preceding slots complete: TDATA is IMM32 and TSLOT the
next slot, 17 after the last (02 R62, 04 R99); BKPT without the flag has no effect. A trap in trap mode, or without a handler, ends
the wave: LERR 5 or 4 where the launch has no error yet, the E fields of the trap, and the launch is aborted (04 R89, R103). -/
def Obligations.SoftwareAndUnhandledTraps : Prop :=
  (∀ (f : IF) (s : State),
     (s.lrec.debug = false → Completes s (exec (.bkpt f) s) s) ∧
     (s.cw.tm = false → s.lrec.trapentry ≠ 0xFFFFFFFF →
       ∀ p : Instr × W32, (p = (.trap f, 0x0A#32) ∨ p = (.bkpt f, 0x0B#32) ∧ s.lrec.debug = true) →
         ∃ t, exec p.1 s = .next t ∧ t.cw.tm = true ∧ t.cw.tcause = p.2 ∧ t.cw.tdata = f.imm ∧
           t.cw.tclause = BitVec.ofNat 32 s.cw.pa.here ∧
           t.cw.tslot = BitVec.ofNat 32 (if s.cw.pa.lastSlot then 17 else s.cw.pa.slot + 1) ∧
           t.cw.taddrlo = 0 ∧ t.cw.taddrhi = 0 ∧ t.cw.tlanes = 0 ∧ t.cw.pa.spot = (s.lrec.trapentry, none, 0) ∧
           t.cw.sregs = s.cw.sregs ∧ t.cw.vregs = s.cw.vregs ∧ t.cw.pflags = s.cw.pflags ∧ t.cw.links = s.cw.links ∧
           t.hbm = s.hbm ∧ t.spd = s.spd ∧ t.accs = s.accs ∧ t.ops = s.ops)) ∧
  (∀ (s : State) (r : TrapRec) (clause slot : Nat) (l : Launch), s.launchOf s.cw.launch = some l → l.lerr = 0 → l.err = none →
     (s.cw.tm = true → ∃ l', (s.trap r clause slot).launchOf s.cw.launch = some l' ∧ l'.lerr = 5 ∧ l'.aborted = true ∧
       l'.err = some (s.errRec r clause slot)) ∧
     (s.cw.tm = false → l.rec_.trapentry = 0xFFFFFFFF →
       ∃ l', (s.trap r clause slot).launchOf s.cw.launch = some l' ∧ l'.lerr = 4 ∧ l'.aborted = true ∧
         l'.err = some (s.errRec r clause slot)))

/-- ERET leaves trap mode and resumes at TCLAUSE: at the header for TSLOT 16, at slot TSLOT below COUNT, else at the successor
clause; nothing else changes (02 R63). -/
def Obligations.TrapReturn : Prop :=
  ∀ (s : State) (h c k : Nat), c = s.cw.tclause.toNat → k = s.cw.tslot.toNat → s.checkTarget c = .ok h →
    ∃ t, exec .eret s = .next t ∧ t.cw.tm = false ∧
      t.arch = ((s.noteFetch c).onWave fun w =>
        { w with wsr := mkWsr w.forked false w.wpk w.ftz w.rm, pa := { w.pa with inTrap := false } }).arch ∧
      (k = 16 ∨ k < countOf h → t.cw.pa.spot = (c, none, 0)) ∧
      (k = 16 → t.cw.pa.replay = none) ∧ (k < countOf h → t.cw.pa.replay = some k) ∧
      (k ≠ 16 → countOf h ≤ k → t.cw.pa.spot = ((c + 8 * (countOf h + 1)) % 2 ^ 32, none, 0) ∧ t.cw.pa.replay = none)

/-! ## Scalar instructions -/

/-- 01 R38: NOP occupies one slot and changes no state, in a clause of any class; every field of [54:0] is reserved. -/
def Obligations.NopChangesNothing : Prop :=
  (∀ s : State, Completes s (exec .nop s) s) ∧
  (∀ (c : DecodeCtx) (w : Nat), opcodeOf w = 0 →
    (fld w 0 55 = 0 → (slotFields c w).toOption.bind (instrOf 0) = some .nop) ∧
    (fld w 0 55 ≠ 0 → slotFields c w = .error .reservedField))

/-- The scalar R forms write their result to DST, and the I forms the results of their R forms with b := IMM32; SMOVI writes IMM32;
nothing else of the state changes (02 R50, R51, R53). -/
def Obligations.ScalarResults32 : Prop :=
  (ScalarR .sadd (fun _ a b _ => a + b) ∧ ScalarR .ssub (fun _ a b _ => a - b) ∧ ScalarR .smul (fun _ a b _ => a * b) ∧
   ScalarR .smulh (fun f a b _ => if f.sub.val = 1 then BitVec.ofInt 32 (a.toInt * b.toInt / 2 ^ 32)
     else BitVec.ofNat 32 (a.toNat * b.toNat / 2 ^ 32)) ∧
   ScalarR .sdivu (fun _ a b _ => if b = 0 then 0xFFFFFFFF#32 else a / b) ∧
   ScalarR .sremu (fun _ a b _ => if b = 0 then a else a % b) ∧
   ScalarR .smin (fun f a b _ => minW (f.sub.val == 1) a b) ∧ ScalarR .smax (fun f a b _ => maxW (f.sub.val == 1) a b) ∧
   ScalarR .sand (fun _ a b _ => a &&& b) ∧ ScalarR .sor (fun _ a b _ => a ||| b) ∧ ScalarR .sxor (fun _ a b _ => a ^^^ b) ∧
   ScalarR .snot (fun _ a _ _ => ~~~a) ∧
   ScalarR .sshl (fun _ a b _ => if b.toNat ≥ 32 then 0 else a <<< b.toNat) ∧
   ScalarR .sshr (fun _ a b _ => if b.toNat ≥ 32 then 0 else a >>> b.toNat) ∧
   ScalarR .ssra (fun _ a b _ => if b.toNat ≥ 32 then (if a.msb then BitVec.allOnes 32 else 0) else a.sshiftRight b.toNat) ∧
   ScalarR .sclz (fun _ a _ _ => clzW a) ∧ ScalarR .spopc (fun _ a _ _ => popcW a) ∧
   ScalarR .scmp (fun f a b _ => if icond f.sub.val a b then 1 else 0) ∧
   ScalarR .ssel (fun _ a b c => if c ≠ 0 then a else b) ∧ ScalarR .smov (fun _ a _ _ => a)) ∧
  (ScalarI .saddI (fun _ a b => a + b) ∧ ScalarI .ssubI (fun _ a b => a - b) ∧ ScalarI .smulI (fun _ a b => a * b) ∧
   ScalarI .smulhI (fun f a b => if f.subh.val % 2 = 1 then BitVec.ofInt 32 (a.toInt * b.toInt / 2 ^ 32)
     else BitVec.ofNat 32 (a.toNat * b.toNat / 2 ^ 32)) ∧
   ScalarI .sdivuI (fun _ a b => if b = 0 then 0xFFFFFFFF#32 else a / b) ∧
   ScalarI .sremuI (fun _ a b => if b = 0 then a else a % b) ∧
   ScalarI .sminI (fun f a b => minW (f.subh.val % 2 == 1) a b) ∧ ScalarI .smaxI (fun f a b => maxW (f.subh.val % 2 == 1) a b) ∧
   ScalarI .sandI (fun _ a b => a &&& b) ∧ ScalarI .sorI (fun _ a b => a ||| b) ∧ ScalarI .sxorI (fun _ a b => a ^^^ b) ∧
   ScalarI .sshlI (fun _ a b => if b.toNat ≥ 32 then 0 else a <<< b.toNat) ∧
   ScalarI .sshrI (fun _ a b => if b.toNat ≥ 32 then 0 else a >>> b.toNat) ∧
   ScalarI .ssraI (fun _ a b => if b.toNat ≥ 32 then (if a.msb then BitVec.allOnes 32 else 0) else a.sshiftRight b.toNat) ∧
   ScalarI .scmpI (fun f a b => if icond f.subh.val a b then 1 else 0) ∧ ScalarI .smovi (fun _ _ b => b) ∧
   (∀ (f : IF) (s : State), Completes s (exec (.saddaI f) s) (s.wr64 f.dst (s.rd64 f.a + f.imm.signExtend 64))))

/-- SADDA and the 64-bit scalar forms act on register pairs modulo 2^64; SCMP.64 writes one scalar, and the counts of the shifts are
32-bit values (02 R52). SLDK loads a word or a pair of the argument copy, little-endian; an offset that is misaligned or leaves
ARGSIZE is the argument-range trap with the offset in TADDR, modulo 2^32 (02 R54, 04 R99; the model's choice for an offset beyond,
log 22). -/
def Obligations.ScalarPairsAndArguments : Prop :=
  (∀ (f : RF) (s : State),
     Completes s (exec (.sadda f) s) (s.wr64 f.dst (s.rd64 f.a + (s.rdS f.b).signExtend 64)) ∧
     Completes s (exec (.sadd64 f) s) (s.wr64 f.dst (s.rd64 f.a + s.rd64 f.b)) ∧
     Completes s (exec (.ssub64 f) s) (s.wr64 f.dst (s.rd64 f.a - s.rd64 f.b)) ∧
     Completes s (exec (.smul64 f) s) (s.wr64 f.dst (s.rd64 f.a * s.rd64 f.b)) ∧
     Completes s (exec (.smin64 f) s) (s.wr64 f.dst (minW (f.sub.val == 1) (s.rd64 f.a) (s.rd64 f.b))) ∧
     Completes s (exec (.smax64 f) s) (s.wr64 f.dst (maxW (f.sub.val == 1) (s.rd64 f.a) (s.rd64 f.b))) ∧
     Completes s (exec (.sand64 f) s) (s.wr64 f.dst (s.rd64 f.a &&& s.rd64 f.b)) ∧
     Completes s (exec (.sor64 f) s) (s.wr64 f.dst (s.rd64 f.a ||| s.rd64 f.b)) ∧
     Completes s (exec (.sxor64 f) s) (s.wr64 f.dst (s.rd64 f.a ^^^ s.rd64 f.b)) ∧
     Completes s (exec (.sshl64 f) s) (s.wr64 f.dst (shlW (s.rd64 f.a) (s.rdS f.b).toNat)) ∧
     Completes s (exec (.sshr64 f) s) (s.wr64 f.dst (shrW (s.rd64 f.a) (s.rdS f.b).toNat)) ∧
     Completes s (exec (.ssra64 f) s) (s.wr64 f.dst (sraW (s.rd64 f.a) (s.rdS f.b).toNat)) ∧
     Completes s (exec (.scmp64 f) s) (s.wrS f.dst (if icond f.sub.val (s.rd64 f.a) (s.rd64 f.b) then 1 else 0)) ∧
     Completes s (exec (.smov64 f) s) (s.wr64 f.dst (s.rd64 f.a))) ∧
  (∀ (f : IF) (s : State) (a : Nat), a = (s.rdS f.a).toNat + f.imm.toNat →
     (f.subh.val % 2 = 0 → a % 4 = 0 → a + 4 ≤ s.lrec.argsize →
       Completes s (exec (.sldk f) s) (s.wrS f.dst (BitVec.ofNat 32 (s.argRead a 4)))) ∧
     (f.subh.val % 2 = 1 → a % 8 = 0 → a + 8 ≤ s.lrec.argsize →
       Completes s (exec (.sldk f) s) (s.wr64 f.dst (BitVec.ofNat 64 (s.argRead a 8)))) ∧
     (∀ size, size = (if f.subh.val % 2 = 1 then 8 else 4) → (a % size ≠ 0 ∨ s.lrec.argsize < a + size) →
       exec (.sldk f) s = .next (s.trapHere ⟨0x14, a % 2 ^ 32, 0, 0⟩)))

/-- What the counts, quotients and conditions of 02 R50 and R51 are, in numbers: the leading zeros of a value, its ones, the
quotient and remainder, the high half of a product, the lesser and the greater, and the ten conditions. -/
def Obligations.IntegerResultsInNumbers : Prop :=
  ∀ a b : W32,
    (a = 0 → (clzW a).toNat = 32) ∧
    (a ≠ 0 → (clzW a).toNat < 32 ∧ 2 ^ (31 - (clzW a).toNat) ≤ a.toNat ∧ a.toNat < 2 ^ (32 - (clzW a).toNat)) ∧
    (popcW a).toNat = ((List.range 32).map fun i => (a.getLsbD i).toNat).sum ∧
    (b ≠ 0 → a.toNat = (divu a b).toNat * b.toNat + (remu a b).toNat ∧ (remu a b).toNat < b.toNat) ∧
    (mulhu a b).toNat * 2 ^ 32 + (a * b).toNat = a.toNat * b.toNat ∧
    (mulhs a b).toInt * 2 ^ 32 + (a * b).toNat = a.toInt * b.toInt ∧
    (minW true a b).toNat = min a.toNat b.toNat ∧ (maxW true a b).toNat = max a.toNat b.toNat ∧
    (minW false a b).toInt = min a.toInt b.toInt ∧ (maxW false a b).toInt = max a.toInt b.toInt ∧
    (icond 0 a b = true ↔ a = b) ∧ (icond 1 a b = true ↔ a ≠ b) ∧
    (icond 2 a b = true ↔ a.toInt < b.toInt) ∧ (icond 3 a b = true ↔ a.toInt ≥ b.toInt) ∧
    (icond 4 a b = true ↔ a.toNat < b.toNat) ∧ (icond 5 a b = true ↔ a.toNat ≥ b.toNat) ∧
    (icond 6 a b = true ↔ a.toInt ≤ b.toInt) ∧ (icond 7 a b = true ↔ a.toInt > b.toInt) ∧
    (icond 8 a b = true ↔ a.toNat ≤ b.toNat) ∧ (icond 9 a b = true ↔ a.toNat > b.toNat)

/-! ## Branches, calls, forks and predicates -/

/-- BR, BRC and BRI go to their target where it holds a clause header, and change nothing else; a BRC whose condition fails, like a
CALL whose condition fails, is sequential flow (01 R30, R31; 02 R55, R57). -/
def Obligations.BranchesReachTargets : Prop :=
  ∀ (f : BF) (s : State) (t h : Nat), s.checkTarget t = .ok h →
    ∀ fill, fill = s.noteFetch t →
    (t = (s.cw.pa.here + 8 * f.off.toNat) % 2 ^ 32 →
      Branches (exec (.br f) s) fill t ∧
      (branchCond f.cc.val (s.rdS f.cond) s.execMask = true → Branches (exec (.brc f) s) fill t)) ∧
    (branchCond f.cc.val (s.rdS f.cond) s.execMask = false → Completes s (exec (.brc f) s) s ∧
      (s.cw.forked = false ∨ s.cw.tm = true → Completes s (exec (.call f) s) s)) ∧
    (t = (s.rdS f.cond).toNat → Branches (exec (.bri f) s) fill t)

/-- Where control traps. CheckTarget (01 R31): a target off the 8-byte grid, or whose word is no header, is the branch-target trap
with the target in TADDR, one outside the code segment the instruction-fetch fault with TDATA 0, against the branch, and nothing
else happens. CALL and RET outside trap mode in a live fork are the call-in-fork trap; RET without a link is the call-depth trap;
CALL with 127 links is the stack-limit fault, without spilling (02 R57, R58; 04 R96), and so is one whose segments, the oldest
resident windows' as far as they make room, do not fit in the spill area (03 R84, R85). The predicate-stack trap (02 R79): a push on
sixteen entries is sub-code 1, a pop or PINV of too few sub-code 2, of an entry that a fork made, at whatever depth, sub-code 4. That
a target's low bits are checked before its range is the model's reading (log 26, DEDUCED). -/
def Obligations.ControlTraps : Prop :=
  (∀ (f : BF) (s : State) (t : Nat) (r : TrapRec), s.checkTarget t = .trap r →
     (t % 8 ≠ 0 → r = ⟨0x08, t, 0, 0⟩) ∧
     (t % 8 = 0 → s.lrec.codesize < t + 8 → r = ⟨0x09, t, 0, 0⟩) ∧
     (∀ w, t % 8 = 0 → s.fetchWord s.cw.core s.lrec t = .word w → r = ⟨0x08, t, 0, 0⟩ ∧ opcodeOf w ≠ 0x1FF) ∧
     (t = (s.rdS f.cond).toNat → exec (.bri f) s = .next ((s.noteFetchFault r).trap r s.cw.pa.here s.cw.pa.slot)) ∧
     (t = (s.cw.pa.here + 8 * f.off.toNat) % 2 ^ 32 →
       exec (.br f) s = .next ((s.noteFetchFault r).trap r s.cw.pa.here s.cw.pa.slot) ∧
       exec (.fork f) s = .next ((s.noteFetchFault r).trap r s.cw.pa.here s.cw.pa.slot) ∧
       exec (.join f) s = .next ((s.noteFetchFault r).trap r s.cw.pa.here s.cw.pa.slot))) ∧
  (∀ (f : BF) (s : State),
     (s.cw.forked = true → s.cw.tm = false →
       exec (.call f) s = .next (s.trap ⟨0x10, 0, 0, 0⟩ s.cw.pa.here s.cw.pa.slot) ∧
       exec (.ret f) s = .next (s.trap ⟨0x10, 0, 0, 0⟩ s.cw.pa.here s.cw.pa.slot)) ∧
     (s.cw.forked = false → s.cw.links = [] → exec (.ret f) s = .next (s.trap ⟨0x13, 0, 0, 0⟩ s.cw.pa.here s.cw.pa.slot)) ∧
     (∀ t h, s.cw.forked = false → branchCond f.cc.val (s.rdS f.cond) s.execMask = true →
       t = (s.cw.pa.here + 8 * f.off.toNat) % 2 ^ 32 → s.checkTarget t = .ok h → 127 ≤ s.cw.links.length →
       exec (.call f) s = .next ((s.noteFetch t).trap
         ⟨0x18, 0xFFFFFFFF, s.cw.spillUsed, 0⟩ s.cw.pa.here s.cw.pa.slot)) ∧
     (∀ t h segs regs, s.cw.forked = false → branchCond f.cc.val (s.rdS f.cond) s.execMask = true →
       t = (s.cw.pa.here + 8 * f.off.toNat) % 2 ^ 32 → s.checkTarget t = .ok h → s.cw.links.length < 127 →
       segs = segmentsFor (s.cw.residentCallers ++ [s.cw.wsize]) (s.cw.span - 8 + f.w.val) s.stackRegs → segs ≠ [] →
       regs = (segs.map (· - 8)).sum → s.lrec.spillbytes < s.cw.spillUsed + 4 * regs →
       exec (.call f) s = .next ((s.noteFetch t).trap
         ⟨0x18, s.cw.spillUsed, s.cw.spillUsed + 4 * regs, 0⟩ s.cw.pa.here s.cw.pa.slot))) ∧
  (∀ (ws : List Nat) (span room : Nat), ∃ n, segmentsFor ws span room = ws.take n ∧
     (n < ws.length → span - ((ws.take n).map (· - 8)).sum ≤ room) ∧
     ∀ m, m < n → m < ws.length → room < span - ((ws.take m).map (· - 8)).sum) ∧
  (∀ (f : RF) (s : State),
     (16 ≤ s.cw.pa.stack.length → exec (.ppush f) s = .next (s.trap ⟨0x12, 0, 1, 0⟩ s.cw.pa.here s.cw.pa.slot)) ∧
     (s.cw.pa.stack = [] → exec (.pinv f) s = .next (s.trap ⟨0x12, 0, 2, 0⟩ s.cw.pa.here s.cw.pa.slot)) ∧
     (s.cw.pa.stack.length < f.sub.val + 1 → exec (.ppop f) s = .next (s.trap ⟨0x12, 0, 2, 0⟩ s.cw.pa.here s.cw.pa.slot)) ∧
     (∀ e rest, s.cw.pa.stack = e :: rest → e.kind ≠ .plain →
       exec (.pinv f) s = .next (s.trap ⟨0x12, 0, 4, 0⟩ s.cw.pa.here s.cw.pa.slot)) ∧
     (∀ e ∈ s.cw.pa.stack.take (f.sub.val + 1), e.kind ≠ .plain → f.sub.val + 1 ≤ s.cw.pa.stack.length →
       exec (.ppop f) s = .next (s.trap ⟨0x12, 0, 4, 0⟩ s.cw.pa.here s.cw.pa.slot)))

/-- CALL with room for the new window pushes the link (old window size, old lk), puts the return offset in lk, gives a window of W
registers whose first eight are the caller's last eight, and goes to its target; every other scalar register, and every vector
register outside the new window's fresh part, keeps its value (02 R57; 04 R95, R96). RET with the caller's window still in its
registers pops the link: lk, the window size and the window base become the caller's, and it goes to the offset lk held; nothing
else changes (02 R58; 04 R97). A CALL without that room whose segments fit in the spill area writes them first, register by register
and lane by lane, at the next free offsets of each lane's spill area, and touches no other byte; a RET to a window that is not
resident reads the last segment back into the caller's registers, and changes no byte (03 R84; 04 R97). For these two the spill
area's words lie in HBM, each at a place of its own, which a cached translation names. -/
def Obligations.CallsAndReturns : Prop :=
  (∀ (f : BF) (s : State) (t h : Nat), t = (s.cw.pa.here + 8 * f.off.toNat) % 2 ^ 32 → s.checkTarget t = .ok h →
     (s.cw.forked = false ∨ s.cw.tm = true) → branchCond f.cc.val (s.rdS f.cond) s.execMask = true → s.cw.links.length < 127 →
     segmentsFor (s.cw.residentCallers ++ [s.cw.wsize]) (s.cw.span - 8 + f.w.val) s.stackRegs = [] →
     ∃ u, exec (.call f) s = .next u ∧ u.cw.pa.spot = (t, none, 0) ∧ u.cw.links = (s.cw.wsize, s.cw.sreg 383) :: s.cw.links ∧
       u.cw.sreg 383 = BitVec.ofNat 32 s.cw.pa.seqPc ∧ u.cw.wsize = f.w.val ∧
       u.cw.wbase = (s.cw.wbase + s.cw.wsize - 8) % s.stackRegs ∧ u.cw.spills = s.cw.spills ∧
       (∀ i, i ≠ 383 → u.cw.sreg i = s.cw.sreg i) ∧
       (∀ r l, l < 32 → (∀ k, k < f.w.val - 8 → r ≠ (s.cw.wbase + s.cw.wsize - 8 + 8 + k) % s.stackRegs) →
         u.cw.vphys r l = s.cw.vphys r l) ∧
       u.cw.pflags = s.cw.pflags ∧ u.cw.wsr = s.cw.wsr ∧ u.hbm = s.hbm ∧ u.spd = s.spd ∧ u.accs = s.accs ∧ u.ops = s.ops) ∧
  (∀ (f : BF) (s : State) (old : Nat) (link : W32) (rest : List (Nat × W32)) (h : Nat), s.cw.links = (old, link) :: rest →
     (s.cw.forked = false ∨ s.cw.tm = true) → s.checkTarget (s.cw.sreg 383).toNat = .ok h → s.cw.spills.length < s.cw.links.length →
     Branches (exec (.ret f) s)
       ((s.noteFetch (s.cw.sreg 383).toNat).onWave fun w =>
         { (w.setS 383 link) with
           links := rest, wsize := old, wbase := (s.cw.wbase + s.stackRegs * 256 - (old - 8)) % s.stackRegs })
       (s.cw.sreg 383).toNat) ∧
  (∀ (f : BF) (s fill : State) (t h : Nat) (segs : List Nat) (regs : Nat) (at_ : Nat → Nat → Nat),
     t = (s.cw.pa.here + 8 * f.off.toNat) % 2 ^ 32 → s.checkTarget t = .ok h → fill = s.noteFetch t →
     (s.cw.forked = false ∨ s.cw.tm = true) → branchCond f.cc.val (s.rdS f.cond) s.execMask = true → s.cw.links.length < 127 →
     segs = segmentsFor (s.cw.residentCallers ++ [s.cw.wsize]) (s.cw.span - 8 + f.w.val) s.stackRegs → segs ≠ [] →
     regs = (segs.map (· - 8)).sum → s.cw.spillUsed + 4 * regs ≤ s.lrec.spillbytes → s.accs = [] →
     (∀ k l, k < regs → l < 32 → fill.SpillAt (s.cw.spillUsed + 4 * k) l (at_ k l)) →
     (∀ k l k' l', k < regs → l < 32 → k' < regs → l' < 32 → (k, l) ≠ (k', l') →
       at_ k l + 4 ≤ at_ k' l' ∨ at_ k' l' + 4 ≤ at_ k l) →
     ∃ u, exec (.call f) s = .next u ∧ u.cw.pa.spot = (t, none, 0) ∧ u.cw.links = (s.cw.wsize, s.cw.sreg 383) :: s.cw.links ∧
       u.cw.sreg 383 = BitVec.ofNat 32 s.cw.pa.seqPc ∧ u.cw.wsize = f.w.val ∧
       u.cw.wbase = (s.cw.wbase + s.cw.wsize - 8) % s.stackRegs ∧
       u.cw.spills.map (·.regs) = s.cw.spills.map (·.regs) ++ segs.map (· - 8) ∧
       (∀ i, i ≠ 383 → u.cw.sreg i = s.cw.sreg i) ∧
       (∀ k l i, k < regs → l < 32 → i < 4 → u.homeByte false (at_ k l + i) = BitVec.ofNat 8
         ((s.cw.vphys ((s.cw.oldestBase s.stackRegs + k) % s.stackRegs) l).toNat / 256 ^ i)) ∧
       (∀ a, (∀ k l, k < regs → l < 32 → a < at_ k l ∨ at_ k l + 4 ≤ a) → u.homeByte false a = s.homeByte false a) ∧
       u.host = s.host ∧ u.spd = s.spd ∧ u.ops = s.ops) ∧
  (∀ (f : BF) (s fill : State) (old : Nat) (link : W32) (rest : List (Nat × W32)) (h base : Nat) (sp : Spill) (at_ : Nat → Nat → Nat),
     s.cw.links = (old, link) :: rest → (s.cw.forked = false ∨ s.cw.tm = true) → s.checkTarget (s.cw.sreg 383).toNat = .ok h →
     fill = s.noteFetch (s.cw.sreg 383).toNat → s.cw.links.length ≤ s.cw.spills.length → s.cw.spills.getLast? = some sp →
     sp.regs ≤ s.stackRegs → s.accs = [] → base = (s.cw.wbase + s.stackRegs * 256 - (old - 8)) % s.stackRegs →
     (∀ k l, k < sp.regs → l < 32 → fill.SpillAt (sp.off + 4 * k) l (at_ k l)) →
     ∃ u, exec (.ret f) s = .next u ∧ u.cw.pa.spot = ((s.cw.sreg 383).toNat, none, 0) ∧ u.cw.links = rest ∧ u.cw.sreg 383 = link ∧
       u.cw.wsize = old ∧ u.cw.wbase = base ∧ u.cw.spills = s.cw.spills.dropLast ∧
       (∀ i, i ≠ 383 → u.cw.sreg i = s.cw.sreg i) ∧
       (∀ k l, k < sp.regs → l < 32 → (u.cw.vphys ((base + k) % s.stackRegs) l).toNat =
         ofBytes ((List.range 4).map fun i => (s.homeByte false (at_ k l + i)).toNat)) ∧
       (∀ r l, l < 32 → (∀ k, k < sp.regs → r ≠ (base + k) % s.stackRegs) → u.cw.vphys r l = s.cw.vphys r l) ∧
       u.hbm = s.hbm ∧ u.host = s.host ∧ u.spd = s.spd ∧ u.ops = s.ops)

/-- END of a wave's last path, in trap mode of any, frees its slot and counts the wave as ended in its block where nothing is owed to
it; otherwise the path stops and waits. A path that a fork made already arrived counts as ended with its peer. In a live fork whose
other path goes on, END parks its path; where the other has arrived at a JOIN, that one takes the predicate-stack trap with sub-code
5 there. TEND of a task wave does the same; of another wave it is the task trap, sub-code 1
(02 R56; 13 R325). In trap mode the faults of the wave's accesses do not hold its end up (03 R86, 04 R104). That the end waits for
every access the wave has outstanding, stores among them, is the model's reading of what is owed to the wave (log 28). -/
def Obligations.EndFreesTheSlot : Prop :=
  ∀ (f : BF) (s : State) (owed : Prop), s.cw.resid ≠ .free → s.cw.resid ≠ .future →
   (s.cw.tm = false → s.cw.pb.over = false →
     ((∀ t, s.cw.pb.phase ≠ .arrived t false) → ∃ t, exec (.endP f) s = .next t ∧ t.cw.pa.phase = .ending ∧ t.arch = s.arch) ∧
     (∀ j, s.cw.pb.phase = .arrived j false → s.lrec.trapentry ≠ 0xFFFFFFFF → ∃ t, exec (.endP f) s = .next t ∧
       t.cw.pa.phase = .ending ∧ t.cw.tm = true ∧ t.cw.pb.inTrap = true ∧ t.cw.pb.pc = s.lrec.trapentry ∧ t.cw.tcause = 0x12 ∧
       t.cw.tdata = 5 ∧ t.cw.tclause = BitVec.ofNat 32 s.cw.pb.here ∧ t.cw.tslot = BitVec.ofNat 32 s.cw.pb.slot ∧
       t.hbm = s.hbm ∧ t.accs = s.accs)) ∧
   (s.cw.tm = true ∨ s.cw.pb.over = true →
    (s.cw.tm = true ∨ s.cw.pa.pend = [] ∧ s.cw.pb.pend = []) →
    (owed ↔ ∃ a ∈ s.accs, a.uid = s.cw.uid ∧ a.kind.ofWave = true ∧ (s.cw.tm = false ∨ a.settled = false)) →
    (¬owed → ∃ t, exec (.endP f) s = .next t ∧ t.cw.resid = .free ∧ t.cw.pa.phase = .idle ∧
      t.cw.uid = s.cw.uid ∧ (∀ b, SMap.get? s.blocks s.cw.block = some b →
        ∃ b', SMap.get? t.blocks s.cw.block = some b' ∧ s.cw.widx ∈ b'.ended)) ∧
    (owed → ∃ t, exec (.endP f) s = .next t ∧ t.cw.pa.phase = .ending ∧
      t.cw.resid = s.cw.resid ∧ t.arch = (if s.cw.tm then s.dropFaults s.cw.uid else s).arch) ∧
    (s.cw.task.isSome = true → exec .tend s = exec (.endP f) s) ∧
    (s.cw.task = none → exec .tend s = .next (s.trap ⟨0x2C, 0, 1, 0⟩ s.cw.pa.here s.cw.pa.slot)))

/-- A topmost FORK makes two paths: path 1 gets the lanes of the mask with the flag at the target, path 0 the others at the successor
clause; the wave is forked and remembers what it was; with no lane for it path 1 has already arrived, else it is ready or waits for
what its first clause needs (18 R374). A FORK inside a path of a fork
is serialised on the path: the lanes without the flag run first, then those with it; with all lanes on one side only that side runs;
a full predicate stack is sub-code 1 (02 R80). -/
def Obligations.ForksMakePaths : Prop :=
  (∀ (f : BF) (s : State) (i : Fin 8) (t h : Nat), f.cond = .p i → s.cw.forked = false →
     t = (s.cw.pa.here + 8 * f.off.toNat) % 2 ^ 32 → s.checkTarget t = .ok h →
     ∃ u, exec (.fork f) s = .next u ∧ u.cw.forked = true ∧ u.cw.tm = s.cw.tm ∧ u.cw.second = s.cw.second ∧
       u.cw.fork = some { base := s.cw.pa.base, stack := s.cw.pa.stack, depth := s.cw.pa.stack.length } ∧
       u.cw.pa.spot = (s.cw.pa.seqPc, none, 0) ∧ u.cw.pb.spot = (t, none, 0) ∧
       u.cw.pa.base = s.execMask &&& ~~~(s.cw.preg i) ∧ u.cw.pb.base = s.execMask &&& s.cw.preg i ∧
       (s.execMask &&& s.cw.preg i = 0 → u.cw.pb.phase = .arrived t true) ∧
       (s.execMask &&& s.cw.preg i ≠ 0 → u.cw.pb.phase = .ready ∨
         (s.accs ≠ [] ∧ u.cw.pb.phase = .parked .inputs) ∨ (s.ops ≠ [] ∧ u.cw.pb.phase = .parked .bwait)) ∧
       u.cw.sregs = s.cw.sregs ∧ u.cw.vregs = s.cw.vregs ∧ u.cw.pflags = s.cw.pflags ∧ u.cw.links = s.cw.links ∧
       u.hbm = s.hbm ∧ u.spd = s.spd ∧ u.ops = s.ops) ∧
  (∀ (f : BF) (s : State) (i : Fin 8) (t h : Nat), f.cond = .p i → s.cw.forked = true →
     t = (s.cw.pa.here + 8 * f.off.toNat) % 2 ^ 32 → s.checkTarget t = .ok h →
     ∀ fill, fill = s.noteFetch t →
     (s.execMask &&& ~~~(s.cw.preg i) = 0 → s.cw.pa.stack.length < 16 →
       Branches (exec (.fork f) s) (fill.onPa fun p => { p with stack := ⟨s.execMask &&& s.cw.preg i, .run2⟩ :: p.stack }) t) ∧
     (s.execMask &&& ~~~(s.cw.preg i) ≠ 0 → s.cw.pa.stack.length < 15 →
       Branches (exec (.fork f) s)
         (fill.onPa fun p =>
           { p with stack := ⟨s.execMask &&& ~~~(s.cw.preg i), .run1⟩ :: ⟨s.execMask &&& s.cw.preg i, .pend t⟩ :: p.stack })
         s.cw.pa.seqPc) ∧
     (16 ≤ s.cw.pa.stack.length ∨ s.execMask &&& ~~~(s.cw.preg i) ≠ 0 ∧ 15 ≤ s.cw.pa.stack.length →
       exec (.fork f) s = .next (fill.trap ⟨0x12, 0, 1, 0⟩ s.cw.pa.here s.cw.pa.slot)))

/-- JOIN (02 R81): after the first part of a serialised fork the second runs, where it has lanes, at a resume target that is checked
against the JOIN (01 R31); after the last part the fork's
entries go; the second path of a topmost fork to arrive makes one path again, with the masks from before the fork, at path 0's
target; the first to arrive waits; a JOIN that meets no fork is sub-code 3. -/
def Obligations.JoinMeetsItsFork : Prop :=
  ∀ (f : BF) (s : State) (t h : Nat), t = (s.cw.pa.here + 8 * f.off.toNat) % 2 ^ 32 → s.checkTarget t = .ok h →
    ∀ fill, fill = s.noteFetch t →
    (∀ m m' resume rest, s.cw.pa.stack = ⟨m, .run1⟩ :: ⟨m', .pend resume⟩ :: rest →
      (m' = 0 → Branches (exec (.join f) s) (fill.onPa fun p => { p with stack := rest }) t) ∧
      (∀ h', m' ≠ 0 → fill.checkTarget resume = .ok h' → Branches (exec (.join f) s)
        ((fill.noteFetch resume).onPa fun p =>
          { p with stack := ⟨m', .run2⟩ :: rest }) resume) ∧
      (∀ r, m' ≠ 0 → fill.checkTarget resume = .trap r →
        exec (.join f) s = .next ((fill.noteFetchFault r).trap r s.cw.pa.here s.cw.pa.slot))) ∧
    (∀ m rest, s.cw.pa.stack = ⟨m, .run2⟩ :: rest →
      Branches (exec (.join f) s) (fill.onPa fun p => { p with stack := rest }) t) ∧
    (∀ fk, s.cw.pa.stack.head?.all (fun e => e.kind == .plain) = true → s.cw.forked = true → s.cw.fork = some fk →
      fk.depth = s.cw.pa.stack.length → s.cw.pb.phase ≠ .ending →
      (∀ other auto, s.cw.pb.phase = .arrived other auto → ∃ u, exec (.join f) s = .next u ∧ u.cw.forked = false ∧
        u.cw.second = false ∧ u.cw.fork = none ∧ u.cw.pa.base = fk.base ∧ u.cw.pa.stack = fk.stack ∧ u.cw.pb.phase = .idle ∧
        u.cw.pa.spot = (if s.cw.second then other else t, none, 0) ∧ u.cw.sregs = s.cw.sregs ∧ u.cw.vregs = s.cw.vregs ∧
        u.cw.pflags = s.cw.pflags ∧ u.hbm = s.hbm ∧ u.spd = s.spd ∧
        u.accs = s.accs.map (fun (a : Access) => if a.uid = s.cw.uid then { a with second := false, both := false } else a) ∧
        u.ops = s.ops.map (fun (o : AOp) => if o.uid = s.cw.uid then { o with second := false } else o)) ∧
      ((∀ other auto, s.cw.pb.phase ≠ .arrived other auto) → ∃ u, exec (.join f) s = .next u ∧ u.arch = fill.arch ∧
        u.cw.pa.phase = .arrived t false)) ∧
    (s.cw.pa.stack.head?.all (fun e => e.kind == .plain) = true → s.cw.forked = false →
      exec (.join f) s = .next (fill.trap ⟨0x12, 0, 3, 0⟩ s.cw.pa.here s.cw.pa.slot))

/-- PPUSH pushes the mask and a flag, or its complement; PINV turns the top entry over within the mask below; PPOP drops entries;
PSET, PPACK, PUNPK, PANY and PALL act on the flags of the active lanes (02 R79). -/
def Obligations.PredicatesAndFlags : Prop :=
  (∀ (f : RF) (s : State) (i : Fin 8),
     (f.a = .p i → s.cw.pa.stack.length < 16 →
       Completes s (exec (.ppush f) s) (s.onPa fun p =>
         { p with stack := ⟨s.execMask &&& (if f.sub.val = 1 then ~~~(s.cw.preg i) else s.cw.preg i), .plain⟩ :: p.stack })) ∧
     (∀ m rest, s.cw.pa.stack = ⟨m, .plain⟩ :: rest →
       Completes s (exec (.pinv f) s) (s.onPa fun p =>
         { p with stack := ⟨(match rest with | e :: _ => e.mask | [] => s.cw.pa.base) &&& ~~~m, .plain⟩ :: rest })) ∧
     (f.sub.val + 1 ≤ s.cw.pa.stack.length → (s.cw.pa.stack.take (f.sub.val + 1)).all (fun e => e.kind == .plain) = true →
       Completes s (exec (.ppop f) s) (s.onPa fun p => { p with stack := p.stack.drop (f.sub.val + 1) }))) ∧
  (∀ (f : RF) (s : State),
     (f.sub.val = 0 → Completes s (exec (.pset f) s) (s.wrFlags f.dst (s.active f.all) fun l => s.rdL f.a l != 0)) ∧
     (f.sub.val ≠ 0 → Completes s (exec (.pset f) s)
       (s.wrFlags f.dst (s.active f.all) fun l => psetOp f.sub.val (s.flag f.a l) (s.flag f.b l))) ∧
     Completes s (exec (.ppack f) s) (s.wrLanes f.dst (s.active f.all) fun l => s.cw.flagByte l) ∧
     Completes s (exec (.punpk f) s) (s.onWave fun w => w.setFlagBytes (s.active f.all) fun l => s.rdL f.a l) ∧
     (f.sub.val = 1 → Completes s (exec (.pany f) s)
       (s.wrS f.dst (maskOf fun l => (s.active f.all).contains l && s.flag f.a l))) ∧
     (f.sub.val ≠ 1 → Completes s (exec (.pany f) s)
       (s.wrS f.dst (if maskOf (fun l => (s.active f.all).contains l && s.flag f.a l) ≠ 0 then 1 else 0))) ∧
     Completes s (exec (.pall f) s) (s.wrS f.dst (if (s.active f.all).all (fun l => s.flag f.a l) then 1 else 0)) ∧
     (∀ (i j : Fin 8) (ls : List Nat) (g : Nat → Bool) (l : Nat), l < 32 →
       (s.wrFlags (.p i) ls g).flag (.p j) l = if j = i ∧ l ∈ ls then g l else s.flag (.p j) l))

/-! ## Lane instructions -/

/-- The lane integer R forms write each active lane's result to that lane of DST, every source read before any write, and the I forms
take IMM32 as b and act on the lanes of the execution mask; VCMP writes the lane's flag, VSEL chooses by a flag; VADD.64 and VSHL.64
act on register pairs per lane modulo 2^64, the shift giving 0 for a count of 64 or more; nothing else changes (02 R64, R67, R68). -/
def Obligations.LaneIntegers : Prop :=
  (LaneR .vadd (fun f a b _ => if f.mod.val % 2 = 1 then
     (if f.sub.val % 2 = 1 then satU32 ((a.toNat : Int) + b.toNat) else satS32 (a.toInt + b.toInt)) else a + b) ∧
   LaneR .vsub (fun f a b _ => if f.mod.val % 2 = 1 then
     (if f.sub.val % 2 = 1 then satU32 ((a.toNat : Int) - b.toNat) else satS32 (a.toInt - b.toInt)) else a - b) ∧
   LaneR .vmul (fun _ a b _ => a * b) ∧
   LaneR .vmulh (fun f a b _ => if f.sub.val = 1 then mulhs a b else mulhu a b) ∧
   LaneR .vmad (fun _ a b c => a * b + c) ∧
   LaneR .vmin (fun f a b _ => minW (f.sub.val == 1) a b) ∧ LaneR .vmax (fun f a b _ => maxW (f.sub.val == 1) a b) ∧
   LaneR .vand (fun _ a b _ => a &&& b) ∧ LaneR .vor (fun _ a b _ => a ||| b) ∧ LaneR .vxor (fun _ a b _ => a ^^^ b) ∧
   LaneR .vnot (fun _ a _ _ => ~~~a) ∧
   LaneR .vshl (fun _ a b _ => if b.toNat ≥ 32 then 0 else a <<< b.toNat) ∧
   LaneR .vshr (fun _ a b _ => if b.toNat ≥ 32 then 0 else a >>> b.toNat) ∧
   LaneR .vsra (fun _ a b _ => if b.toNat ≥ 32 then (if a.msb then BitVec.allOnes 32 else 0) else a.sshiftRight b.toNat) ∧
   LaneR .vclz (fun _ a _ _ => clzW a) ∧ LaneR .vpopc (fun _ a _ _ => popcW a) ∧ LaneR .vmov (fun _ a _ _ => a)) ∧
  (LaneI .vaddI (fun _ a b => a + b) ∧ LaneI .vsubI (fun _ a b => a - b) ∧ LaneI .vmulI (fun _ a b => a * b) ∧
   LaneI .vminI (fun f a b => minW (f.subh.val % 2 == 1) a b) ∧ LaneI .vmaxI (fun f a b => maxW (f.subh.val % 2 == 1) a b) ∧
   LaneI .vandI (fun _ a b => a &&& b) ∧ LaneI .vorI (fun _ a b => a ||| b) ∧ LaneI .vxorI (fun _ a b => a ^^^ b) ∧
   LaneI .vshlI (fun _ a b => if b.toNat ≥ 32 then 0 else a <<< b.toNat) ∧
   LaneI .vshrI (fun _ a b => if b.toNat ≥ 32 then 0 else a >>> b.toNat) ∧
   LaneI .vsraI (fun _ a b => if b.toNat ≥ 32 then (if a.msb then BitVec.allOnes 32 else 0) else a.sshiftRight b.toNat) ∧
   LaneI .vmovI (fun _ _ b => b) ∧
   ∀ (f : IF) (s : State),
     Completes s (exec (.vcmpI f) s) (s.wrFlags f.dst (s.active false) fun l => icond f.subh.val (s.rdL f.a l) f.imm) ∧
     Completes s (exec (.vselI f) s)
       (s.wrLanes f.dst (s.active false) fun l => if s.flag (.p f.subh) l then s.rdL f.a l else f.imm)) ∧
  (∀ (f : RF) (s : State),
     Completes s (exec (.vcmp f) s) (s.wrFlags f.dst (s.active f.all) fun l => icond f.sub.val (s.rdL f.a l) (s.rdL f.b l)) ∧
     Completes s (exec (.vsel f) s)
       (s.wrLanes f.dst (s.active f.all) fun l => if s.flag f.c l then s.rdL f.a l else s.rdL f.b l) ∧
     Completes s (exec (.vadd64 f) s) (s.wrLanes64 f.dst (s.active f.all) fun l => s.rd64L f.a l + s.rd64L f.b l) ∧
     Completes s (exec (.vshl64 f) s) (s.wrLanes64 f.dst (s.active f.all) fun l =>
       if (s.rdL f.b l).toNat ≥ 64 then 0 else s.rd64L f.a l <<< (s.rdL f.b l).toNat))

/-- VSHFL, VBCST and VLANE read a lane of SRCA that is chosen as 02 R65 says, whether or not that lane is active. VRED combines the
active lanes, VSCAN the active lanes up to each lane, itself left out in the exclusive form, from the identity of the operation
(02 R66); VRED.F and VSCAN.F start from the first such lane's value and give the identity where there is none (02 R74). -/
def Obligations.LanesCrossed : Prop :=
  (∀ (f : RF) (g : IF) (s : State) (k : Nat → W32 → Nat → Nat),
     (∀ mode b l, k mode b l = match mode with
       | 0 => b.toNat % 32
       | 1 => Nat.xor l (b.toNat % 32)
       | 2 => if b.toNat ≤ l then l - b.toNat else l
       | _ => if l + b.toNat ≤ 31 then l + b.toNat else l) →
     Completes s (exec (.vshfl f) s) (s.wrLanes f.dst (s.active f.all) fun l => s.rdL f.a (k f.sub.val (s.rdL f.b l) l)) ∧
     Completes s (exec (.vshflI g) s) (s.wrLanes g.dst (s.active false) fun l => s.rdL g.a (k g.subh.val g.imm l)) ∧
     Completes s (exec (.vbcst f) s) (s.wrLanes f.dst (s.active f.all) fun l => s.rdL f.a ((s.rdL f.b l).toNat % 32)) ∧
     Completes s (exec (.vlane f) s) (s.wrS f.dst (s.rdL f.a ((s.rdS f.b).toNat % 32))) ∧
     Completes s (exec (.vlaneI g) s) (s.wrS g.dst (s.rdL g.a (g.imm.toNat % 32)))) ∧
  (∀ (f : RF) (s : State),
     Completes s (exec (.vred f) s)
       (s.wrS f.dst ((s.active f.all).foldl (fun x l => redOp (f.sub.val % 8) x (s.rdL f.a l)) (redId (f.sub.val % 8)))) ∧
     Completes s (exec (.vscan f) s) (s.wrLanes f.dst (s.active f.all) fun l =>
       ((s.active f.all).filter fun k => if f.sub.val / 8 % 2 = 1 then k < l else k ≤ l).foldl
         (fun x k => redOp (f.sub.val % 8) x (s.rdL f.a k)) (redId (f.sub.val % 8))) ∧
     Completes s (exec (.vredF f) s)
       (s.wrS f.dst (s.fredVal (f.sub.val % 4) (fun l => flushIn s.cw.ftz (s.rdL f.a l)) (s.active f.all))) ∧
     Completes s (exec (.vscanF f) s) (s.wrLanes f.dst (s.active f.all) fun l =>
       s.fredVal (f.sub.val % 4) (fun l => flushIn s.cw.ftz (s.rdL f.a l))
         ((s.active f.all).filter fun k => if f.sub.val / 8 % 2 = 1 then k < l else k ≤ l)) ∧
     (∀ op a, s.fredVal op a [] = if op = 0 then 0 else if op = 1 then 0x7F800000 else 0xFF800000))

/-- 02 R48: an instruction with ALL in a live fork outside trap mode is the all-in-fork trap at issue and has no effect; lanes that
are masked off keep their values in a lane destination, and their flags in a flag destination. -/
def Obligations.MaskedLanesAreKept : Prop :=
  (∀ (s : State) (c : Clause) (w : Nat) (f : Fmt), s.cw.pa.clause = some c → c.words[s.cw.pa.slot]? = some w →
    s.cw.pa.phase = .issuing → s.cw.pa.pend = [] → s.missing s.cw.uid s.cw.second = false → s.cw.tm = false →
    slotFields { s.decodeCtx c.cls s.cw.pa.lastSlot with window := c.window } w = .ok f →
    (s.posRegs ((chkFmt (opcodeOf w) f).reads ++ (chkFmt (opcodeOf w) f).writes)).any (s.owed s.cw.uid s.cw.second).contains = false →
    allOf (opcodeOf w) f = true → s.cw.forked = true →
    s.issueCheck = .stop (s.trap ⟨0x11, 0, 0, 0⟩ s.cw.pa.here s.cw.pa.slot)) ∧
  (∀ (s : State) (i j : Fin 256) (g : Nat → W32) (h : Nat → Bool) (n : Fin 8) (l : Nat), i.val < s.stackRegs → j.val < s.stackRegs →
    l < 32 → s.execMask.getLsbD l = false →
    (s.wrLanes (.v i) (s.active false) g).rdL (.v j) l = s.rdL (.v j) l ∧
    (s.wrFlags (.p n) (s.active false) h).flag (.p n) l = s.flag (.p n) l)

/-! ## Floating point -/

/-- The FP32 instructions write each active lane's result: the exact result of the modified, flushed sources, rounded once; FMIN,
FMAX and FCMP compare; the I forms take IMM32 as an FP32 pattern and act on the lanes of the execution mask; the packed-pair
instructions apply the operation to each half in the half's own format (02 R69, R71, R73, R75). -/
def Obligations.FpArithmetic : Prop :=
  (∀ (f : RF) (s : State) (rm : Nat) (a b c : Nat → XR), rm = s.rmOf f.sub.val → a = (fun l => fp32Val (s.fpA f l)) →
     b = (fun l => fp32Val (s.fpB f l)) → c = (fun l => fp32Val (s.fpC f l)) →
     Completes s (exec (.fadd f) s) (s.wrLanes f.dst (s.active f.all) fun l => s.fpOut rm (RF.sat f) (XR.add rm (a l) (b l))) ∧
     Completes s (exec (.fsub f) s) (s.wrLanes f.dst (s.active f.all) fun l => s.fpOut rm (RF.sat f) (XR.add rm (a l) (b l).neg)) ∧
     Completes s (exec (.fmul f) s) (s.wrLanes f.dst (s.active f.all) fun l => s.fpOut rm (RF.sat f) (XR.mul (a l) (b l))) ∧
     Completes s (exec (.ffma f) s) (s.wrLanes f.dst (s.active f.all) fun l => s.fpOut rm (RF.sat f) (XR.fma rm (a l) (b l) (c l))) ∧
     Completes s (exec (.fmin f) s)
       (s.wrLanes f.dst (s.active f.all) fun l => satF32 (RF.sat f) (fmin32 false (s.fpA f l) (s.fpB f l))) ∧
     Completes s (exec (.fmax f) s)
       (s.wrLanes f.dst (s.active f.all) fun l => satF32 (RF.sat f) (fmin32 true (s.fpA f l) (s.fpB f l))) ∧
     Completes s (exec (.fcmp f) s) (s.wrFlags f.dst (s.active f.all) fun l => fcond f.sub.val (a l) (b l))) ∧
  (∀ (f : IF) (s : State) (rm : Nat) (a : Nat → W32) (b : W32), rm = s.rmOf f.subh.val →
     a = (fun l => flushIn s.cw.ftz (s.rdL f.a l)) → b = flushIn s.cw.ftz f.imm →
     Completes s (exec (.faddI f) s)
       (s.wrLanes f.dst (s.active false) fun l => s.fpOut rm false (XR.add rm (fp32Val (a l)) (fp32Val b))) ∧
     Completes s (exec (.fsubI f) s)
       (s.wrLanes f.dst (s.active false) fun l => s.fpOut rm false (XR.add rm (fp32Val (a l)) (fp32Val b).neg)) ∧
     Completes s (exec (.fmulI f) s)
       (s.wrLanes f.dst (s.active false) fun l => s.fpOut rm false (XR.mul (fp32Val (a l)) (fp32Val b))) ∧
     Completes s (exec (.fminI f) s) (s.wrLanes f.dst (s.active false) fun l => fmin32 false (a l) b) ∧
     Completes s (exec (.fmaxI f) s) (s.wrLanes f.dst (s.active false) fun l => fmin32 true (a l) b) ∧
     Completes s (exec (.fcmpI f) s) (s.wrFlags f.dst (s.active false) fun l => fcond f.subh.val (fp32Val (a l)) (fp32Val b))) ∧
  (PackedR .faddH2 fmtFp16 (fun rm a b _ => XR.add rm a b) ∧ PackedR .faddB2 fmtBf16 (fun rm a b _ => XR.add rm a b) ∧
   PackedR .fsubH2 fmtFp16 (fun rm a b _ => XR.add rm a b.neg) ∧ PackedR .fsubB2 fmtBf16 (fun rm a b _ => XR.add rm a b.neg) ∧
   PackedR .fmulH2 fmtFp16 (fun _ a b _ => XR.mul a b) ∧ PackedR .fmulB2 fmtBf16 (fun _ a b _ => XR.mul a b) ∧
   PackedR .ffmaH2 fmtFp16 (fun rm a b c => XR.fma rm a b c) ∧ PackedR .ffmaB2 fmtBf16 (fun rm a b c => XR.fma rm a b c) ∧
   PackedLesser .fminH2 fmtFp16 false ∧ PackedLesser .fminB2 fmtBf16 false ∧
   PackedLesser .fmaxH2 fmtFp16 true ∧ PackedLesser .fmaxB2 fmtBf16 true)

/-- The fixed-function instructions, FRND and FCVT: FRCP, FSQRT and FRND round under SUB; FRSQ, FEXP2, FLOG2, FSIN and FCOS are
rounded under RNE whatever SUB holds (02 R70, R72). That the functions the model computes for FEXP2, FLOG2, FSIN and FCOS are the
correctly rounded ones is the model's reading (log 19). -/
def Obligations.FixedFunctionResults : Prop :=
  ∀ (f : RF) (s : State) (rm : Nat) (a : Nat → XR), rm = s.rmOf f.sub.val → a = (fun l => fp32Val (s.fpA f l)) →
    Completes s (exec (.frcp f) s) (s.wrLanes f.dst (s.active f.all) fun l => s.fpOut rm (RF.sat f) (a l).recip) ∧
    Completes s (exec (.fsqrt f) s) (s.wrLanes f.dst (s.active f.all) fun l => s.fpOut rm (RF.sat f) (a l).sqrt) ∧
    Completes s (exec (.frnd f) s) (s.wrLanes f.dst (s.active f.all) fun l => s.fpOut rm (RF.sat f) (XR.integral rm (a l))) ∧
    Completes s (exec (.frsq f) s)
      (s.wrLanes f.dst (s.active f.all) fun l => s.fixedOut f (roundFp fmtFp32 0 false false (a l).rsqrt)) ∧
    Completes s (exec (.fexp2 f) s) (s.wrLanes f.dst (s.active f.all) fun l => s.fixedOut f (fexp2 (a l))) ∧
    Completes s (exec (.flog2 f) s) (s.wrLanes f.dst (s.active f.all) fun l => s.fixedOut f (flog2 (a l))) ∧
    Completes s (exec (.fsin f) s) (s.wrLanes f.dst (s.active f.all) fun l => s.fixedOut f (fsin (a l))) ∧
    Completes s (exec (.fcos f) s) (s.wrLanes f.dst (s.active f.all) fun l => s.fixedOut f (fcos (a l))) ∧
    Completes s (exec (.fcvt f) s) (s.wrLanes f.dst (s.active f.all) fun l => s.fcvt f l)

/-- The dot products: the exact sum of the products and c, wrapped or clamped for integers, rounded once under WSR.RM for floating
point (02 R76); VPK inserts the narrowed element at its position and VUPK widens it exactly, where the slot's encoding is one they
accept, else they take the unsupported-format trap (02 R77). -/
def Obligations.DotsAndPacks : Prop :=
  ∀ (f : RF) (s : State) (dot : (W32 → W32 → W32 → W32) → State),
    (dot = fun g => s.wrLanes f.dst (s.active f.all) fun l => g (s.rdL f.a l) (s.rdL f.b l) (s.rdL f.c l)) →
    (f.sub.val = 0 → Completes s (exec (.vdot4 f) s) (dot (dotInt 4 8 encInt8 encInt8 (RF.sat f)))) ∧
    (f.sub.val = 1 → Completes s (exec (.vdot4 f) s) (dot (dotInt 4 8 encUint8 encUint8 (RF.sat f)))) ∧
    (f.sub.val = 2 → Completes s (exec (.vdot4 f) s) (dot (dotInt 4 8 encUint8 encInt8 (RF.sat f)))) ∧
    (f.sub.val = 3 → Completes s (exec (.vdot4 f) s) (dot (s.dotFp 4 8 encE4m3 encE4m3))) ∧
    (f.sub.val = 4 → Completes s (exec (.vdot4 f) s) (dot (s.dotFp 4 8 encE5m2 encE5m2))) ∧
    (f.sub.val = 5 → Completes s (exec (.vdot4 f) s) (dot (s.dotFp 4 8 encE4m3 encE5m2))) ∧
    (f.sub.val = 6 → Completes s (exec (.vdot4 f) s) (dot (s.dotFp 4 8 encE5m2 encE4m3))) ∧
    (f.sub.val = 0 → Completes s (exec (.vdot8 f) s) (dot (dotInt 8 4 encInt4 encInt4 (RF.sat f)))) ∧
    (f.sub.val = 1 → Completes s (exec (.vdot8 f) s) (dot (s.dotFp 8 4 encE2m1 encE2m1))) ∧
    (∀ d k, d = s.slotDesc f.fslot.val → k = f.sub.val % 8 →
      (pkOk (slotEnc d) k = true → s.cw.poison = [] →
        Completes s (exec (.vpk f) s) (s.wrLanes f.dst (s.active f.all) fun l => s.vpkVal f d k l) ∧
        Completes s (exec (.vupk f) s) (s.wrLanes f.dst (s.active f.all) fun l =>
          roundF32 0 false (decodeEl (slotEnc d) (elemN (pkBits (slotEnc d)) k (s.rdL f.a l))))) ∧
      (pkOk (slotEnc d) k = false →
        exec (.vpk f) s = .next (s.trap ⟨0x15, 0, f.fslot.val, maskOfList (s.active f.all)⟩ s.cw.pa.here s.cw.pa.slot) ∧
        exec (.vupk f) s = .next (s.trap ⟨0x15, 0, f.fslot.val, maskOfList (s.active f.all)⟩ s.cw.pa.here s.cw.pa.slot)))

/-- 02 R49: every NaN an FP32 instruction leaves in a lane is 0x7FC0_0000, whatever its inputs: the arithmetic, the fixed functions,
FRND, the conversions to FP32, the dot products, VUPK, VRED.F and VSCAN.F, a sole NaN lane of these two among them; and every NaN
half that a packed-pair instruction or a conversion to 16 bits leaves is the canonical NaN of its format, 0x7E00 or 0x7FC0. SAT
leaves no NaN. -/
def Obligations.NaNsAreCanonical : Prop :=
  (∀ (f : RF) (s : State), (∃ i, f.dst = .v i) ∨ f.dst = .sp 0 →
    (∀ c ∈ [Instr.fadd, .fsub, .fmul, .ffma, .fmin, .fmax, .frcp, .frsq, .fsqrt, .fexp2, .flog2, .fsin, .fcos, .frnd, .vscanF],
      LaneNaNs (exec (c f) s) f.dst (s.active f.all)) ∧
    (2 ≤ f.sub.val → f.sub.val ≠ 4 → f.sub.val ≠ 7 → LaneNaNs (exec (.fcvt f) s) f.dst (s.active f.all)) ∧
    (f.sub.val = 4 → HalfNaNs fmtFp16 (exec (.fcvt f) s) f.dst (s.active f.all)) ∧
    (f.sub.val = 7 → HalfNaNs fmtBf16 (exec (.fcvt f) s) f.dst (s.active f.all)) ∧
    (3 ≤ f.sub.val → LaneNaNs (exec (.vdot4 f) s) f.dst (s.active f.all)) ∧
    (f.sub.val ≠ 0 → LaneNaNs (exec (.vdot8 f) s) f.dst (s.active f.all)) ∧
    (pkOk (slotEnc (s.slotDesc f.fslot.val)) (f.sub.val % 8) = true → LaneNaNs (exec (.vupk f) s) f.dst (s.active f.all)) ∧
    (∀ c ∈ [Instr.faddH2, .fsubH2, .fmulH2, .ffmaH2, .fminH2, .fmaxH2], HalfNaNs fmtFp16 (exec (c f) s) f.dst (s.active f.all)) ∧
    (∀ c ∈ [Instr.faddB2, .fsubB2, .fmulB2, .ffmaB2, .fminB2, .fmaxB2], HalfNaNs fmtBf16 (exec (c f) s) f.dst (s.active f.all))) ∧
  (∀ (f : IF) (s : State), (∃ i, f.dst = .v i) ∨ f.dst = .sp 0 →
    ∀ c ∈ [Instr.faddI, .fsubI, .fmulI, .fminI, .fmaxI], LaneNaNs (exec (c f) s) f.dst (s.active false)) ∧
  (∀ (f : RF) (s : State), (∃ i, f.dst = .s i) ∨ (∃ i, f.dst = .e i) ∨ f.dst = .sp 0 →
    ∃ t, exec (.vredF f) s = .next t ∧ (isNaN32 (t.rdS f.dst) = true → t.rdS f.dst = 0x7FC00000#32)) ∧
  (∀ (rm : Nat) (sat : Bool), roundFp fmtFp32 rm sat false .nan = 0x7FC00000 ∧ roundFp fmtFp16 rm sat false .nan = 0x7E00 ∧
    roundFp fmtBf16 rm sat false .nan = 0x7FC0) ∧
  (∀ x : W32, isNaN32 (satF32 true x) = false)

/-! ## Synchronous memory instructions -/

/-- LD and ST without a record list one access of their lanes: a load owes its registers and a store carries its data; the
path goes on (05 R111-R117). -/
def Obligations.LoadsAndStoresIssue : Prop :=
  ∀ (f : MF) (s : State), f.rcd.val = 255 →
    PlainAccess s (.ldZx8 f) f (.load 1 false) 1 [0, 1, 2, 3, 4, 5, 6] (s.regsOf f.data 1) (fun _ => 0) ∧
    PlainAccess s (.ldSx8 f) f (.load 1 true) 1 [0, 1, 2, 3, 4, 5, 6] (s.regsOf f.data 1) (fun _ => 0) ∧
    PlainAccess s (.ldZx16 f) f (.load 2 false) 2 [0, 1, 2, 3, 4, 5, 6] (s.regsOf f.data 1) (fun _ => 0) ∧
    PlainAccess s (.ldSx16 f) f (.load 2 true) 2 [0, 1, 2, 3, 4, 5, 6] (s.regsOf f.data 1) (fun _ => 0) ∧
    PlainAccess s (.ldB32 f) f (.load 4 false) 4 [0, 1, 2, 3, 4, 5, 6] (s.regsOf f.data 1) (fun _ => 0) ∧
    PlainAccess s (.ldB64 f) f (.load 8 false) 8 [0, 1, 2, 3, 4, 5, 6] (s.regsOf f.data 2) (fun _ => 0) ∧
    PlainAccess s (.ldB128 f) f (.load 8 false) 16 [0, 1, 2, 3, 4, 5, 6] (s.regsOf f.data 4) (fun _ => 0) ∧
    PlainAccess s (.stB8 f) f (.store 1) 1 [0, 1, 2, 3, 4, 5, 6] [] (s.storeData f.data 1) ∧
    PlainAccess s (.stB16 f) f (.store 2) 2 [0, 1, 2, 3, 4, 5, 6] [] (s.storeData f.data 2) ∧
    PlainAccess s (.stB32 f) f (.store 4) 4 [0, 1, 2, 3, 4, 5, 6] [] (s.storeData f.data 4) ∧
    PlainAccess s (.stB64 f) f (.store 8) 8 [0, 1, 2, 3, 4, 5, 6] [] (s.storeData f.data 8) ∧
    PlainAccess s (.stB128 f) f (.store 8) 16 [0, 1, 2, 3, 4, 5, 6] [] (s.storeData f.data 16)

/-- The checks of an access at issue (05 R112, 04 R99, R437): they pass where every lane is aligned and inside the space; else the
cause is that of the lowest lane at fault, 0x20 where it is misaligned and 0x21 where it is not, TADDR is that lane's address
and TLANES names every lane at fault, none for a scalar access. -/
def Obligations.AccessChecks : Prop :=
  ∀ (s : State) (f : MF) (e : Nat), 0 < e →
    (s.accessTrap f e = none ↔ ∀ x ∈ s.laneAddrs f e, x.2 % e = 0 ∧ s.outOfRange f.space.val x.2 e = false) ∧
    (∀ r, s.accessTrap f e = some r → ∃ x ∈ s.laneAddrs f e, (x.2 % e ≠ 0 ∨ s.outOfRange f.space.val x.2 e = true) ∧
      (∀ y ∈ s.laneAddrs f e, y.1 < x.1 → y.2 % e = 0 ∧ s.outOfRange f.space.val y.2 e = false) ∧
      r.cause = (if x.2 % e ≠ 0 then 0x20 else 0x21) ∧ r.addr = trapAddr f.space.val x.2 ∧ r.data = 0 ∧
      (clsOf f.data ≠ .v → clsOf f.addr ≠ .v → r.lanes = 0) ∧
      (clsOf f.data = .v ∨ clsOf f.addr = .v → ∀ l, l < 32 → (r.lanes.getLsbD l = true ↔
        ∃ y ∈ s.laneAddrs f e, y.1 = l ∧ (y.2 % e ≠ 0 ∨ s.outOfRange f.space.val y.2 e = true))))

/-- ATOM, RED without a record, and FILMADD list one access of their lanes; an atomic owes its old value, a reduction and a film
nothing (05 R122-R125; 13 R318). -/
def Obligations.AtomicsIssue : Prop :=
  ∀ (f : MF) (s : State) (sp : List Nat) (r1 r2 : List (Cls × Nat)) (d : Nat → Nat → Nat), sp = [0, 2, 3, 4, 5, 6] →
    r1 = s.regsOf f.data 1 → r2 = s.regsOf f.data 2 → d = (fun n l => s.storeData f.data n l) →
    PlainAccess s (.atomAdd f) f (.rmw 0 4 true) 4 sp r1 (d 4) ∧ PlainAccess s (.atomSmin f) f (.rmw 1 4 true) 4 sp r1 (d 4) ∧
    PlainAccess s (.atomSmax f) f (.rmw 2 4 true) 4 sp r1 (d 4) ∧ PlainAccess s (.atomUmin f) f (.rmw 3 4 true) 4 sp r1 (d 4) ∧
    PlainAccess s (.atomUmax f) f (.rmw 4 4 true) 4 sp r1 (d 4) ∧ PlainAccess s (.atomAnd f) f (.rmw 5 4 true) 4 sp r1 (d 4) ∧
    PlainAccess s (.atomOr f) f (.rmw 6 4 true) 4 sp r1 (d 4) ∧ PlainAccess s (.atomXor f) f (.rmw 7 4 true) 4 sp r1 (d 4) ∧
    PlainAccess s (.atomXchg f) f (.rmw 8 4 true) 4 sp r1 (d 4) ∧ PlainAccess s (.atomCas f) f (.rmw 9 4 true) 4 sp r1 (d 8) ∧
    PlainAccess s (.atomFadd f) f (.rmw 10 4 true) 4 sp r1 (d 4) ∧
    PlainAccess s (.atomAddB64 f) f (.rmw 0 8 true) 8 sp r2 (d 8) ∧ PlainAccess s (.atomUminB64 f) f (.rmw 3 8 true) 8 sp r2 (d 8) ∧
    PlainAccess s (.atomUmaxB64 f) f (.rmw 4 8 true) 8 sp r2 (d 8) ∧ PlainAccess s (.atomXchgB64 f) f (.rmw 8 8 true) 8 sp r2 (d 8) ∧
    PlainAccess s (.atomCasB64 f) f (.rmw 9 8 true) 8 sp r2 (d 16) ∧
    (f.rcd.val = 255 →
      PlainAccess s (.redAdd f) f (.rmw 0 4 false) 4 sp [] (d 4) ∧ PlainAccess s (.redSmin f) f (.rmw 1 4 false) 4 sp [] (d 4) ∧
      PlainAccess s (.redSmax f) f (.rmw 2 4 false) 4 sp [] (d 4) ∧ PlainAccess s (.redUmin f) f (.rmw 3 4 false) 4 sp [] (d 4) ∧
      PlainAccess s (.redUmax f) f (.rmw 4 4 false) 4 sp [] (d 4) ∧ PlainAccess s (.redAnd f) f (.rmw 5 4 false) 4 sp [] (d 4) ∧
      PlainAccess s (.redOr f) f (.rmw 6 4 false) 4 sp [] (d 4) ∧ PlainAccess s (.redXor f) f (.rmw 7 4 false) 4 sp [] (d 4) ∧
      PlainAccess s (.redFadd f) f (.rmw 10 4 false) 4 sp [] (d 4) ∧
      PlainAccess s (.redAddB64 f) f (.rmw 0 8 false) 8 sp [] (d 8)) ∧
    PlainAccess s (.filmadd f) f .film 8 [0, 2, 3, 4] [] (fun l => (s.rdL f.data l).toNat)

/-- LDL and STL of a lane's own slice (02 R82, 08 R178): where every lane's offset is aligned and inside the private area, or the
trap area of 512 bytes, one access of the lanes' slices is listed; else the trap of the lowest lane at fault. CACHE bit 0 is ALL and
bit 1 the trap area. -/
def Obligations.PrivateAccessesIssue : Prop :=
  ∀ (f : MF) (s : State) (p : Instr × Nat × Bool), p ∈ [(.ldlB32 f, 4, false), (.ldlB64 f, 8, false), (.ldlB128 f, 16, false),
      (.stlB32 f, 4, true), (.stlB64 f, 8, true), (.stlB128 f, 16, true)] →
    ∀ lanes xs limit base trap, lanes = s.active (f.cache.val % 2 == 1) →
      xs = lanes.map (fun l => (l, s.effAddr f.addr 1 f.off p.2.1 l)) →
      limit = (if 2 ≤ f.cache.val then 512 else s.lrec.privbytes) → base = (if 2 ≤ f.cache.val then s.lrec.privbytes else 0) →
      trap = laneTrap 1 false xs (fun x => x % p.2.1 != 0) (fun x => x < 0 || x.toNat + p.2.1 > limit) →
      (∀ r, trap = some r → exec p.1 s = .next (s.trap r s.cw.pa.here s.cw.pa.slot)) ∧
      (trap = none → lanes = [] → Completes s (exec p.1 s) s) ∧
      (trap = none → lanes ≠ [] → Completes s (exec p.1 s)
        (s.addAcc (if p.2.2 then .store (min p.2.1 8) else .load (min p.2.1 8) false) 0 0 0 0 s.lrec.asid false
          (if p.2.2 then [] else s.regsOf f.data (p.2.1 / 4)) []
          (s.lanePieces 1 (xs.map fun x => (x.1, x.2 + base)) p.2.1 (s.storeData f.data p.2.1))))

/-- LDB and STB move one aligned block of 128 bytes, word l to or from lane l of the mask (05 R118); HLD and HST move the 64 bytes
of a shape register, whatever the mask (05 R131); HSETF replaces the field SUB names of a shape register and leaves its other bits,
and HGETF reads it, zero-extended (05 R129, R132). -/
def Obligations.BlockAndShapeInstructions : Prop :=
  (∀ (f : MF) (s : State) (sp : Nat) (a : Int → Nat), sp = f.space.val →
     a = (fun x => if addrRegs sp = 2 then x.toNat % 2 ^ 56 else x.toNat) →
     (∀ x, x = s.effAddr f.addr sp f.off 128 0 → s.active false ≠ [] → s.badSpace [0, 2, 3, 4, 5, 6] sp = false → x % 128 = 0 →
       s.outOfRange sp x 128 = false →
       (s.granulesOk sp [(0, x)] 128 = true → Completes s (exec (.ldb f) s)
         (s.addAcc (.load 4 false) sp 0 0 f.cache.val s.lrec.asid false (s.regsOf f.data 1)
           [[BitVec.ofNat 32 (a x), BitVec.ofNat 32 (a x / 2 ^ 32)]]
           ((s.active false).map fun l => Piece.fresh l 0 (a x + 4 * l) (s.rdL f.data l).toNat))) ∧
       Completes s (exec (.stb f) s)
         (s.addAcc (.store 4) sp 0 0 f.cache.val s.lrec.asid false [] [[BitVec.ofNat 32 (a x), BitVec.ofNat 32 (a x / 2 ^ 32)]]
           ((s.active false).map fun l => Piece.fresh l 0 (a x + 4 * l) (s.rdL f.data l).toNat))) ∧
     (∀ x, x = s.effAddr f.addr sp f.off 64 0 → s.badSpace [0, 2, 3, 4] sp = false → x % 64 = 0 → s.outOfRange sp x 64 = false →
       (s.granulesOk sp [(0, x)] 64 = true → Completes s (exec (.hld f) s)
         (s.addAcc .hload sp 0 0 f.cache.val s.lrec.asid true (s.regsOf f.data 1) [] [Piece.fresh 0 0 (a x) 0])) ∧
       Completes s (exec (.hst f) s) (s.addAcc .hstore sp 0 0 f.cache.val s.lrec.asid true [] []
         [Piece.fresh 0 0 (a x) (s.cw.hreg (idxOf f.data)).toNat]))) ∧
  (∀ (f : RF) (s : State) (lo n x : Nat), (lo, n) = shapeField f.sub.val →
     x = (if shapeWide f.sub.val then (s.rd64 f.a).toNat else (s.rdS f.a).toNat) →
     (∃ h : BitVec 512, Completes s (exec (.hsetf f) s) (s.onWave fun w => w.setH (idxOf f.dst) h) ∧ fld h.toNat lo n = x % 2 ^ n ∧
       ∀ i, i < 512 → (i < lo ∨ lo + n ≤ i) → h.getLsbD i = (s.cw.hreg (idxOf f.dst)).getLsbD i) ∧
     Completes s (exec (.hgetf f) s)
       (if shapeWide f.sub.val then s.wr64 f.dst (BitVec.ofNat 64 (fld (s.cw.hreg (idxOf f.a)).toNat lo n))
         else s.wrS f.dst (BitVec.ofNat 32 (fld (s.cw.hreg (idxOf f.a)).toNat lo n))))

/-- FENCE orders the path's outstanding accesses and completes at once as an instruction, FENCE.AR as a FENCE.ACQ and then a
FENCE.REL; with nothing outstanding a FENCE at WAVE scope changes nothing but the numbers of the accesses. CINV and CFLUSH of no
lane, and PREF, which never faults, complete too; CINV and CFLUSH write back the line at each lane's address, CINV dropping it (05
R126-R128). -/
def Obligations.FencesAndCacheHints : Prop :=
  ∀ (f : FenceF) (g : MF) (s : State),
    (f.kind.val ≠ 0 →
      Completes s (exec (.fence f) s) (s.addAcc (.fence f.kind.val) 0 f.scope.val 0 0 0 true [] [] []).settleFences) ∧
    (f.kind.val = 0 → Completes s (exec (.fence f) s)
      ((s.addAcc (.fence 1) 0 f.scope.val 0 0 0 true [] [] []).addAcc (.fence 2) 0 f.scope.val 0 0 0 true [] [] []).settleFences) ∧
    (f.scope.val = 0 → s.accs = [] →
      Completes s (exec (.fence f) s) { s with nextId := s.nextId + (if f.kind.val = 0 then 2 else 1) }) ∧
    ((if clsOf g.addr == .v then s.active false else [0]) = [] →
      Completes s (exec (.cinv g) s) s ∧ Completes s (exec (.cflush g) s) s ∧ Completes s (exec (.pref g) s) s) ∧
    (clsOf g.addr ≠ .v → s.badSpace [0, 5] g.space.val = false →
      (∃ t, Completes s (exec (.pref g) s) t ∧ t.cw = s.cw ∧ t.waves = s.waves ∧ t.accs = s.accs ∧ t.spd = s.spd ∧ t.gran = s.gran) ∧
      (s.accs = [] → s.sectors = [] → Completes s (exec (.cinv g) s) s ∧ Completes s (exec (.cflush g) s) s)) ∧
    (∀ (line : Bool → State → Nat → State), s.badSpace [0, 5] g.space.val = false → s.accs = [] →
      line = (fun drop t l =>
        let n := t.nameOf s.cw.core s.lrec.asid ((s.effAddr g.addr g.space.val g.off 1 l).toNat % 2 ^ 56) (g.space.val == 5)
        t.writeBackAll drop (lineOf s.cw.core n.1 (n.2 / 128) (g.space.val == 5) (g.cache.val == 2))) →
      (clsOf g.addr ≠ .v → Completes s (exec (.cinv g) s) (line true s 0) ∧ Completes s (exec (.cflush g) s) (line false s 0)) ∧
      (clsOf g.addr = .v → Completes s (exec (.cinv g) s) ((s.active false).foldl (line true) s) ∧
        Completes s (exec (.cflush g) s) ((s.active false).foldl (line false) s)))

/-- Accesses of one lane are performed. A load or an atomic on a scratchpad, the core's own or the circle's, is performed at once at
its byte: the register takes the old value, little-endian and extended as the form says, and only the bytes an atomic writes change
(05 R115, R122). A store there or on the die's granary is performed at its bytes, and every other byte of the machine keeps its
value (05 R116; 09 R222), but for the other bytes of a counted byte barrier that it writes over, which become undefined (05 R151),
and where the access races with an operation its path has in flight (09 R228) or crosses a copy to a granule that is absent (05
R121). An access to HBM, to host memory, to the pool, to a private slice, to the granary or to another member's scratchpad is
performed at the place that its translation gives, at the point of coherence of its scope (09 R218, R219): a load's registers take
what is read there, a store writes its bytes there, an atomic writes the new value of what it read. What was written at that point
is read there, and every other byte of the sector is as before; at the home of a sector the memory itself takes the bytes at once;
with nothing cached a read gives the memory's bytes, and a write changes no other byte of memory and leaves copies of its own sector
only; a write that its L1 holds changes that copy alone; and a cache that writes back a sector changes the bytes it has written, and
no other (08 R184). -/
def Obligations.LocalAccessesPerform : Prop :=
  (∀ (s : State) (a : Access) (p : Piece) (r : Cls × Nat) (key v : Nat), s.accs = [a] → a.pieces = [p] → a.uid = s.cw.uid →
     a.via = none → a.order ≤ 1 → a.dst = [r] → r.1 ≠ .w → r.1 ≠ .h → p.part = 0 → p.done = false → p.fault = none → p.miss = false →
     s.cw.pa.over = false →
     (a.space = 2 ∧ key = spdKey a.block a.core p.addr ∨
       a.space = 3 ∧ key = (a.block * 8 + p.addr / 2 ^ 20 % 8) * 2 ^ 20 + p.addr % 2 ^ 20) →
     (∀ o ∈ s.ops, s.racesWith a p o = false ∧ s.racesWalk a p o = false) →
     (∀ n sgn, a.kind = .load n sgn → n ≤ 4 → v = localRead Config.seedSpd s.spd key n →
       ∃ t, exec (.memoryResponse a.id [0]) s = .next t ∧
         t.cw = s.cw.setReg r p.lane (if sgn then BitVec.ofInt 32 (sx v (8 * n)) else BitVec.ofNat 32 v) ∧
         t.accs = [] ∧ t.spd = s.spd ∧ t.hbm = s.hbm ∧ t.gran = s.gran ∧ t.waves = s.waves ∧ t.sectors = s.sectors) ∧
     (∀ op, a.kind = .rmw op 4 true → v = localRead Config.seedSpd s.spd key 4 →
       (∀ i, i < 4 → SMap.get? s.absent (granuleKey (key + i)) = none) →
       ∃ t, exec (.memoryResponse a.id [0]) s = .next t ∧ t.cw = s.cw.setReg r p.lane (BitVec.ofNat 32 v) ∧ t.accs = [] ∧
         (∀ k, k < key ∨ key + 4 ≤ k → (∀ b ∈ s.barriers, b < key + 4 → key < b + 16 → k < b ∨ b + 16 ≤ k) →
           undefByte Config.seedSpd t.spd k = undefByte Config.seedSpd s.spd k) ∧
         ((∀ b ∈ s.barriers, key + 4 ≤ b ∨ b + 16 ≤ key) →
           ∀ x, rmwNew op 4 v p.data = some x → x < 2 ^ 32 → localRead Config.seedSpd t.spd key 4 = x) ∧
         (rmwNew op 4 v p.data = none → t.spd = s.spd) ∧ t.hbm = s.hbm ∧ t.gran = s.gran ∧ t.waves = s.waves)) ∧
  (∀ (s : State) (a : Access) (p : Piece) (n key : Nat), s.accs = [a] → a.pieces = [p] → a.uid = s.cw.uid → a.kind = .store n →
     a.via = none → a.order ≤ 1 → a.dst = [] → p.done = false → p.fault = none → p.miss = false → s.cw.pa.over = false →
     (∀ o ∈ s.ops, s.racesWith a p o = false ∧ s.racesWalk a p o = false) →
     ((a.space = 2 ∧ key = spdKey a.block a.core p.addr ∨
         a.space = 3 ∧ key = (a.block * 8 + p.addr / 2 ^ 20 % 8) * 2 ^ 20 + p.addr % 2 ^ 20) →
       (∀ i, i < n → SMap.get? s.absent (granuleKey (key + i)) = none) →
       ∃ t, exec (.storePerform a.id [0]) s = .next t ∧ t.cw = s.cw ∧ t.accs = [] ∧
         ((∀ b ∈ s.barriers, key + n ≤ b ∨ b + 16 ≤ key) →
           ∀ i, i < n → undefByte Config.seedSpd t.spd (key + i) = BitVec.ofNat 8 (p.data / 256 ^ i)) ∧
         (∀ k, k < key ∨ key + n ≤ k → (∀ b ∈ s.barriers, b < key + n → key < b + 16 → k < b ∨ b + 16 ≤ k) →
           undefByte Config.seedSpd t.spd k = undefByte Config.seedSpd s.spd k) ∧
         t.hbm = s.hbm ∧ t.gran = s.gran ∧ t.waves = s.waves ∧ t.sectors = s.sectors ∧ t.tiles = s.tiles) ∧
     (∀ bank, a.space = 4 → key = Config.dieOf a.core * 2 ^ 25 + p.addr →
       bank = (match SMap.get? s.blocks a.block with | some b => b.bankOn a.core | none => s.bankOf a.core) →
       s.granOk a.core a.asid p.addr 2 bank = true →
       ∃ t, exec (.storePerform a.id [0]) s = .next t ∧ t.cw = s.cw ∧ t.accs = [] ∧
         (∀ i, i < n → undefByte s.granSeed t.gran (key + i) = BitVec.ofNat 8 (p.data / 256 ^ i)) ∧
         (∀ k, k < key ∨ key + n ≤ k → undefByte s.granSeed t.gran k = undefByte s.granSeed s.gran k) ∧
         t.hbm = s.hbm ∧ t.spd = s.spd ∧ t.waves = s.waves ∧ t.sectors = s.sectors ∧ t.granSeed = s.granSeed)) ∧
  (∀ (s v : State) (a : Access) (p : Piece) (l : Loc) (name : Nat × Nat × Nat), s.accs = [a] → a.pieces = [p] → a.uid = s.cw.uid →
     a.via = none → a.isBlock = false → a.order ≤ 1 → (∀ d ∈ a.dst, d.1 ≠ .w ∧ d.1 ≠ .h) → p.part = 0 → p.done = false →
     p.fault = none → p.miss = false → s.cw.pa.over = false → (∀ o ∈ s.ops, s.racesWith a p o = false ∧ s.racesWalk a p o = false) →
     s.findFor a p p.addr a.kind.need = .at l → (∀ k, l ≠ .spd k) → name = s.xlName a p p.addr →
     v = s.noteXlat a.core name.2.1 name.2.2 name.1 →
     (∀ n sgn r, a.kind = .load n sgn → s.locBad l n = false → r = v.readLoc a.asker (s.how a) l n →
       ∃ t, exec (.memoryResponse a.id [0]) s = .next t ∧ t.accs = [] ∧ t.SameStore r.1 ∧
         t.cw = s.cw.landWords a.dst p.lane (if sgn then [BitVec.ofInt 32 (sx r.2 (8 * n))]
           else (List.range (if n ≤ 4 then 1 else n / 4)).map fun j => BitVec.ofNat 32 (r.2 / 2 ^ (32 * j)))) ∧
     (∀ n, a.kind = .store n → a.dst = [] → ∃ t, exec (.storePerform a.id [0]) s = .next t ∧ t.accs = [] ∧ t.cw = s.cw ∧
       t.SameStore (v.writeLoc a.asker (s.how a) l n p.data (2 ^ n - 1))) ∧
     (∀ op n ret r, a.kind = .rmw op n ret → s.locBad l n = false → (ret = false → a.dst = []) →
       r = v.readLoc a.asker (s.how a) l n →
       ∃ t, exec (if ret then .memoryResponse a.id [0] else .storePerform a.id [0]) s = .next t ∧ t.accs = [] ∧
         t.cw = s.cw.landWords a.dst p.lane ((List.range (n / 4)).map fun j => BitVec.ofNat 32 (r.2 / 2 ^ (32 * j))) ∧
         t.SameStore ((rmwNew op n r.2 p.data).elim r.1 fun x => r.1.writeLoc (a.asker.after l) (s.how a) l n x (2 ^ n - 1)))) ∧
  (∀ (s t : State) (q : Asker) (w : How) (h : Home) (i n x : Nat), i + n ≤ 128 → x < 256 ^ n →
     t = s.writeLoc q w (.sec h i) n x (2 ^ n - 1) →
     (t.readLoc q w (.sec h i) n).2 = x ∧
     (∀ j m, j + m ≤ i ∨ i + n ≤ j → j + m ≤ 128 → (t.readLoc q w (.sec h j) m).2 = (s.readLoc q w (.sec h j) m).2) ∧
     (w.pt h = .home → ∀ k < n, t.homeAt h (i + k) = BitVec.ofNat 8 (x / 256 ^ k)) ∧
     (s.sectors = [] →
       (s.readLoc q w (.sec h i) n).2 = ofBytes ((List.range n).map fun k => (s.homeAt h (i + k)).toNat) ∧
       (w.pt h ≠ .home → t.hbm = s.hbm ∧ t.host = s.host ∧ t.undef = s.undef ∧ t.pool = s.pool ∧
         ∀ y ∈ t.sectors, y.isAt q.core h = true ∨ y.isAt (l2Of (Config.dieOf q.core)) h = true) ∧
       (w.pt h = .home → t.sectors = [] ∧ ∀ k a, k ≤ 2 → h.kind ≤ 2 → ¬ (k = h.kind ∧ h.addr + i ≤ a ∧ a < h.addr + i + n) →
         t.homeAt { h with kind := k, addr := a } 0 = s.homeAt { h with kind := k, addr := a } 0)) ∧
     ((s.sect? q.core h).isSome = true → w.pt h = .l1 → t.hbm = s.hbm ∧ t.host = s.host ∧ t.undef = s.undef ∧ t.pool = s.pool ∧
       t.sectors.filter (fun y => !y.isAt q.core h) = s.sectors.filter fun y => !y.isAt q.core h) ∧
     (∀ k l, l = .gran k ∨ l = .peer k → ((s.writeLoc q w l n x (2 ^ n - 1)).readLoc q w l n).2 = x) ∧
     (∀ die y, s.sect? (l2Of die) h = some y → (s.l2Home die h).sect? (l2Of die) h = some { y with dirty := 0 } ∧
       ∀ k < 128, (s.l2Home die h).homeAt h k = if y.dirty.getLsbD k then byteOf y.data k else s.homeAt h k))

/-- The new values of the atomics and reductions, in numbers (05 R122, R124): addition wraps, the minima and maxima are signed or
unsigned, CAS writes the new value where the old one equals the compare value, and FADD rounds the exact sum under RNE, keeping
subnormals, with the canonical NaN. -/
def Obligations.AtomicValues : Prop :=
  ∀ (n old v new : Nat), n = 4 ∨ n = 8 → old < 2 ^ (8 * n) → v < 2 ^ (8 * n) → new < 2 ^ (8 * n) →
    rmwNew 0 n old v = some ((old + v) % 2 ^ (8 * n)) ∧
    (∃ x, rmwNew 1 n old v = some x ∧ (x = old ∨ x = v) ∧ sx x (8 * n) = min (sx old (8 * n)) (sx v (8 * n))) ∧
    (∃ x, rmwNew 2 n old v = some x ∧ (x = old ∨ x = v) ∧ sx x (8 * n) = max (sx old (8 * n)) (sx v (8 * n))) ∧
    rmwNew 3 n old v = some (min old v) ∧ rmwNew 4 n old v = some (max old v) ∧
    (∃ x y z, rmwNew 5 n old v = some x ∧ rmwNew 6 n old v = some y ∧ rmwNew 7 n old v = some z ∧
      ∀ i, x.testBit i = (old.testBit i && v.testBit i) ∧ y.testBit i = (old.testBit i || v.testBit i) ∧
        z.testBit i = (old.testBit i != v.testBit i)) ∧
    rmwNew 8 n old v = some v ∧
    rmwNew 9 n old (v + 2 ^ (8 * n) * new) = (if old = v then some new else none) ∧
    (n = 4 → ∃ x, rmwNew 10 n old v = some x ∧
      x = roundFp fmtFp32 0 false false (XR.add 0 (fp32Val (BitVec.ofNat 32 old)) (fp32Val (BitVec.ofNat 32 v))) ∧
      (isNaN32 (BitVec.ofNat 32 x) = true → x = 0x7FC00000))

/-! ## Records, rays and textures -/

/-- LD and ST through a record list an access of the elements its lanes name, a 1- or 2-byte form and every RED being an encoding
fault (05 R119, R120, R125; 08 R200-R205, R435); LDRED reads the group's members at each lane's offset (13 R327); RBOX, RTRI and
SXL list their reads of the active lanes, with the rays or the wavelengths they hold (13 R299, R300, R316). That a misaligned base of
these traps whatever the mask, with the base in TADDR and TLANES 0, is the model's choice (log 22). -/
def Obligations.RecordsRaysAndTexturesIssue : Prop :=
  ∀ (f : MF) (g : RF) (s : State),
    (f.rcd.val ≠ 255 →
      (∀ i ∈ [Instr.ldZx8 f, .ldSx8 f, .ldZx16 f, .ldSx16 f], RecordAccess s i f 1 false false [0, 1, 2, 3, 4, 5, 6]) ∧
      (∀ i ∈ [Instr.stB8 f, .stB16 f], RecordAccess s i f 1 true false [0, 1, 2, 3, 4, 5, 6]) ∧
      RecordAccess s (.ldB32 f) f 1 false true [0, 1, 2, 3, 4, 5, 6] ∧ RecordAccess s (.ldB64 f) f 2 false true [0, 1, 2, 3, 4, 5, 6] ∧
      RecordAccess s (.ldB128 f) f 4 false true [0, 1, 2, 3, 4, 5, 6] ∧ RecordAccess s (.stB32 f) f 1 true true [0, 1, 2, 3, 4, 5, 6] ∧
      RecordAccess s (.stB64 f) f 2 true true [0, 1, 2, 3, 4, 5, 6] ∧ RecordAccess s (.stB128 f) f 4 true true [0, 1, 2, 3, 4, 5, 6] ∧
      (∀ i ∈ [Instr.redAdd f, .redSmin f, .redSmax f, .redUmin f, .redUmax f, .redAnd f, .redOr f, .redXor f, .redFadd f, .redAddB64 f],
        RecordAccess s i f 1 true false [0, 2, 3, 4, 5, 6]) ∧
      (∀ store, f.rcd.val < s.lrec.reccount →
        (s.bufRec s.cw.launch f.rcd.val).malformed (f.space.val == 0 || f.space.val == 5) = false →
        s.recTrap s.cw.launch f.space.val f.rcd.val false store = some ⟨0x25, 0, f.rcd.val, 0⟩)) ∧
    (∀ p ∈ [(Instr.ldred f, 2, encBf16), (.ldredF32 f, 4, encFp32)],
      (s.laneAddrs f p.2.1 = [] → Completes s (exec p.1 s) s) ∧
      (s.laneAddrs f p.2.1 ≠ [] → s.badSpace [5] f.space.val = true →
        exec p.1 s = .next (s.trap (plainRec cSpace) s.cw.pa.here s.cw.pa.slot)) ∧
      (s.laneAddrs f p.2.1 ≠ [] → s.badSpace [5] f.space.val = false → (∀ x ∈ s.laneAddrs f p.2.1, x.2 % p.2.1 = 0) →
        Completes s (exec p.1 s)
          (s.addAcc (.ldred f.rcd.val p.2.2) f.space.val f.scope.val f.order.val 0 s.lrec.asid (s.accessLanes f.data f.addr).1
            (s.regsOf f.data 2) [] ((s.laneAddrs f p.2.1).map fun x => Piece.fresh x.1 0 x.2.toNat 0)))) ∧
    (∀ p ∈ [(Instr.rbox g, AKind.rbox, 128, 128, 8), (.rtri g, .rtri g.sub.val, 16, 48, 4)],
      ((s.rd64 g.c).toNat % p.2.2.1 ≠ 0 →
        exec p.1 s = .next (s.trap ⟨0x20, (s.rd64 g.c).toNat, 0, 0⟩ s.cw.pa.here s.cw.pa.slot)) ∧
      ((s.rd64 g.c).toNat % p.2.2.1 = 0 → s.active false = [] → Completes s (exec p.1 s) s) ∧
      ((s.rd64 g.c).toNat % p.2.2.1 = 0 → s.active false ≠ [] →
        Completes s (exec p.1 s)
          (s.addAcc p.2.1 0 0 0 0 s.lrec.asid false (s.regsOf g.dst p.2.2.2.2) ((s.active false).map fun l => s.rayOf g.a l)
            ((s.active false).zipIdx.map fun x =>
              Piece.fresh x.1 x.2 (((s.rd64 g.c).toNat + p.2.2.2.1 * ((s.rdL g.b x.1).toNat % 2 ^ 30)) % 2 ^ 56) 0)))) ∧
    (∀ p ∈ [(Instr.sxl g, false), (.sxlg g, true)],
      ((s.rd64 g.c).toNat % 64 ≠ 0 → exec p.1 s = .next (s.trap ⟨0x20, (s.rd64 g.c).toNat, 0, 0⟩ s.cw.pa.here s.cw.pa.slot)) ∧
      (∀ t x, (s.rd64 g.c).toNat % 64 = 0 → s.accs = [] → s.readTexDesc ((s.rd64 g.c).toNat % 2 ^ 56) = .ok t x →
        ((TexDesc.of x).malformed = true → exec p.1 s = .next (t.trap ⟨0x27, 0, toField g.c, 0⟩ t.cw.pa.here t.cw.pa.slot)) ∧
        ((TexDesc.of x).malformed = false → s.active false = [] → Completes s (exec p.1 s) t) ∧
        ((TexDesc.of x).malformed = false → s.active false ≠ [] → Completes s (exec p.1 s)
          (t.addAcc (.sxl p.2) 0 0 0 0 s.lrec.asid false (s.regsOf g.dst 1)
            (toWords x 16 :: (s.active false).map fun l => (List.range s.cw.packet).map fun k => s.rdW g.b l k)
            ((s.active false).zipIdx.map fun y =>
              Piece.fresh y.1 y.2 ((s.rd64 g.c).toNat % 2 ^ 56) (ofWords (s.rdWords g.a 3 y.1)))))))

/-- The spectral packets: the W instructions and their .V forms write sample k of each active lane from samples k of their sources,
a lane register standing for every sample; WEXP, WSPL, WGET, WSET, WSUM and WMM do as 13 R310 to R314 say; nothing else changes. -/
def Obligations.PacketResults : Prop :=
  ∀ (f : RF) (s : State) (rm : Nat) (a b c : Nat → Nat → XR) (put : (Nat → Nat → W32) → State), rm = s.rmOf f.sub.val →
    a = (fun l k => fp32Val (s.wA f l k)) → b = (fun l k => fp32Val (s.wB f l k)) → c = (fun l k => fp32Val (s.wC f l k)) →
    (put = fun g => s.wrSamples f.dst (s.active f.all) (List.range s.cw.packet) g) →
    (∀ i ∈ [Instr.wadd f, .waddV f], Completes s (exec i s) (put fun l k => s.fpOut rm (RF.sat f) (XR.add rm (a l k) (b l k)))) ∧
    (∀ i ∈ [Instr.wsub f, .wsubV f], Completes s (exec i s) (put fun l k => s.fpOut rm (RF.sat f) (XR.add rm (a l k) (b l k).neg))) ∧
    (∀ i ∈ [Instr.wmul f, .wmulV f], Completes s (exec i s) (put fun l k => s.fpOut rm (RF.sat f) (XR.mul (a l k) (b l k)))) ∧
    (∀ i ∈ [Instr.wfma f, .wfmaV f],
      Completes s (exec i s) (put fun l k => s.fpOut rm (RF.sat f) (XR.fma rm (a l k) (b l k) (c l k)))) ∧
    (∀ i ∈ [Instr.wmin f, .wminV f],
      Completes s (exec i s) (put fun l k => satF32 (RF.sat f) (fmin32 false (s.wA f l k) (s.wB f l k)))) ∧
    (∀ i ∈ [Instr.wmax f, .wmaxV f],
      Completes s (exec i s) (put fun l k => satF32 (RF.sat f) (fmin32 true (s.wA f l k) (s.wB f l k)))) ∧
    Completes s (exec (.wexp f) s) (put fun l k => s.fixedOut f (fexp2 (a l k))) ∧
    (f.sub.val = 0 → Completes s (exec (.wspl f) s) (put fun l _ => s.rdL f.a l)) ∧
    (f.sub.val ≠ 0 → Completes s (exec (.wspl f) s) (put fun l k => roundF32 s.cw.rm s.cw.ftz
      (XR.fma s.cw.rm (XR.ofInt k) (fp32Val (flushIn s.cw.ftz (s.rdL f.b l))) (fp32Val (flushIn s.cw.ftz (s.rdL f.a l)))))) ∧
    Completes s (exec (.wget f) s)
      (s.wrLanes f.dst (s.active f.all) fun l => s.rdW f.a l ((s.rdS f.b).toNat % 8)) ∧
    Completes s (exec (.wset f) s) (s.wrSamples f.dst (s.active f.all) [(s.rdS f.b).toNat % 8] fun l _ => s.rdL f.a l) ∧
    Completes s (exec (.wsum f) s) (s.wrLanes f.dst (s.active f.all) fun l => s.fpOut rm (RF.sat f)
      (XR.sum rm (((List.range s.cw.packet).map fun k => XR.mul (a l k) (b l k)) ++ [fp32Val (flushIn s.cw.ftz (s.rdL f.c l))]))) ∧
    (∃ t, Completes s (exec (.wmm f) s) t ∧ ∀ (i : Fin 32), f.dst = .w i → i.val + 3 < 32 →
      (∀ r l k, r < 4 → l ∈ s.active f.all → k < s.cw.packet →
        t.cw.wsamp (i.val + r) l k = s.fpOut rm false (XR.sum rm ((List.range 4).map fun j =>
          XR.mul (fp32Val (flushIn s.cw.ftz (s.rdL (nthReg f.b (4 * r + j)) l)))
            (fp32Val (flushIn s.cw.ftz (s.rdW (nthReg f.a j) l k)))))) ∧
      (∀ n l k, n < 32 → l < 32 → k < 8 → (n < i.val ∨ i.val + 4 ≤ n ∨ l ∉ s.active f.all ∨ s.cw.packet ≤ k) →
        t.cw.wsamp n l k = s.cw.wsamp n l k))

/-- The traversal stacks (13 R301-R304). TSINIT makes each active lane's state word, where its alignment, size and range checks
pass, and else takes the first one's fault. TSPUSH of a state that is not malformed takes the children that are no miss from the
last to the first, stores as many as there is room for as entries of the lane's slice, each at its own offset, and counts them;
where a lane has more than room it is the private-range fault, without any push, and with DROP the rest are lost, with LOST set.
TSPOP counts down and reads the entry that leaves, an empty stack giving a miss. A malformed state in any active lane is the
malformed-descriptor fault. That TSINIT's faults give TLANES 0 and the offset in TADDR (log 22), and that where vD and vS are one
pair the entry popped lands over the new state (log 27), are the model's choices. -/
def Obligations.TraversalStacks : Prop :=
  ∀ (f : RF) (s : State) (a n c : Nat) (kept : Nat → List (W32 × W32)) (room : Nat → Nat), a = (s.rdS f.a).toNat →
    n = (s.rdS f.b).toNat → c = f.sub.val % 4 + 1 →
    kept = (fun l => ((s.rdWords f.b c l).zip (s.rdWords f.c c l)).reverse.filter fun p => p.1.toNat / 2 ^ 30 != 3) →
    room = (fun l => (s.tstack f.dst l).cap - (s.tstack f.dst l).count) →
    (a % 8 = 0 → 1 ≤ n → n ≤ 4096 → a + 8 * n ≤ s.lrec.privbytes →
      Completes s (exec (.tsinit f) s) (s.wrLanes64 f.dst (s.active f.all) fun _ => BitVec.ofNat 64 (a + 2 ^ 48 * n))) ∧
    (a % 8 ≠ 0 → exec (.tsinit f) s = .next (s.trap ⟨0x20, a, 0, 0⟩ s.cw.pa.here s.cw.pa.slot)) ∧
    (a % 8 = 0 → (n = 0 ∨ 4096 < n) → exec (.tsinit f) s = .next (s.trap ⟨0x27, 0, toField f.b, 0⟩ s.cw.pa.here s.cw.pa.slot)) ∧
    (a % 8 = 0 → 1 ≤ n → n ≤ 4096 → s.lrec.privbytes < a + 8 * n →
      exec (.tsinit f) s = .next (s.trap ⟨0x21, a, 0, 0⟩ s.cw.pa.here s.cw.pa.slot)) ∧
    ((∃ l ∈ s.active false, (s.tstack f.dst l).malformed s.lrec.privbytes = true) →
      exec (.tspush f) s = .next (s.trap ⟨0x27, 0, toField f.dst, 0⟩ s.cw.pa.here s.cw.pa.slot)) ∧
    ((∃ l ∈ s.active false, (s.tstack f.a l).malformed s.lrec.privbytes = true) →
      exec (.tspop f) s = .next (s.trap ⟨0x27, 0, toField f.a, 0⟩ s.cw.pa.here s.cw.pa.slot)) ∧
    ((∀ l ∈ s.active false, (s.tstack f.dst l).malformed s.lrec.privbytes = false) →
      (∀ l rest, f.sub.val / 4 % 2 = 0 → (s.active false).filter (fun l => room l < (kept l).length) = l :: rest →
        exec (.tspush f) s = .next (s.trap ⟨0x21, (s.tstack f.dst l).base + 8 * (s.tstack f.dst l).cap, 0, maskOfList (l :: rest)⟩
          s.cw.pa.here s.cw.pa.slot)) ∧
      (f.sub.val / 4 % 2 = 1 ∨ (∀ l ∈ s.active false, (kept l).length ≤ room l) →
        ∀ (t : State) (pieces : List Piece),
          t = (s.wrLanes64 f.dst (s.active false) fun l => TStack.pair
            { s.tstack f.dst l with count := (s.tstack f.dst l).count + min (room l) (kept l).length,
                                    lost := (s.tstack f.dst l).lost || decide (room l < (kept l).length) }) →
          pieces = (s.active false).flatMap (fun l => ((kept l).take (room l)).zipIdx.map fun e =>
            Piece.fresh l e.2 (s.sliceAddr s.cw ((s.tstack f.dst l).base + 8 * ((s.tstack f.dst l).count + e.2)) l)
              (e.1.1.toNat + 2 ^ 32 * e.1.2.toNat)) →
          (pieces = [] → Completes s (exec (.tspush f) s) t) ∧
          (pieces ≠ [] → Completes s (exec (.tspush f) s) (t.addAcc (.store 8) 0 0 0 0 s.lrec.asid false [] [] pieces)))) ∧
    ((∀ l ∈ s.active false, (s.tstack f.a l).malformed s.lrec.privbytes = false) →
      ∀ t, t = (s.wrLanes64 f.a (s.active false) fun l =>
          TStack.pair { s.tstack f.a l with count := (s.tstack f.a l).count - 1 }) →
        ((∀ l ∈ s.active false, (s.tstack f.a l).count = 0) →
          Completes s (exec (.tspop f) s) (t.wrLanes64 f.dst (s.active false) fun _ => 0x7F800000FFFFFFFF#64)) ∧
        ((∃ l ∈ s.active false, (s.tstack f.a l).count ≠ 0) →
          Completes s (exec (.tspop f) s)
            (t.addAcc (.load 8 false) 0 0 0 0 s.lrec.asid false (s.regsOf f.dst 2) [] ((s.active false).map fun l =>
              if (s.tstack f.a l).count = 0 then { Piece.fresh l 0 0 0 with done := true, result := [0xFFFFFFFF#32, 0x7F800000#32] }
              else Piece.fresh l 0 (s.sliceAddr s.cw ((s.tstack f.a l).base + 8 * ((s.tstack f.a l).count - 1)) l) 0))))

/-! ## Asynchronous operations -/

/-- COPY, COPYC, CPFILL and NMWALK capture their arguments, make their checks in order and list one operation of the wave's open
set; the path goes on (05 R133, R134, R140-R142; 13 R305). That the checks come before a park for room is the model's choice (log
32), and so, among NMWALK's operands, that the address's alignment is looked at before NRAY and CAPE, and the ray, the result and
the descriptor in that order (log 35). -/
def Obligations.CopiesIssue : Prop :=
  ∀ (f : AF) (s : State) (o : AOp), o = s.newOp .nmwalk →
    Issues s (.copy f) (s.copyTrap (s.copyOp .copy f)) (s.copyOp .copy f) ∧
    Issues s (.copyc f) (s.copyTrap (s.copyOp .copyc f)) (s.copyOp .copyc f) ∧
    (∀ p, p = { s.newOp .cpfill with ha := f.ha.val, flags := f.flags.toNat, shapes := [s.cw.hreg f.ha], args := s.argGroup f.opa } →
      Issues s (.cpfill f) (s.fillTrap p) p) ∧
    (∀ w base, w = { o with args := s.argGroup f.opa } →
      base = (if w.rayBase % 32 ≠ 0 then some w.rayBase else if w.result % 16 ≠ 0 then some w.result
        else if w.descAt % 32 ≠ 0 then some w.descAt else none) →
      (∀ x, base = some x → exec (.nmwalk f) s = .next (s.trap ⟨0x20, x, 0, 0⟩ s.cw.pa.here s.cw.pa.slot)) ∧
      (base = none → (w.nray = 0 ∨ 65536 < w.nray ∨ 16777215 < w.cape) →
        exec (.nmwalk f) s = .next (s.trap ⟨0x27, 0, toField f.opa, 0⟩ s.cw.pa.here s.cw.pa.slot)) ∧
      (base = none → 1 ≤ w.nray → w.nray ≤ 65536 → w.cape ≤ 16777215 → s.outstanding s.cw.uid < 64 →
        Lists s (.nmwalk f) w)) ∧
    (s.copyOp .copy f).batch = none ∧ (s.copyOp .copy f).id = s.nextId ∧
    (s.copyOp .copy f).shapes = [s.cw.hreg f.ha, s.cw.hreg f.hb] ∧ (s.copyOp .copy f).args = s.argGroup f.opa

/-- The matrix engine's instructions enter its queue (10 R236-R242, R249-R261, R268-R270, R438; 12 R281): where the names are in the
block's allocation, the control words are sound and the operands pass their checks, the operation is listed with what it captured at
issue, and the path goes on. A name beyond the allocation is the shape fault. Of MDTAB, TTPROG, TTBUF, TTSTEP, TTRUN, TLD, TLDC and
TST only the success is stated. That the checks come before a park for room is the model's choice (log 32). -/
def Obligations.EngineOperationsIssue : Prop :=
  ∀ (f : AF) (g : RF) (s : State) (o : OKind → AOp) (slot : Nat),
    (o = fun k => { s.newOp k with flags := f.flags.toNat }) → slot = (s.lrec.slots[f.fslot.val]?).getD 0 →
    Issues s (.tzero g) (s.nameTrap g.dst) { s.newOp .tzero with names := [s.tileNo g.dst] } ∧
    Issues s (.tmov g) ((s.nameTrap g.dst).or (s.nameTrap g.a)) { s.newOp .tmov with names := [s.tileNo g.dst, s.tileNo g.a] } ∧
    Issues s (.azero g) (s.nameTrap g.dst) { s.newOp .azero with names := [idxOf g.dst] } ∧
    Issues s (.mact f) (s.scaleTrap (s.rdS f.opa).toNat 2064 16) { s.newOp .mact with args := [s.rdS f.opa] } ∧
    IssuesWhen s (.mdtab f)
      (1 ≤ (s.rdS f.opb).toNat ∧ (s.rdS f.opb).toNat ≤ 512 ∧ s.scaleTrap (s.rdS f.opa).toNat (4 * (s.rdS f.opb).toNat) 4 = none)
      { o .mdtab with args := [s.rdS f.opa, s.rdS f.opb] } ∧
    IssuesWhen s (.ttprog f)
      (1 ≤ (s.rdS f.opb).toNat ∧ (s.rdS f.opb).toNat ≤ 16 ∧ (s.rdS f.opa).toNat % 4 = 0 ∧
        (s.rdS f.opa).toNat + 4 * (s.rdS f.opb).toNat ≤ (if f.flags.getLsbD 0 then Config.granSize else s.spdOf s.cw.block))
      { o .ttprog with args := [s.rdS f.opa, s.rdS f.opb] } ∧
    IssuesWhen s (.ttbuf f)
      (1 ≤ (s.rdS f.opb).toNat ∧ (s.rdS f.opb).toNat % 16 = 0 ∧ (s.rdS f.opa).toNat % 256 = 0 ∧
        (s.rdS f.opa).toNat + 2 * (s.rdS f.opb).toNat + 16 ≤ s.spdOf s.cw.block)
      { s.newOp .ttbuf with args := [s.rdS f.opa, s.rdS f.opb] } ∧
    (∀ p ∈ [(Instr.ttstep f, OKind.ttstep), (.ttrun f, .ttrun)],
      IssuesWhen s p.1 (1 ≤ (s.rdS f.opa).toNat ∧ (s.rdS f.opa).toNat ≤ 4096)
        { o p.2 with
          args := s.rdWords f.opa 2 0, shapes := (List.range 16).map s.cw.hreg, bonds := (List.range 8).map s.cw.dreg }) ∧
    (∀ ctl, ctl = s.ctlOf s.cw.block s.cw.core (s.tileNo f.opa) → s.nameTrap f.opa = none → ctlTrap ctl (toField f.opa) = none →
      ∀ (S : Shp) (t : AOp), S.malformed = false → tileSpaces.contains S.space = true → S.flat false = false →
        ¬ (S.rank = 1 ∧ 1 < ctlRows ctl) → (t.trn = true → 2 ≤ S.rank) →
        (S = Shp.of (s.cw.hreg f.ha) → t = { s.tileOp .tst f f.ha with slotDesc := slot } →
          (ctlEnc ctl = S.enc ∨ convBad (ctlEnc ctl) S.enc slot = false) →
          IssuesWhen s (.tst f) (s.rangeTrap t t.hb t.ha = none) t) ∧
        (S = Shp.of (s.cw.hreg f.hb) → t = { s.tileOp .tldc f f.hb with slotDesc := (s.lrec.slots[S.fslot]?).getD 0 } →
          isCbEnc S.enc = true → S.enc = ctlEnc ctl → IssuesWhen s (.tldc f) (s.rangeTrap t t.hb t.ha = none) t) ∧
        (S = Shp.of (s.cw.hreg f.hb) → t = { s.tileOp .tld f f.hb with slotDesc := (s.lrec.slots[S.fslot]?).getD 0 } →
          isCbEnc S.enc = false → isCbEnc (ctlEnc ctl) = false →
          (S.enc ≠ ctlEnc ctl ∨ t.flag 0 = true → slotEnc t.slotDesc = ctlEnc ctl) →
          IssuesWhen s (.tld f) (s.rangeTrap t t.hb t.ha = none) t))

/-- MMA, MMAS and MMAP enter the array's queue where their names and control words are sound, both tiles are of one class and their
extents agree, SAT stands with integers and scales with floating point in whole blocks, and MMAP's core leads its pair (10 R247 to
R251, R438); MDRAIN and MDRAIN.P enter the drain's queue where the fragment is in the allocation, M and N are 1 to 64, and the
destination and the ranges pass their checks (10 R256, R261). -/
def Obligations.MatrixOperationsIssue : Prop :=
  ∀ (f : AF) (s : State) (slot : Nat), slot = (s.lrec.slots[f.fslot.val]?).getD 0 →
    (∀ p ∈ [(Instr.mma f, OKind.mma), (.mmas f, .mmas), (.mmap f, .mmap)], ∀ (o : AOp) (ca cb : Nat),
      ca = s.ctlOf s.cw.block s.cw.core (s.tileNo f.opa) → cb = s.ctlOf s.cw.block s.cw.core (s.tileNo f.opb) →
      o.scaled = (p.2 == .mmas || (p.2 == .mmap && f.flags.getLsbD 11)) →
      o = { s.newOp p.2 with
        ha := f.ha.val, flags := f.flags.toNat, slotDesc := slot, names := [f.ha.val, s.tileNo f.opa, s.tileNo f.opb], ctl := [ca, cb]
        fctl := s.ctlOf s.cw.block (s.cw.core + 1) (s.tileNo f.opa)
        args := if o.scaled then s.rdWords ((sgOf f).getD (.s 0)) 2 0 else [] } →
      IssuesWhen s p.1
        (s.nameTrap (.acc f.ha) = none ∧ s.nameTrap f.opa = none ∧ s.nameTrap f.opb = none ∧ ctlTrap ca (toField f.opa) = none ∧
          ctlTrap cb (toField f.opb) = none ∧ mmaClass (ctlEnc ca) ≠ 0 ∧ mmaClass (ctlEnc ca) = mmaClass (ctlEnc cb) ∧
          (if o.trn then ctlRows cb else ctlCols cb) = ctlCols ca ∧ o.dimN ≤ 64 ∧ (o.sat = true → mmaClass (ctlEnc ca) = 2) ∧
          (o.scaled = true → slotScale slot = 1 ∧ mmaClass (ctlEnc ca) ≠ 2 ∧ o.dimK % slotBlk slot = 0 ∧
            s.scaleTrap (o.arg 0) (2 * o.dimM * (o.dimK / slotBlk slot)) 2 = none ∧
            s.scaleTrap (o.arg 1) (2 * o.dimN * (o.dimK / slotBlk slot)) 2 = none) ∧
          (p.2 = .mmap → s.leads = true)) o) ∧
    (∀ p ∈ [(Instr.mdrain f, OKind.mdrain), (.mdrainP f, .mdrainP)], ∀ o : AOp,
      o = { s.newOp p.2 with
        ha := f.ha.val, flags := f.flags.toNat, slotDesc := slot, shapes := [s.cw.hreg f.ha], args := s.argGroup f.opb
        names := [idxOf f.opa] } →
      IssuesWhen s p.1
        (s.nameTrap f.opa = none ∧ (o.comp = true → compSlot slot = true) ∧ 1 ≤ o.drainM ∧ o.drainM ≤ 64 ∧ 1 ≤ o.drainN ∧
          o.drainN ≤ 64 ∧ o.dshape.malformed = false ∧ tileSpaces.contains o.dshape.space = true ∧ o.dshape.flat false = false ∧
          (o.dshape.rank = 2 ∨ o.dshape.rank = 3) ∧ (p.2 = .mdrainP → s.leads = true) ∧ o.dshape.enc = slotEnc slot ∧
          isCbEnc o.dshape.enc = false ∧ (o.bias = true → s.scaleTrap (o.arg 4) (4 * o.drainN) 4 = none) ∧
          (o.comp = true → s.scaleTrap (o.arg 6)
            (2 * ceilDiv o.drainN (slotBlk slot) * o.drainM * (if p.2 = .mdrainP then 2 else 1)) 2 = none) ∧
          s.rangeTrap o o.hb o.ha = none) o)

/-- 05 R143: ACLOSE moves the wave's open operations into the batch bN; the batch is complete when all of these and all it had
have completed; an empty open set leaves it as it was; the other operations, and all else, are unchanged, but for the completion
scopes, which move with the operations: the batch's becomes the widest, and the empty open set's the narrowest (09 R225), and the
batches that the notes of tile and fragment writers name (10 R244, R252). Its
encoding is word 0x9F30_0000_0000_0000 for b3, [51:0] reserved. -/
def Obligations.AcloseMovesTheOpenSet : Prop :=
  (∀ (f : AcloseF) (s : State), ∃ t, Completes s (exec (.aclose f) s) t ∧
    t = { s with ops := t.ops, tileWrites := t.tileWrites, pairWrites := t.pairWrites
                 cw := { s.cw with openScope := 0, batchScope := t.cw.batchScope } } ∧
    SMap.getD t.cw.batchScope f.n.val 0 = max s.cw.openScope (SMap.getD s.cw.batchScope f.n.val 0) ∧
    (∀ k, k ≠ f.n.val → SMap.getD t.cw.batchScope k 0 = SMap.getD s.cw.batchScope k 0) ∧
    t.ops.map AOp.id = s.ops.map AOp.id ∧
    t.batchOps s.cw.uid f.n.val = (s.ops.filter fun o => o.uid == s.cw.uid && (o.batch.isNone || o.batch == some f.n.val)).map
      (fun o => { o with batch := some f.n.val }) ∧
    (t.batchDone s.cw.uid f.n.val = true ↔
      ∀ o ∈ s.ops, o.uid = s.cw.uid → o.batch = none ∨ o.batch = some f.n.val → o.done = true) ∧
    (∀ o ∈ s.ops, o.uid ≠ s.cw.uid ∨ o.batch ≠ none → o ∈ t.ops) ∧
    ((∀ o ∈ s.ops, o.uid = s.cw.uid → o.batch ≠ none) → t.ops = s.ops)) ∧
  (∀ n : Fin 8, decodeWord (0x9F00000000000000 + n.val * 2 ^ 52) = .ok (.aclose ⟨n⟩) ∧
    ∀ x, 0 < x → x < 2 ^ 52 → decodeWord (0x9F00000000000000 + n.val * 2 ^ 52 + x) = .error .reservedField)

/-- Data of a copy lands element by element (COPY_UNITS_LAND): a fill's, its fill's or its converted source's element is written to
its own bytes, and no other byte changes but those of a byte barrier it writes over; a fault (COPY_FAULT) stops the copy, sets ERR in
its barrier and is kept with its batch; with all landed or at a fault the copy completes (ASYNC_OP_COMPLETE): one without a fault is
forgotten, one with a fault is held, done (05 R135-R140, R144). That a whole element's bytes land in one step, and that a
destination without a home is a fault whatever the source is, its home being found before the source is read, are the model's choices
(log 31). -/
def Obligations.CopiesLandAndComplete : Prop :=
  ∀ (s : State) (o : AOp) (id : Nat), s.opOf id = some o → o.id = id → o.isCopy = true → o.done = false → s.opOrdered o = true →
    (∀ k t x, o.pending k = true → s.landElem o k = .ok t x → s.opOf id = t.opOf id →
      (s.landOne id k).opOf id = some { o with landed := o.landed ++ [k], read := o.read ++ [x] }) ∧
    (∀ ks, exec (.copyUnitsLand id ks) s = .next ((((List.range o.segs).foldl (fun (t : State) k => t.crcSegment id k)
      (ks.foldl (fun (t : State) k => t.landOne id k) s)).countUnits id).refreshPresence)) ∧
    (∀ k r, o.fault = none → s.copyFaultAt o k = some r →
      ∃ t p, exec (.copyFault id k) s = .next t ∧ t.opOf id = some p ∧ p.fault = some r ∧ p.batch = o.batch ∧ p.done = false) ∧
    (∀ k a key x, o.kind ≠ .copyc → o.fault = none → k < o.count → k ∉ o.landed → o.dstSpot k = some ⟨2, 8 * a, 32⟩ → a + 4 ≤ 2 ^ 20 →
      o.raced = false → k ∉ o.spoil → o.flag 1 = false → key = spdKey o.block o.core a →
      (∀ i, i < 4 → SMap.get? s.crossed (key + i) = none) →
      ((o.kind = .cpfill ∧ x = o.arg 5 % 2 ^ o.dshape.bits) ∨
        (o.kind = .copy ∧ o.srcSpot k = none ∧ x = fillPat o.sshape.fill o.dshape.enc) ∨
        (o.kind = .copy ∧ ∃ b, o.srcSpot k = some ⟨2, 8 * b, 32⟩ ∧ b + 4 ≤ 2 ^ 20 ∧
          x = o.conv o.sshape.enc o.dshape.enc (localRead Config.seedSpd s.spd (spdKey o.block o.core b) 4)
            (if o.flag 0 then some (o.arg 5) else none))) →
      ∃ t p, exec (.copyUnitsLand id [k]) s = .next t ∧ t.opOf id = some p ∧ p.landed = o.landed ++ [k] ∧ p.done = false ∧
        p.fault = none ∧ t.cw = s.cw ∧ t.hbm = s.hbm ∧ t.gran = s.gran ∧ t.accs = s.accs ∧
        ((∀ b ∈ s.barriers, key + 4 ≤ b ∨ b + 16 ≤ key) →
          (∀ i, i < 4 → undefByte Config.seedSpd t.spd (key + i) = BitVec.ofNat 8 (x / 256 ^ i)) ∧
          ∀ j, j < key ∨ key + 4 ≤ j → undefByte Config.seedSpd t.spd j = undefByte Config.seedSpd s.spd j)) ∧
    (∀ k p c d x, o.fault = none → k < o.count → k ∉ o.landed → o.dstSpot k = some p → s.spotReach o p needWR = .fault c d x →
      ∃ t q, exec (.copyFault id k) s = .next t ∧ t.opOf id = some q ∧ q.fault = some ⟨c, x, o.word, 0⟩ ∧ q.batch = o.batch ∧
        q.done = false ∧ q.landed = o.landed ∧ t.accs = s.accs ∧
        (o.flag 1 = true → (t.barrAt o.barKey).err = true)) ∧
    (o.kind ≠ .copyc → o.flag 1 = false → s.ops.countP (fun p => p.id == id) = 1 →
      (o.fault.isSome = true ∨ ∀ k, k < o.count → o.dstSpot k = none ∨ k ∈ o.landed) →
      ∃ t, exec (.asyncOpComplete id) s = .next t ∧ t.cw = s.cw ∧ t.spd = s.spd ∧ t.hbm = s.hbm ∧
        t.opOf id = (if o.fault.isNone then none else some { o with done := true }) ∧ ∀ j, j ≠ id → t.opOf j = s.opOf j) ∧
    (o.copyOver = true → o.unitsNow = o.counted → s.ops.countP (fun p => p.id == id) = 1 →
      ∃ t, exec (.asyncOpComplete id) s = .next t ∧ t.spd = s.spd ∧ t.hbm = s.hbm ∧
        t.opOf id = (if o.fault.isNone then none else some { o with done := true }) ∧
        ∀ j, j ≠ id → t.opOf j = s.opOf j)

/-- The matrix engine at work (12 R281-R293): an operation starts where `mayStart` holds, alone or with its pair, and is then marked
started; at its completion its effect has been made and it is forgotten, or held with its fault; a contraction makes one step at a
time; a near-memory walk passes its rays and completes (10 R270-R273; 13 R305-R308). MMA, MMAS and MMAP give each element of their
fragments the K-steps of its row and column, one rounding, or for integers one wrap or clamp, a step, and change no other word (07
R172, R173; 10 R249-R251); MDRAIN and MDRAIN.P give each element inside the destination its chain, or its quotient by the scale of
its block, which COMP writes too, and clear the fragment with CLR (10 R257-R259, R261). The model's choices among these: that an
operation reads, works and writes in one step at its completion (log 34, DEDUCED), that INIT makes the boundary when its operation
starts (log 36, DESIGN CHOICE), and that nothing happens where the conditions fail (log 16). -/
def Obligations.EngineWorks : Prop :=
  ∀ (s : State) (o : AOp) (id : Nat), s.opOf id = some o → o.id = id →
    (s.mayStart o = true → (o.kind.steps && o.flag 0) = false →
      exec (if o.kind.pair then .pairOpStart id else .engineOpStart id) s = .next (s.modOp id fun p => { p with started := true })) ∧
    (s.mayStart o = true → o.kind.steps = true → o.flag 0 = true →
      ∀ u, u = (s.modOp id fun p => { p with started := true }).seqInit o →
        exec (.engineOpStart id) s = .next (u.modOp id fun p =>
          if p.fault.isSome then p else { p with spoil := p.spoil.filter fun m => !markIn (u.stepSource p) m })) ∧
    (s.mayStart o = false → exec (.engineOpStart id) s = .next s ∧ exec (.pairOpStart id) s = .next s) ∧
    (o.kind.engine = true → o.started = true → o.done = false →
      (∀ t, o.kind.steps = false → s.work o = .done t →
        exec (.engineOpComplete id) s = .next ((if o.kind.setsUp then t.freeHalves o else t).opDone id)) ∧
      (o.kind.steps = true → s.stepsLeft o = false → exec (.engineOpComplete id) s = .next ((s.freeBoundary o).opDone id)) ∧
      (o.raced = false → s.freeBoundary o = s) ∧
      (o.kind.steps = true → s.stepsLeft o = true → s.mustYield o = false → ∀ b t, b = s.beginStep o → s.runStep b = .done t →
        exec (.sequencerStep id) s = .next (t.modOp id fun p =>
          { p with
            landed := p.landed ++ [(s.seqOf o.uid).step], read := b.read
            spoil := s.stepMarks o b ((t.seqOf o.uid).step != (s.seqOf o.uid).step) }))) ∧
    (∀ k, o.kind = .tzero → o.started = true → o.done = false → o.names = [k] → o.spoil = [] →
      ∃ t, exec (.engineOpComplete id) s = .next t ∧ t.hbm = s.hbm ∧ t.spd = s.spd ∧ t.cw = s.cw ∧
        (∀ i, i < 4096 → undefByte Config.seedTile t.tiles (tileKey o.block o.core k * 4096 + i) = 0) ∧
        (∀ a, a / 4096 ≠ tileKey o.block o.core k → undefByte Config.seedTile t.tiles a = undefByte Config.seedTile s.tiles a)) ∧
    (o.kind = .mma ∨ o.kind = .mmas ∨ o.kind = .mmap → o.started = true → o.done = false → o.spoil = [] → s.badWords = [] →
      o.dimM ≤ 64 → o.dimN ≤ 64 → (o.kind = .mmap → fld o.fctl 0 28 = fld (nth o.ctl 0) 0 28) →
      ∃ t, exec (.engineOpComplete id) s = .next t ∧ t.cw = s.cw ∧ t.hbm = s.hbm ∧ t.spd = s.spd ∧ t.tiles = s.tiles ∧
        (∀ c ∈ o.onCores, ∀ m < o.dimM, ∀ n < o.dimN, t.fragWord (fragKey o.block c (nth o.names 0)) m n = s.mmaEl o c m n) ∧
        (∀ k, (∀ c ∈ o.onCores, ∀ m < o.dimM, ∀ n < o.dimN, k ≠ fragKey o.block c (nth o.names 0) * 4096 + 64 * m + n) →
          SMap.get? t.accm k = SMap.get? s.accm k)) ∧
    (o.kind = .mdrain ∨ o.kind = .mdrainP → o.started = true → o.done = false → o.fault = none → o.spoil = [] → s.badWords = [] →
      s.barriers = [] → s.crossed = [] → o.dshape.space = 2 → 0 < o.drainN → (o.comp = true → o.i32 = false) →
      (∀ k p, k < o.count → o.dstSpot k = some p → p.bitpos % 8 = 0 ∧ p.bits % 8 = 0) →
      (∀ k l p r, k < o.count → l < o.count → k ≠ l → o.dstSpot k = some p → o.dstSpot l = some r →
        p.bitpos + p.bits ≤ r.bitpos ∨ r.bitpos + r.bits ≤ p.bitpos) →
      ∀ base Q H, base = spdKey o.block o.core 0 → Q = ceilDiv o.drainN (slotBlk o.slotDesc) → H = o.onCores.length →
      (∀ k p, k < o.count → o.dstSpot k = some p → o.comp = true →
        p.bitpos / 8 + p.bits / 8 ≤ o.arg 6 ∨ o.arg 6 + 2 * (H * o.drainM * Q) ≤ p.bitpos / 8) →
      ∃ t, exec (.engineOpComplete id) s = .next t ∧ t.cw = s.cw ∧ t.hbm = s.hbm ∧ t.tiles = s.tiles ∧
        (∀ k p, k < o.count → o.dstSpot k = some p → ∀ i < p.bits / 8, undefByte Config.seedSpd t.spd (base + p.bitpos / 8 + i) =
          BitVec.ofNat 8 (s.drainEl o (o.core + k / o.drainN / o.drainM) (k / o.drainN % o.drainM) (k % o.drainN) / 256 ^ i)) ∧
        (o.comp = true → ∀ h m q, h < H → m < o.drainM → q < Q → ∀ i < 2,
          undefByte Config.seedSpd t.spd (base + o.arg 6 + 2 * ((h * o.drainM + m) * Q + q) + i) =
            BitVec.ofNat 8 (s.drainScale o (o.core + h) m q / 256 ^ i)) ∧
        (∀ a, (∀ k p, k < o.count → o.dstSpot k = some p → a < base + p.bitpos / 8 ∨ base + p.bitpos / 8 + p.bits / 8 ≤ a) →
          (o.comp = true → a < base + o.arg 6 ∨ base + o.arg 6 + 2 * (H * o.drainM * Q) ≤ a) →
          undefByte Config.seedSpd t.spd a = undefByte Config.seedSpd s.spd a) ∧
        (o.clr = false → t.accm = s.accm) ∧
        (o.clr = true → (∀ c ∈ o.onCores, ∀ m < o.drainM, ∀ n < o.drainN, t.fragWord (fragKey o.block c (nth o.names 0)) m n = 0) ∧
          ∀ k, (∀ c ∈ o.onCores, ∀ m < o.drainM, ∀ n < o.drainN, k ≠ fragKey o.block c (nth o.names 0) * 4096 + 64 * m + n) →
            SMap.get? t.accm k = SMap.get? s.accm k)) ∧
    (∀ (sat : Bool) (a a' b b' : List XR) (x : W32),
      (0 < a.length → a.length ≤ 64 →
        mmaInt sat a b x = (let y := x.toInt + (List.zipWith (fun u v => XR.toInt u * XR.toInt v) (a.take 64) (b.take 64)).foldl (· + ·) 0
          if sat then satS32 y else BitVec.ofInt 32 y)) ∧
      (a.length = 64 → b.length = 64 → mmaInt sat (a ++ a') (b ++ b') x = mmaInt sat a' b' (mmaInt sat a b x))) ∧
    (∀ (step blk : Nat) (a a' b b' : List XR) (sa sb : Nat → Nat) (x : W32), 0 < step → 0 < blk →
      (0 < a.length → a.length ≤ step → b.length = a.length →
        mmaFp step blk a b sa sb false x =
          BitVec.ofNat 32 (roundTo encFp32 (XR.sum 0 (fp32Val x :: List.zipWith XR.mul a b)) 0 false false) ∧
        mmaFp step blk a b sa sb true x = BitVec.ofNat 32 (roundTo encFp32 (XR.sum 0 (fp32Val x ::
          (List.range (a.length / blk)).map fun i =>
            XR.mul (XR.mul (XR.sum 0 (List.zipWith XR.mul ((a.drop (i * blk)).take blk) ((b.drop (i * blk)).take blk)))
              (bf16Val (sa i))) (bf16Val (sb i)))) 0 false false)) ∧
      (a.length = step → b.length = step →
        mmaFp step blk (a ++ a') (b ++ b') sa sb false x = mmaFp step blk a' b' sa sb false (mmaFp step blk a b sa sb false x) ∧
        (step % blk = 0 → mmaFp step blk (a ++ a') (b ++ b') sa sb true x =
          mmaFp step blk a' b' (fun i => sa (step / blk + i)) (fun i => sb (step / blk + i)) true (mmaFp step blk a b sa sb true x)))) ∧
    (o.kind = .nmwalk → o.done = false → s.opOrdered o = true →
      (o.fault = none → o.started = false → ∀ ray, exec (.nmWalkPass id ray) s = .next (s.walkStart o)) ∧
      (o.fault = none → o.started = true → ∀ ray, ray < o.nray → o.walk.find? (fun w => w.ray == ray) = none →
        exec (.nmWalkPass id ray) s = .next (s.walkRay o ray)) ∧
      (o.fault.isSome = true ∨ o.walkOver = true → exec (.nmWalkComplete id) s = .next (s.walkFinish o)))

/-- MTTC writes the field SUB names of a tile's control word, or TBASE; BDSET writes a bond register; MFENCE.OP and MFENCE.ACC go on
where nothing before them is outstanding; VCVT writes converted elements of the active lanes inside a tile that no operation in
flight uses, and VCVT.ACC reads words of a fragment's row (10 R237, R244, R246, R252, R262-R264). That VCVT to an FP32 tile rounds
under SAT with the canonical NaN, and flushes nothing, is the model's choice (logs 27 and 34). -/
def Obligations.TilesAndFragmentsByLanes : Prop :=
  ∀ (f : RF) (g : MfenceAccF) (s : State) (key ctl n r c : Nat),
    key = tileKey s.cw.block s.cw.core (s.tileNo f.dst) → ctl = s.ctlOf s.cw.block s.cw.core (s.tileNo f.dst) →
    n = idxOf f.a → r = (s.rdS f.b).toNat → c = (s.rdS f.c).toNat →
    (f.sub.val = 5 → Completes s (exec (.mttc f) s) (s.onWave fun w => { w with tbase := (s.rdS f.a).toNat % 64 })) ∧
    (f.sub.val ≠ 5 → s.nameTrap f.dst = none → ∃ t, Completes s (exec (.mttc f) s) t ∧ t = { s with tctl := t.tctl } ∧
      fld (SMap.getD t.tctl key 0).toNat (mttcField f.sub.val).1 (mttcField f.sub.val).2 =
        (s.rdS f.a).toNat % 2 ^ (mttcField f.sub.val).2 ∧
      (∀ i, (i < (mttcField f.sub.val).1 ∨ (mttcField f.sub.val).1 + (mttcField f.sub.val).2 ≤ i) →
        (SMap.getD t.tctl key 0).getLsbD i = (SMap.getD s.tctl key 0).getLsbD i) ∧
      ∀ k, k ≠ key → SMap.getD t.tctl k 0 = SMap.getD s.tctl k 0) ∧
    Completes s (exec (.bdset f) s) (s.onWave fun w => w.setD (idxOf f.dst) (s.rdS f.a)) ∧
    (s.accs = [] → Completes s (exec .mfenceOp s)
      ((s.modOrder (Written.ready s.thread)).onPa fun p => { p with unfenced := [] })) ∧
    (s.ops = [] → g.mask = 0 → Completes s (exec (.mfenceAcc g) s) s) ∧
    (s.ops = [] → g.mask ≠ 0 → Completes s (exec (.mfenceAcc g) s)
      (s.acquireBlock.learnPairs ((List.range 16).filter fun k => g.mask.getLsbD k) (if s.cw.pa.waited then s.cw.pa.waitId else s.nextId))) ∧
    (∀ slot, slot = (s.lrec.slots[f.fslot.val]?).getD 0 → s.nameTrap f.dst = none → ctlTrap ctl (toField f.dst) = none →
      (slotEnc slot ≠ ctlEnc ctl ∨ isCbEnc (slotEnc slot) = true →
        exec (.vcvt f) s = .next (s.trap ⟨0x15, 0, f.fslot.val, maskOfList (s.active f.all)⟩ s.cw.pa.here s.cw.pa.slot)) ∧
      (∀ lanes put, slotEnc slot = ctlEnc ctl → isCbEnc (slotEnc slot) = false → lanes = vcvtLanes (s.active f.all) ctl r c →
        put = (lanes.foldl (fun (t : State) x => t.tilePut key (tilePos ctl r x.2) (encBits (slotEnc slot))
            (roundTo (slotEnc slot)
              (if isIntEnc (slotEnc slot) then XR.ofInt (s.rdL f.a x.1).toInt else fp32Val (s.rdL f.a x.1)) s.cw.rm
              (bit f.mod.val 0 || slotSat slot)
              (slotSubn slot && (slotEnc slot == encFp16 || slotEnc slot == encBf16)))) s).healTile key
          (fun pos => lanes.any fun x => decide (tilePos ctl r x.2 ≤ pos ∧ pos < tilePos ctl r x.2 + encBits (slotEnc slot))) →
        lanes = [] ∨ s.tileBusy key = false →
        ∃ t, Completes s (exec (.vcvt f) s) t ∧ t.ops.map AOp.bare = s.ops.map AOp.bare ∧
          t = { (if lanes = [] then put else put.onPa fun p => { p with unfenced := SMap.set p.unfenced (2 * key + 1) () }) with
            ops := t.ops })) ∧
    (s.nameTrap f.a = none → s.ops = [] → s.badWords = [] →
      (s.cw.pa.waited = false ∨ SMap.get? s.fragWriters (fragKey s.cw.block s.cw.core n) = none) → ∃ t, Completes s (exec (.vcvtAcc f) s) t ∧
      t.hbm = s.hbm ∧ t.accm = s.accm ∧ t.tiles = s.tiles ∧ ∀ d : Fin 256, f.dst = .v d → d.val < s.stackRegs → ∀ l, l < 32 →
        (l ∈ s.active f.all → r < 64 → c + l < 64 →
          t.rdL f.dst l = s.fragWord (fragKey s.cw.block s.cw.core n) r (c + l)) ∧
        (l ∉ s.active f.all → t.rdL f.dst l = s.rdL f.dst l))

/-! ## Barriers and waiting -/

/-- The circles (04 R93, R94; 05 R146, R147): an arrival of a member releases and is counted; a BAR that completes its generation
acquires and takes the reduction, one that does not waits for it; BARA gives the generation as a token, and BARW goes on where the
token's generation is over. In a live fork an arrival is the barrier-in-fork trap; of no member it is the circle-membership trap.
That BAR with OP 0 and BARA arrive without a value for the reduction that others of the generation take is the model's choice (log
25). -/
def Obligations.CircleBarriers : Prop :=
  ∀ (f : BarF) (g : BaraF) (h : BarwF) (s : State) (r : Option W32 → Nat → State),
    (r = fun x c => (s.releaseAt s.cw.core s.cw.launch 1 (s.multiOf s.cw.block)).circleArrive s.cw.block c s.cw.widx x) →
    (s.arriveTrap f.circle.val = none → (s.circ f.circle.val).arrived.lookup s.cw.widx = none → s.accs = [] →
      ∀ t, t = r (if f.op.val = 0 then none else some (s.rdS f.a)) f.circle.val →
        ((t.circ f.circle.val).gen ≠ (s.circ f.circle.val).gen →
          Completes s (exec (.bar f) s) (t.barDone f.circle.val f.op.val f.dst)) ∧
        ((t.circ f.circle.val).gen = (s.circ f.circle.val).gen → ∃ u, exec (.bar f) s = .next u ∧ u.arch = t.arch ∧
          u.cw.pa.phase = .parked (.circle f.circle.val (s.circ f.circle.val).gen.toNat f.op.val f.dst))) ∧
    (s.arriveTrap g.circle.val = none → (s.circ g.circle.val).arrived.lookup s.cw.widx = none → s.accs = [] →
      Completes s (exec (.bara g) s) ((r none g.circle.val).wrS g.dst (s.circ g.circle.val).gen)) ∧
    (s.isMember h.circle.val = true →
      (tokenOver (s.circ h.circle.val).gen (s.rdS h.a) = true → Completes s (exec (.barw h) s) (s.circleDone h.circle.val (s.rdS h.a))) ∧
      (tokenOver (s.circ h.circle.val).gen (s.rdS h.a) = false → ∃ u, exec (.barw h) s = .next u ∧ u.arch = s.arch ∧
        u.cw.pa.phase = .parked (.circleTok h.circle.val (s.rdS h.a)))) ∧
    (s.cw.forked = true → s.cw.tm = false →
      exec (.bar f) s = .next (s.trap ⟨0x28, 0, f.circle.val, 0⟩ s.cw.pa.here s.cw.pa.slot) ∧
      exec (.bara g) s = .next (s.trap ⟨0x28, 0, g.circle.val, 0⟩ s.cw.pa.here s.cw.pa.slot)) ∧
    (s.cw.forked = false →
      (s.isMember f.circle.val = false → exec (.bar f) s = .next (s.trap ⟨0x29, 0, f.circle.val, 0⟩ s.cw.pa.here s.cw.pa.slot)) ∧
      (s.isMember g.circle.val = false → exec (.bara g) s = .next (s.trap ⟨0x29, 0, g.circle.val, 0⟩ s.cw.pa.here s.cw.pa.slot))) ∧
    (s.isMember h.circle.val = false → exec (.barw h) s = .next (s.trap ⟨0x29, 0, h.circle.val, 0⟩ s.cw.pa.here s.cw.pa.slot))

/-- The byte barriers and WAIT (05 R148-R155): BCNT makes a barrier of the members that have not ended; BARX arrives with a byte
count and gives the phase it arrived in, completing the phase with the last; a misaligned or outside barrier traps. A WAIT whose
conditions hold writes the mask of those that hold; one whose time has come writes bit 31; else it waits, and an evaluation when a
condition holds, or the time-out, ends it. That a TIMEOUT of 0 does not end it while a word is still to be read is the model's choice
(log 32). -/
def Obligations.ByteBarriersAndWaits : Prop :=
  ∀ (f : BcntF) (g : BarxF) (w : WaitF) (s : State) (rel : State), rel = s.releaseAt s.cw.core s.cw.launch 1 (s.multiOf s.cw.block) →
    (∀ a blk key, a = (s.rdS f.addr).toNat → key = spdKey s.cw.block s.cw.core a → s.blk = some blk → a % 16 = 0 →
      a + 16 ≤ s.spdOf s.cw.block → s.accs = [] → s.ops = [] →
      ∃ n, n = ((s.members blk f.circle.val).filter fun m => !blk.ended.contains m).length ∧
        Completes s (exec (.bcnt f) s) (State.putBarr
          { rel.modOrder (Written.overwrite [barrPlace key]) with
              barriers := if key ∈ rel.barriers then rel.barriers else key :: rel.barriers } key
          { pend := 0, arrive := n, members := n, circle := f.circle.val, phase := false, err := false, rest := 0 })) ∧
    (∀ a, a = (s.rdS f.addr).toNat →
      (a % 16 ≠ 0 → exec (.bcnt f) s = .next (s.trap ⟨0x20, a, 0, 0⟩ s.cw.pa.here s.cw.pa.slot)) ∧
      (a % 16 = 0 → s.spdOf s.cw.block < a + 16 →
        exec (.bcnt f) s = .next (s.trap ⟨0x21, a, 0, 0⟩ s.cw.pa.here s.cw.pa.slot))) ∧
    (∀ a n b, a = (s.rdS g.addr).toNat → n = (s.rdS g.bytes).toNat → b = s.barrAt (spdKey s.cw.block s.cw.core a) →
      (s.cw.forked = false ∨ s.cw.tm = true) → a % 16 = 0 → a + 16 ≤ s.spdOf s.cw.block → n < 2 ^ 31 → s.isMember b.circle = true →
      b.arrive ≠ 0 → s.accs = [] →
      Completes s (exec (.barx g) s) ((rel.putBarr (spdKey s.cw.block s.cw.core a)
        (if b.arrive = 1 ∧ (b.pend + n) % 2 ^ 32 = 0 ∧ b.err = false
          then { b with pend := 0, arrive := b.members, phase := !b.phase }
          else { b with pend := (b.pend + n) % 2 ^ 32, arrive := b.arrive - 1 })).wrS g.dst (if b.phase then 1 else 0))) ∧
    (∀ (conds : List (List W32)) (p : WaitPark) r held,
      conds = (List.range (w.n.val + 1)).map (fun k => ((s.rdWords w.desc (4 * (w.n.val + 1)) 0).drop (4 * k)).take 4) →
      (∀ x ∈ conds.zipIdx, s.condTrap (toField w.desc + 4 * x.2) x.1 = none) →
      p = { dst := w.dst, all := w.all, conds := conds, since := s.ref, timeout := w.timeout.toNat } →
      r = s.condsEval p p.ordered → held = r.seen.filter (fun x => x.2.1) →
      (∀ t, r.trap = some t → (s.cw.tm = false ∨ s.cw.pa.inTrap = true) → exec (.wait w) s = .next (r.st.endReads.trap t r.st.cw.pa.here r.st.cw.pa.slot)) ∧
      (r.trap = none → ∀ ok, ok = (if w.all then held.length == r.seen.length else !held.isEmpty) →
        (ok = true ∨ (w.timeout = 0 ∧ r.unread = false) → Completes s (exec (.wait w) s)
          (((r.st.condsAcquire (held.filterMap fun x => conds[x.1]?)).wrS w.dst (BitVec.ofNat 32
            ((held.map fun x => 2 ^ x.1).sum + 256 * ((held.filter fun x => x.2.2).map fun x => 2 ^ x.1).sum +
              (if ok then 0 else 2 ^ 31)))).endReads)) ∧
        (ok = false → (w.timeout ≠ 0 ∨ r.unread = true) → ∃ u, exec (.wait w) s = .next u ∧
          ((∀ c ∈ conds, condRemote c = false ∧ (s.cw.task = none ∨ condKind c ≠ 3)) → u.arch = r.st.arch) ∧
          ((∀ a ∈ s.accs, a.kind.ofWait = false) → u.cw.pa.phase = .parked (.wait { p with polled := s.ref }))))) ∧
    (∀ (p : WaitPark) c, s.cw.pa.phase = .parked (.wait p) → s.cw.pa.pend = [] → s.cw.resid = .active →
      p.conds = [c] → condKind c = 6 →
      (condAddr c ≤ s.ptp → ∃ t, exec (.waitEvaluate s.cw.uid s.cw.second) s = .next t ∧ t.arch = (s.wrS p.dst 1).endReads.arch ∧
        t.cw.pa.spot = s.cw.pa.after) ∧
      (s.ptp < condAddr c →
        (p.timeout ≠ 0 → ∃ t, exec (.waitEvaluate s.cw.uid s.cw.second) s = .next t ∧ t.arch = s.arch ∧
          t.cw.pa.phase = .parked (.wait { p with polled := s.ref })) ∧
        (p.timeout ≠ 0xFFFFFFFF → p.since + p.timeout ≤ s.ref →
          ∃ t, exec (.waitTimeout s.cw.uid s.cw.second) s = .next t ∧ t.arch = (s.wrS p.dst 0x80000000).endReads.arch ∧
            t.cw.pa.spot = s.cw.pa.after)))

/-! ## Tasks, moots and gangs -/

/-- The tasks (13 R319-R326; 18 R378-R382): a spawn with no lane changes nothing, and else adds the number of its records to its join
word, if it names one, and then writes them and publishes them, or keeps them for its reservation; a join address that is misaligned
or outside the granary, or whose addition faults, is that trap, and nothing is written; TRES reserves room or says why not; TCOMMIT
publishes, TCANCEL discards; TNEXT gives the wave its next work, the records and iterations in their lanes with their payload words;
an idle core starts the task wave it serves next, or receives work. A task instruction in the wrong state is the task
trap with its sub-code. A spawn that waited writes what it captured at issue instead (14 R336), which is `held`. -/
def Obligations.TasksRun : Prop :=
  ∀ (s : State) (die : Nat), die = Config.dieOf s.cw.core → s.accs = [] → s.cw.pa.held = none →
    (∀ (tgt : Nat) (pays : List (List W32)) (i : Instr) (rsv : Bool) (range : Option (Nat × Nat)) (join : Option (Nat × Bool)),
      ((∃ f : SpawncF, i = .spawnc f ∧ tgt = (s.rdS f.tgt).toNat ∧ pays = s.lanePays f.pay f.n.val ∧ rsv = f.rsv ∧ range = none ∧
         join = none) ∨
       (∃ f : SpawnF, i = .spawn f ∧ tgt = (s.rdS f.tgt).toNat ∧ pays = s.lanePays f.pay f.n.val ∧ rsv = f.rsv ∧ range = none ∧
         join = if f.join = .sp 0 then none else some ((s.rd64 f.join).toNat, f.jsp)) ∨
       (∃ f : SpawnrF, i = .spawnr f ∧ tgt = (s.rdS f.tgt).toNat ∧ rsv = f.rsv ∧
         join = (if f.join = .sp 0 then none else some ((s.rd64 f.join).toNat, f.jsp)) ∧ ∃ lo hi : W32,
         s.rdWords f.rng 2 0 = [lo, hi] ∧ range = some (lo.toNat, hi.toNat) ∧
         pays = if lo.toNat < hi.toNat then [if f.n.val = 0 then [] else s.rdWords f.pay f.n.val 0] else [])) →
      tgt % 8 = 0 → tgt < s.lrec.codesize →
      (rsv = true → ∃ r, s.cw.resv = some r ∧ r.used + pays.length ≤ r.total) →
      (pays = [] → Completes s (exec i s) s) ∧
      (pays ≠ [] → join = none → rsv = true ∨ s.storeUsed die + pays.length ≤ 16384 →
        Completes s (exec i s) (s.spawnWrite ⟨tgt, pays, range, none⟩ rsv)) ∧
      (pays ≠ [] → join = none → rsv = true → ∃ t, Completes s (exec i s) t ∧ t.tasks.length = s.tasks.length + pays.length ∧
        (∀ x ∈ s.tasks, x ∈ t.tasks) ∧ ∀ x ∈ t.tasks, x ∉ s.tasks → x.published = false ∧ x.target = tgt ∧ x.payload ∈ pays) ∧
      (∀ a g, pays ≠ [] → join = some (a, g) →
        (a % 4 ≠ 0 → exec i s = .next (s.trap ⟨0x20, if g then a % 2 ^ 32 else a, 0, 0⟩ s.cw.pa.here s.cw.pa.slot)) ∧
        (a % 4 = 0 → g = true → 0x2000000 < a + 4 → exec i s = .next (s.trap ⟨0x21, a % 2 ^ 32, 0, 0⟩ s.cw.pa.here s.cw.pa.slot)) ∧
        (a % 4 = 0 → (g = true → a + 4 ≤ 0x2000000) → rsv = true ∨ s.storeUsed die + pays.length ≤ 16384 →
          ∀ r, r = s.joinAdd s.cw.core s.cw.launch s.cw.block a g pays.length true →
          (∀ t, r = .ok t → Completes s (exec i s) (t.spawnWrite ⟨tgt, pays, range, join⟩ rsv)) ∧
          (∀ c, r = .fault c →
            exec i s = .next (s.trap ⟨c, if g then a else a % 2 ^ 56, s.wordOff, 0⟩ s.cw.pa.here s.cw.pa.slot))))) ∧
    (∀ a n key bank, key = die * 2 ^ 25 + a →
      bank = (match SMap.get? s.blocks s.cw.block with | some b => b.bankOn s.cw.core | none => s.bankOf s.cw.core) →
      s.granOk s.cw.core s.lrec.asid a needAT bank = true → ∃ t, s.joinAdd s.cw.core s.cw.launch s.cw.block a true n true = .ok t ∧
        localRead s.granSeed t.gran key 4 = (localRead s.granSeed s.gran key 4 + n) % 2 ^ 32 ∧
        (∀ k, k < key ∨ key + 4 ≤ k → undefByte s.granSeed t.gran k = undefByte s.granSeed s.gran k) ∧
        t.hbm = s.hbm ∧ t.cw = s.cw ∧ t.tasks = s.tasks) ∧
    (∀ f : SpawncF, (s.rdS f.tgt).toNat % 8 ≠ 0 → f.rsv = false →
      exec (.spawnc f) s = .next (s.trap ⟨0x2C, (s.rdS f.tgt).toNat, 6, 0⟩ s.cw.pa.here s.cw.pa.slot)) ∧
    (∀ (f : TresF) (n : Nat), n = (s.rdS f.n).toNat →
      (s.cw.resv.isSome = true → exec (.tres f) s = .next (s.trap ⟨0x2C, 0, 2, 0⟩ s.cw.pa.here s.cw.pa.slot)) ∧
      (s.cw.resv = none →
        ((n = 0 ∨ 4096 < n) → Completes s (exec (.tres f) s) (s.wrS f.dst 0x80000002)) ∧
        (1 ≤ n → n ≤ 4096 → 16384 < s.storeUsed die + n → Completes s (exec (.tres f) s) (s.wrS f.dst 0x80000001)) ∧
        (1 ≤ n → n ≤ 4096 → s.storeUsed die + n ≤ 16384 → Completes s (exec (.tres f) s)
          ((s.onWave fun w => { w with resv := some { total := n, used := 0, written := [] } }).wrS f.dst (BitVec.ofNat 32 n))))) ∧
    (∀ f : TdstF,
      (s.cw.resv = none → exec (.tcommit f) s = .next (s.trap ⟨0x2C, 0, 3, 0⟩ s.cw.pa.here s.cw.pa.slot) ∧
        exec (.tcancel f) s = .next (s.trap ⟨0x2C, 0, 3, 0⟩ s.cw.pa.here s.cw.pa.slot)) ∧
      (∀ r, s.cw.resv = some r →
        Completes s (exec (.tcommit f) s)
          (((((s.releaseAt s.cw.core s.cw.launch 3 (s.multiOf s.cw.block)).publish s.cw.launch s.cw.core r.written).putTasks r.written).onWave
            fun w => { w with resv := none }).wrS f.dst (BitVec.ofNat 32 r.written.length)) ∧
        Completes s (exec (.tcancel f) s)
          (((s.cancelResv s.cw).onWave fun w => { w with resv := none }).wrS f.dst (BitVec.ofNat 32 r.total)))) ∧
    (∀ f : TnextF,
      (s.cw.task = none → exec (.tnext f) s = .next (s.trap ⟨0x2C, 0, 1, 0⟩ s.cw.pa.here s.cw.pa.slot)) ∧
      (∀ t, s.cw.task = some t → (s.cw.forked = true ∨ s.cw.pa.stack ≠ []) →
        exec (.tnext f) s = .next (s.trap ⟨0x2C, 0, 5, 0⟩ s.cw.pa.here s.cw.pa.slot)) ∧
      (∀ t, s.cw.task = some t → s.cw.forked = false → s.cw.pa.stack = [] →
        (t.range = true → (∀ r ∈ s.tasks, t.recs.contains r.id = false) → ∃ u, Completes s (exec (.tnext f) s) u ∧
          u.cw.pa.base = 0 ∧ (∀ i, f.dst = .s i → u.rdS f.dst = 0) ∧ u.tasks = s.tasks) ∧
        (t.range = true → ∀ r cur hi, s.tasks.find? (fun r => t.recs.contains r.id) = some r → r.range = some (cur, hi) → cur < hi →
          ∃ u, Completes s (exec (.tnext f) s) u ∧ (∀ l, l < 32 → u.cw.pa.base.getLsbD l = decide (cur + l < hi)) ∧
            (u.tasks = s.tasks.map fun x => if x.id == r.id then { x with range := some (cur + 32, hi) } else x) ∧
            ∀ i l, f.pay = .v i → f.n.val ≤ s.stackRegs → 0 < s.stackRegs → l < 32 → cur + l < hi →
              u.rdL (.v i) l = BitVec.ofNat 32 (cur + l) ∧
              ∀ j, j + 1 < f.n.val → u.cw.vphys (u.phys (i + 1 + j)) l = (r.payload[j]?).getD 0) ∧
        (t.range = false → ∀ s1 ids, s1 = (if t.first then s else t.recs.foldl (fun (s : State) id => s.retire s.cw id) s) →
          ids = (if t.first then t.recs else ((s1.taskList s.cw.core s.cw.launch t.target).take 32).map (·.id)) → ids.length ≤ 32 →
          ∃ u, Completes s (exec (.tnext f) s) u ∧ u.cw.task = some { t with recs := ids, first := false } ∧
            (∀ l, l < 32 → u.cw.pa.base.getLsbD l = decide (l < ids.length)) ∧
            (∀ k, f.dst = .s k → u.rdS f.dst = u.cw.pa.base) ∧
            u.tasks = s1.tasks.map (fun x => if ids.contains x.id then { x with served := true } else x) ∧
            ∀ i l x, f.pay = .v i → f.n.val ≤ s.stackRegs →
              (ids[l]?).bind (fun id => s1.tasks.find? fun y => y.id == id) = some x →
              ∀ j, j < f.n.val → u.cw.vphys (u.phys (i + j)) l = (x.payload[j]?).getD 0))) ∧
    (∀ core slot t, s.nextList core = some t → s.slotFree core slot (s.lrecOf t.launch).stackregs = true → s.swapping core = false →
      s.allWaves.any (fun w => w.core == core && s.futureReady w) = false →
      exec (.taskWaveStart core slot t.id) s = .next (s.taskStart core slot t) ∧
      (t.since + 2048 ≤ s.clk → slot < 96 → ∃ u k, k < 96 ∧ s.slotFree core k (s.lrecOf t.launch).stackregs = true ∧
        exec (.taskGatherTimeout core) s = .next u ∧ u = { s with fresh := s.fresh + 1 }.taskStart core k t)) ∧
    (∀ core donor, core < Config.cores → (List.range 96).any (fun x => !((s.heldSlots core false).map (·.1)).contains x) = true →
      s.listsEmpty core = true → (askOrder core).find? (fun c => s.hasWork c) = some donor →
      (∀ t, s.splittable donor = some t → exec (.workRequest core donor) s = .next (s.splitRange core t)) ∧
      (s.splittable donor = none → ∃ u, exec (.workRequest core donor) s = .next u ∧ u.cw = s.cw ∧ u.waves = s.waves ∧
        u.tasks.map (·.id) = s.tasks.map (·.id))) ∧
    (∀ uid slot w, s.waveOf uid = some w → s.futureReady w = true → (w.path w.second).phase ≠ .ending → s.slotFree w.core slot (s.lrecOf w.launch).stackregs = true →
      s.swapping w.core = false → s.abortedL w.launch = false → ∃ u w', exec (.futureResume uid slot) s = .next u ∧
        u.waveOf uid = some w' ∧ w'.resid = .active ∧ w'.slot = slot ∧ w'.sregs = w.sregs ∧ w'.vregs = w.vregs)

/-- The moots and gangs (13 R328-R330; 17 R356; 18 R370, R371): MOOTA of a member arrives at issue, and attaches with the last
member, gives up at once with time-out 0, or waits, also for the accesses that the arrivals release, which the time-out does not end
(the model's choice, log 43); MOOTD releases and detaches; MOOTQ reads the member's word and the sets; in a block of no gang MOOTA
and MOOTQ are the invalid-space trap. A gang's turn is granted when every package has asked, ends at its start, and is abandoned 50
ms after the first asked. -/
def Obligations.MootsAndGangs : Prop :=
  ∀ (f : MootaF) (q : MootqF) (s : State) (gid : Nat), gid = s.lrec.gangKey →
    (s.myRank = none → exec (.moota f) s = .next (s.trap ⟨0x22, 0, 0, 0⟩ s.cw.pa.here s.cw.pa.slot) ∧
      exec (.mootq q) s = .next (s.trap ⟨0x22, 0, 0, 0⟩ s.cw.pa.here s.cw.pa.slot)) ∧
    (∀ u : State, u.accs = [] → u.mootOver gid = true) ∧
    (∀ r b, s.myRank = some r → s.blk = some b →
      (∀ dst, s.mootResult dst = if b.attached then
          ((b.cores.foldl (fun (t : State) c => t.acquireAt c b.launch 4 (decide (b.cores.length > 1)))
            ((s.gangBlocks gid).foldl State.mootRelease s)).takeOrder (mootPlace gid)).wrS dst (mootWord r s.lrec.gangSize)
        else s.wrS dst (mootWord r s.lrec.gangSize ||| 0x80000000)) ∧
      (b.attached = true →
        (s.mootOver gid = true → Completes s (exec (.moota f) s) (s.mootResult f.dst)) ∧
        (s.mootOver gid = false → ∃ u, exec (.moota f) s = .next u ∧ u.arch = s.arch ∧
          u.cw.pa.phase = .parked (.moota f.dst s.ref f.timeout.toNat))) ∧
      (b.attached = false → b.arriving = false → ∀ t,
        t = ((s.mootPut b).modGang gid fun g => { g with arrived := insertNat r g.arrived }).modBlock b.id
          (fun b => { b with arriving := true, before := s.blockAccs b.id fun _ => true }) →
        ((t.gangOf gid).ready s.lrec.gangSize = true →
          ((t.attachAll gid).mootOver gid = true → Completes s (exec (.moota f) s) ((t.attachAll gid).mootResult f.dst)) ∧
          ((t.attachAll gid).mootOver gid = false → ∃ u, exec (.moota f) s = .next u ∧ u.arch = (t.attachAll gid).arch ∧
            u.cw.pa.phase = .parked (.moota f.dst s.ref f.timeout.toNat))) ∧
        ((t.gangOf gid).ready s.lrec.gangSize = false → f.timeout = 0 →
          Completes s (exec (.moota f) s) (t.withdraw.mootResult f.dst)) ∧
        ((t.gangOf gid).ready s.lrec.gangSize = false → f.timeout ≠ 0 → ∃ u, exec (.moota f) s = .next u ∧ u.arch = t.arch ∧
          u.cw.pa.phase = .parked (.moota f.dst s.ref f.timeout.toNat))) ∧
      (s.accs = [] → b.attached = true → b.detached = false → Completes s (exec .mootd s)
        (((s.releaseAt s.cw.core s.cw.launch 4 (s.multiOf s.cw.block)).modGang gid fun g =>
          { g with detached := insertNat r g.detached }).modBlock b.id fun b => { b with detached := true })) ∧
      (q.sel.val = 0 → Completes s (exec (.mootq q) s) (s.wrS q.dst (mootWord r s.lrec.gangSize))) ∧
      (∀ sets, sets = [(s.gangOf gid).attached, (s.gangOf gid).departed, (s.gangOf gid).detached] →
        ∀ k l, 1 ≤ q.sel.val → k = (s.rdS q.a).toNat → sets[q.sel.val - 1]? = some l →
        Completes s (exec (.mootq q) s) (s.wrS q.dst (maskOf fun j => decide (32 * k + j < s.lrec.gangSize) && l.contains (32 * k + j))))) ∧
    (s.accs = [] → s.blk = none → Completes s (exec .mootd s) (s.releaseAt s.cw.core s.cw.launch 4 (s.multiOf s.cw.block))) ∧
    (∀ d since n, s.cw.pa.phase = .parked (.moota d since n) → since + n ≤ s.ref → n ≠ 0xFFFFFFFF →
      (s.gangOf gid).ready s.lrec.gangSize = false → ∃ t, exec (.mootaTimeout s.cw.uid s.cw.second) s = .next t ∧
        t.arch = (s.withdraw.mootResult d).arch ∧ t.cw.pa.spot = s.cw.pa.after) ∧
    (∀ (g : Nat) b, (s.gangBlocks g).head? = some b → (s.gangOf g).ready (s.lrecOf b.launch).gangSize = true →
      ((s.attachAll g).mootOver g = true → exec (.gangAttachComplete g) s = .next (((s.attachAll g).mootWaiters g).foldl
        (fun (t : State) x => t.mootFinish x.1 x.2) (s.attachAll g))) ∧
      ((s.attachAll g).mootOver g = false → exec (.gangAttachComplete g) s = .next (s.attachAll g))) ∧
    (∀ (i : Nat) (g : Gang), g = s.gangOf i → 0 < g.pkgs →
      (g.asked.length = g.pkgs → g.reserved.length < g.pkgs →
        (∀ x ∈ s.gangs, x.2.turn = false ∧ (x.2 = g ∨ x.2.asked.length ≠ x.2.pkgs)) →
        exec (.gangTurnGrant i) s = .next (s.modGang i fun g => { g with turn := true })) ∧
      (g.turn = true → s.gangLaunches i ≠ [] → (∀ l ∈ s.gangLaunches i, l.placed = l.rec_.blocks) →
        (∀ k, k < g.pkgs → k ∈ g.reserved ∨ ∃ l ∈ s.gangLaunches i, l.rec_.prank = k) →
        exec (.gangStart i) s = .next (((s.gangLaunches i).flatMap fun l =>
            (s.blocks.map (·.2)).filter fun b => b.launch == l.id && b.phase == .placed).foldl (fun (t : State) b => t.startIn b)
          (s.modGang i fun g => { g with turn := false, reserved := List.range g.pkgs }))) ∧
      (g.asked ≠ [] → g.asked.length < g.pkgs → g.firstAsk + 5000000 ≤ s.ref →
        exec (.gangAbandon i) s = .next (s.failGang i 7)))

/-! ## Paths, pages, launches and blocks -/

/-- The schedule and the pager (01 R11, R23; 04 R101-R104; 08 R194; 18 R375; 20 R422): a pipe that is held, or whose core exchanges
banks, selects nothing, and one with no candidate changes nothing; the one candidate whose clause may start starts it
(CLAUSE_START): the path holds the pipe and issues from the clause's first slot, or where its replay begins; a parked path whose
condition is over is ready again; the pager's answer ends the misses of its page, and a rejection makes them translation faults. That
an event changes nothing where it cannot happen (a pipe with no candidate, a parked path whose condition is not over, a path with no
fault to take, an unknown token) is the model's choice (log 16). -/
def Obligations.PathsAndPages : Prop :=
  ∀ s : State,
    (∀ core part pipe,
      (s.pipeHeld core part pipe = true ∨ s.swapping core = true → exec (.clauseStart core part pipe) s = .next s) ∧
      (s.pipeHeld core part pipe = false → s.swapping core = false →
        (s.candidates core part pipe = [] → exec (.clauseStart core part pipe) s = .next s) ∧
        (∀ x, s.candidates core part pipe = [x] →
          ((s.prePark x).candidates core part pipe = [] → exec (.clauseStart core part pipe) s = .next (s.prePark x))) ∧
        (∀ c k, s.candidates core part pipe = [(s.cw, s.cw.second)] → s.cw.pa.phase = .ready → s.cw.pa.pend = [] → s.cw.tm = false →
          s.cw.heldTrap = none → s.abortedL s.cw.launch = false → s.missing s.cw.uid s.cw.second = false →
          s.nextClause = .start c k → ∃ t, exec (.clauseStart core part pipe) s = .next t ∧ t.cw.pa.clause = some c ∧
            t.cw.pa.slot = k ∧ t.cw.pa.phase = .issuing ∧ t.cw.pa.pc = s.cw.pa.pc ∧ t.cw.uid = s.cw.uid ∧ t.cw.sregs = s.cw.sregs ∧
            t.cw.vregs = s.cw.vregs ∧ t.waves = s.waves ∧ t.accs = s.accs ∧ t.ops = s.ops ∧ t.spd = s.spd ∧ t.tiles = s.tiles))) ∧
    (∀ why, s.cw.resid = .active → s.cw.pa.phase = .parked why → s.cw.pa.pend = [] →
      (s.parkOver s.cw s.cw.second why = false → exec (.pathResume s.cw.uid s.cw.second) s = .next s) ∧
      (s.parkOver s.cw s.cw.second why = true → s.abortedL s.cw.launch = false →
        (∀ c g op dst, why = .circle c g op dst → ∃ t, exec (.pathResume s.cw.uid s.cw.second) s = .next t ∧
          t.arch = (s.barDone c op dst).arch ∧ t.cw.pa.spot = s.cw.pa.after) ∧
        (∀ n, why = .store n → ∃ t, exec (.pathResume s.cw.uid s.cw.second) s = .next t ∧ t.arch = s.arch ∧
          t.cw.pa.spot = s.cw.pa.spot ∧ (s.cw.pa.clause.isSome = true → t.cw.pa.phase = .resume)))) ∧
    (∀ uid second w, s.waveOf uid = some w →
      (w.resid = .active → (w.path second).takesFault = true → (w.tm = false ∨ ((w.path second).inTrap = true ∧ (w.path second).phase ≠ .ending)) →
        s.missing uid second = false → exec (.deliveredFault uid second) s = .next (s.focus uid second).startFocus) ∧
      ((w.path second).takesFault = false → exec (.deliveredFault uid second) s = .next s)) ∧
    (∀ token,
      (s.missOf token = none → exec (.pagerResolve token) s = .next s ∧ exec (.pagerReject token) s = .next s) ∧
      (∀ m, s.missOf token = some m →
        (∃ t, exec (.pagerResolve token) s = .next t ∧ t.cw = s.cw ∧ t.waves = s.waves ∧ t.hbm = s.hbm ∧
          t.misses = s.misses.filter fun x => x.token != m.token) ∧
        (∃ t, exec (.pagerReject token) s = .next t ∧ (s.accs = [] → t.missOf token = none ∧ t.hbm = s.hbm))))

/-- The life of a launch and its blocks, and preemption (04 R106-R108; 18 R361-R369, R383, R384; 20 R413, R416): a doorbell of the
queue's own function submits; the controls of a queue are written as its fields say; a dependence is read; a launch is accepted, its
blocks are placed where they fit, start, exit and are counted; a launch that is over completes: its dirty bytes go home, its status
block is written, LERR and the error's fields before the completion word, and its queue's RUNNING falls by one, or, where the block
cannot be written, STFAULT says so; a waiting launch of priority 2 preempts after 100 us, banks are exchanged and exchanged back,
and a block's context is saved and restored. The read of its record accepts a launch, and its check goes on from there, table by
table. The model's choices among these: that a record which cannot be read sets STFAULT (log 44, DEDUCED), when banks are exchanged
back (log 45, DEDUCED), and that an event changes nothing where its condition fails (log 16). -/
def Obligations.LaunchesAndBlocks : Prop :=
  ∀ s : State,
    (∀ fn queue addr, s.isReady = true →
      ((s.queue queue).fn = fn → s.submitOk queue addr = true → exec (.doorbell fn queue addr) s = .next (s.submit queue addr)) ∧
      ((s.queue queue).fn ≠ fn → exec (.doorbell fn queue addr) s = .next s)) ∧
    (∀ queue value, s.isReady = true → queue < 64 →
      (∃ t, exec (.qctlWrite 0 queue value) s = .next t ∧ t = { s with queues := t.queues } ∧
        t.queue queue = { s.queue queue with
          ceil := value % 4, en := value.testBit 2, fn := if (s.queue queue).en then (s.queue queue).fn else value / 256 % 64 } ∧
        ∀ k, k ≠ queue → t.queue k = s.queue k) ∧
      (∀ fn, fn = 0 ∨ (s.queue queue).fn = fn →
        (value.testBit 13 = false → exec (.stfaultClear fn queue value) s = .next s) ∧
        (value.testBit 13 = true → ∃ t, exec (.stfaultClear fn queue value) s = .next t ∧ t = { s with queues := t.queues } ∧
          t.queue queue = { s.queue queue with stfault := false } ∧ ∀ k, k ≠ queue → t.queue k = s.queue k))) ∧
    (∀ q, (s.queue q).taking = none →
      (s.queue q).pending = [] ∨ (s.queue q).en = false ∨ s.trv = false ∨ 8 ≤ s.running q → exec (.launchAccept q) s = .next s) ∧
    (∀ q x a rest asid, s.queue q = x → x.pending = a :: rest → x.en = true → s.trv = true → s.running q < 8 →
      asid = fld (s.barWord (barFn + 8 * x.fn)) 0 16 → x.got = [] → x.taking = none →
      (∀ c u, s.devRead 0 asid a 256 = (.fault c, u) → ∃ t, exec (.launchAccept q) s = .next t ∧
        t.queue q = { x with pending := rest, stfault := true } ∧ t.launchOf s.nextId = none) ∧
      (∀ b u l t, s.devRead 0 asid a 256 = (.ok b, u) →
        l = newLaunch s.nextId (LRec.parse (bytesNat b)) q a x.ceil s.accepted s.ptpSteps →
        t = ((u.modQueue q fun x => { x with got := x.got ++ [b] }).enroll q l).devClear asid →
        (reservedSet (bytesNat b) = false → l.rec_.bad = false → l.rec_.queue = q → s.fnOk x.fn l.rec_.asid = true →
          exec (.launchAccept q) s = .next (t.checkTables q l)) ∧
        (reservedSet (bytesNat b) = true ∨ l.rec_.bad = true ∨ l.rec_.queue ≠ q ∨ s.fnOk x.fn l.rec_.asid = false →
          exec (.launchAccept q) s = .next (t.failCheck q l 1)))) ∧
    (∀ q l, (s.queue q).taking = some l.id → s.launchOf l.id = some l →
      exec (.launchAccept q) s = .next (if l.aborted then s.endCheck q else s.checkTables q l)) ∧
    (∀ q (l : Launch) (u : State) args recs circles,
      (∀ a v, s.readTables q l.rec_ = (.miss a v, u, args, recs, circles) → s.checkTables q l = u.devMiss a v 0) ∧
      (∀ c, s.readTables q l.rec_ = (.fault c, u, args, recs, circles) → s.checkTables q l = u.failCheck q l 1) ∧
      (s.readTables q l.rec_ = (.ok [], u, args, recs, circles) →
        (circlesBad l.rec_.waves circles = true → s.checkTables q l = u.failCheck q l 3) ∧
        (circlesBad l.rec_.waves circles = false →
          (l.rec_.tooBig = true → s.checkTables q l = (u.failCheck q l 2).failShare l) ∧
          (l.rec_.tooBig = false → s.checkTables q l = (((u.endCheck q).devClear l.rec_.asid).modLaunch l.id fun m =>
            { m with args := args, recs := recs, circles := circles }).readDeps l.id)))) ∧
    (∀ l dep, s.launchOf l.id = some l →
      ((l.aborted = true ∨ s.inCheck l.id = true ∨ l.depsMet[dep]? = some true) → exec (.dependenceRead l.id dep) s = .next s) ∧
      (∀ b a u, l.aborted = false → s.inCheck l.id = false → l.depsMet[dep]? = some false → l.rec_.deps[dep]? = some a → a < 2 ^ 56 →
        s.devRead 0 l.rec_.asid a 4 = (.ok b, u) → ∃ t, exec (.dependenceRead l.id dep) s = .next t ∧
          (bytesNat b ≠ 0 → t.launchOf l.id = some { l with depsMet := l.depsMet.set dep true }) ∧
          (bytesNat b = 0 → t.launchOf l.id = some l))) ∧
    (∀ l places, s.launchOf l.id = some l →
      (s.mayPlace l places = true →
        exec (.blockPlace l.id places) s = .next (s.listBlock l (s.newBlock l places false)).askGangs) ∧
      (s.mayPlace l places = false → exec (.blockPlace l.id places) s = .next s)) ∧
    (∀ (b : Block) l, SMap.get? s.blocks b.id = some b → s.launchOf b.launch = some l →
      (b.phase = .placed → l.rec_.gang = false → s.staggerOk l (Config.dieOf (b.cores.headD 0)) = true →
        s.heldUp l (Config.dieOf (b.cores.headD 0)) = false →
        exec (.blockStart b.id) s = .next (s.startBlock b)) ∧
      (b.phase = .exiting → s.blockQuiet b = true → l.rec_.gang = false →
        ∃ t, exec (.blockExit b.id) s = .next t ∧ SMap.get? t.blocks b.id = none ∧
          (b.isTask = false → ∃ l', t.launchOf b.launch = some l' ∧ l'.exited = l.exited + 1)) ∧
      (b.phase ≠ .exiting → exec (.blockExit b.id) s = .next s) ∧
      (s.saveQuiet b = false → exec (.contextSave b.id) s = .next s) ∧
      (∀ places, b.saved = false → exec (.contextRestore b.id places) s = .next s) ∧
      (∀ places, b.saved = true → (s.lrecOf b.launch).formOk places = true → s.placesFit (s.lrecOf b.launch) false places = true →
        ((s.lrecOf b.launch).coresOf places).any s.swapping = false →
        s.heldUp l (Config.dieOf (((s.lrecOf b.launch).coresOf places).headD 0)) = false →
        ∃ t, exec (.contextRestore b.id places) s = .next t ∧ ∃ b', SMap.get? t.blocks b.id = some b' ∧
          b' = { b with
            saved := false, cores := (s.lrecOf b.launch).coresOf places, slots := places
            banks := ((s.lrecOf b.launch).coresOf places).map s.bankOf }) ∧
      (s.saveQuiet b = true → b.cores.any s.swapping = false →
        (∃ x ∈ s.launches, s.preempting x.2 = true ∧ s.swapSets x.2 = [] ∧ s.savable x.2 b = true ∧
          ∀ c ∈ s.blocks, s.savable x.2 c.2 = true → keyLt (s.victimKey c.2) (s.victimKey b) = false) →
        ∃ t, exec (.contextSave b.id) s = .next t ∧ SMap.get? t.blocks b.id = some { b with saved := true })) ∧
    (∀ l, s.launchOf l.id = some l →
      (s.launchOver l = false → exec (.launchComplete l.id) s = .next s) ∧
      (s.launchOver l = true → l.silent = true → ∃ t, exec (.launchComplete l.id) s = .next t ∧ t.launchOf l.id = none) ∧
      (s.launchOver l = true → l.silent = false →
        (l.statusless = true ∨ l.rec_.statusptr % 32 ≠ 0 → ∃ t, exec (.launchComplete l.id) s = .next t ∧ t.launchOf l.id = none ∧
          (t.queue l.queue).stfault = true ∧ t.hbm = s.hbm ∧ t.host = s.host) ∧
        (l.statusless = false → l.rec_.statusptr % 32 = 0 → ∀ v w, v = s.draw.2.writeBackAll false (fun x => x.ofLaunch l.rec_.asid l.id) →
          w = v.devWrite 0 l.rec_.asid (l.rec_.statusptr + 4) (l.statusBytes s.draw.1) →
          (∀ a x, w.1 = .miss a x → exec (.launchComplete l.id) s = .next (s.devMiss a x 1)) ∧
          (∀ c, w.1 = .fault c → ∃ t, exec (.launchComplete l.id) s = .next t ∧ t.launchOf l.id = none ∧
            (t.queue l.queue).stfault = true) ∧
          (∀ host pa, v.DevAt l.rec_.asid (l.rec_.statusptr + 4) 28 host (pa + 4) → w.2.DevAt l.rec_.asid l.rec_.statusptr 4 host pa →
            ∃ t, exec (.launchComplete l.id) s = .next t ∧ t.launchOf l.id = none ∧
              (SMap.wf s.launches = true → ∀ q, t.running q = s.running q - if q = l.queue then 1 else 0) ∧
              (∀ q, t.queue q = s.queue q) ∧
              (∀ i < 4, t.homeByte host (pa + i) =
                BitVec.ofNat 8 ((if l.lerr = 0 then 1 else 2 ^ 31 + l.lerr) / 256 ^ i)) ∧
              (s.sectors = [] → (∀ i < 28, some (t.homeByte host (pa + 4 + i)) = (l.statusBytes s.draw.1)[i]?) ∧
                ∀ h a, (h = host → a < pa ∨ pa + 32 ≤ a) → t.homeByte h a = s.homeByte h a)))) ∧
      (∀ since, l.prio = 2 → l.waiting = some since → since + 10000 ≤ s.ref →
        ∃ t, exec (.preemptWaitExpiry l.id) s = .next t ∧ t.launchOf l.id = some { l with preempts := true }) ∧
      (l.prio ≠ 2 → exec (.preemptWaitExpiry l.id) s = .next s) ∧
      (∀ places, s.preempting l = false → exec (.preemptSwap l.id places) s = .next s) ∧
      (∀ places, s.preempting l = true → l.rec_.formOk places = true → l.rec_.gang = false →
        (s.swapSets l).contains (l.rec_.coresOf places) = true →
        (s.swapSets l).any (fun d => keyLt (s.swapKey d) (s.swapKey (l.rec_.coresOf places))) = false →
        s.placesFit l.rec_ true places = true → s.turnOf l (Config.dieOf ((l.rec_.coresOf places).headD 0)) = true →
        s.rotationOk l ((l.rec_.coresOf places).headD 0 / 8) = true → s.staggerOk l (Config.dieOf ((l.rec_.coresOf places).headD 0)) = true →
        exec (.preemptSwap l.id places) s = .next ((s.listBlock l (s.newBlock l places true)).startIn (s.newBlock l places true)))) ∧
    (∀ core,
      ((s.exchangeGroup core).all (fun c => s.swapping c && s.pipesIdle c) = true →
        exec (.bankExchange core) s = .next ((s.exchangeGroup core).foldl State.exchange s)) ∧
      (s.swapping core = false → s.shadowEmpty core = false → s.pipesIdle core = true →
        ((∃ g, (SMap.getD s.coreSt core CoreSt.reset).guest = some g ∧ ∀ b ∈ s.activeBlocks core, b.launch ≠ g) ∨
            ((SMap.getD s.coreSt core CoreSt.reset).guest = none ∧ s.activeBlocks core = []) →
          ∃ t, exec (.swapBack core) s = .next t ∧ t = { s.exchange core with coreSt := t.coreSt } ∧
            (∀ c, SMap.getD t.coreSt c CoreSt.reset =
              if c = core then { bank := !s.bankOf core, swapping := false, guest := none } else SMap.getD s.coreSt c CoreSt.reset)) ∧
        (∀ g, (SMap.getD s.coreSt core CoreSt.reset).guest = some g → (∃ b ∈ s.activeBlocks core, b.launch = g) →
          exec (.swapBack core) s = .next s)) ∧
      (s.shadowEmpty core = true ∨ s.swapping core = true → exec (.swapBack core) s = .next s))

/-! ## Time, frames, administration and the fabric -/

/-- Time and frames (13 R331-R333; 16 R347-R352; 20 R429): PTPRD reads the time or its status; FRAMEC after a release commits a
sequence and answers 0, 1 after its deadline, 2 where it is not newer, and 3 where the stream does not run, in the next tick where
the stream's deadline step of this one is over; SNAP answers 0 where the trigger is off or busy, and waits 2 to 4 ticks else, at
whose end it fires and answers 1, or 0 where the trigger is busy by then or has fired in that tick; a stream is enabled where its
fields pass the check, and disabled; the servo steps above its threshold and slews below; a loss of lock holds the time over. The
model's choices among these: the sign of the servo's offset (log 41, PRESUMED), FRAMEC put to the next tick (log 40), the free 2 to
4 ticks of SNAP and SNAPGO in the place of a PTP firing of its tick (log 42), and that an event changes nothing where it cannot
happen (log 16). -/
def Obligations.TimeAndFrames : Prop :=
  ∀ (f : RF) (c : FramecF) (p : SnapF) (s : State),
    (f.sub.val = 0 → Completes s (exec (.ptprd f) s) (s.wr64 f.dst (BitVec.ofNat 64 s.ptp))) ∧
    (∀ l, f.sub.val ≠ 0 → s.launchOf s.cw.launch = some l → Completes s (exec (.ptprd f) s) (s.wrS f.dst (BitVec.ofNat 32
      ((if s.ptpLocked then 1 else 0) + (if s.ptpHoldover then 2 else 0) + (if s.ptpSteps ≠ l.ptpSteps then 4 else 0))))) ∧
    (∀ n, n = (s.rdS c.stream).toNat → s.accs = [] → (s.stream n).en = true → (s.stream n).stepAt = some s.ref →
      ∃ u, exec (.framec c) s = .next u ∧ u.arch = s.arch ∧ u.cw.pa.phase = .parked (.tick (s.ref + 1))) ∧
    (∀ n rel, n = (s.rdS c.stream).toNat → rel = s.releaseAt s.cw.core s.cw.launch 5 (s.multiOf s.cw.block) → s.accs = [] →
      ((s.stream n).en = true → (s.stream n).stepAt ≠ some s.ref) →
      (16 ≤ n → Completes s (exec (.framec c) s) (rel.wrS c.dst 3)) ∧
      (n < 16 → (s.stream n).en = false → Completes s (exec (.framec c) s) (rel.wrS c.dst 3)) ∧
      (∀ x q d a, n < 16 → s.stream n = x → x.en = true → x.lastseq < 2 ^ 32 → x.nextseq < 2 ^ 32 → q = (s.rdS c.seq).toNat →
        d = (q + 2 ^ 32 - x.lastseq) % 2 ^ 32 → a = (q + 2 ^ 32 - x.nextseq) % 2 ^ 32 →
        (d = 0 ∨ 2 ^ 31 ≤ d → Completes s (exec (.framec c) s) (rel.wrS c.dst 2)) ∧
        (1 ≤ d → d < 2 ^ 31 →
          (2 ^ 31 ≤ a → Completes s (exec (.framec c) s) ((rel.setStream n { x with
            lastseq := q, src := q, have_ := true, latecnt := (x.latecnt + 1) % 2 ^ 32 }).wrS c.dst 1)) ∧
          (a < x.nbuf → a < 2 ^ 31 → Completes s (exec (.framec c) s)
            ((rel.setStream n { x with lastseq := q, pend := insertNat q x.pend }).wrS c.dst 0)) ∧
          (x.nbuf ≤ a → a < 2 ^ 31 → Completes s (exec (.framec c) s)
            ((rel.setStream n { x with lastseq := q, spoils := x.spoils ++ [(x.lastseq, q)] }).wrS c.dst 0))))) ∧
    (bit (s.barWord barSnap) 0 = false ∨ s.snapBusy = true → Completes s (exec (.snap p) s) (s.wrS p.dst 0)) ∧
    (bit (s.barWord barSnap) 0 = true → s.snapBusy = false → ∃ t n, exec (.snap p) s = .next t ∧ s.ref + 2 ≤ n ∧ n ≤ s.ref + 4 ∧
      t.arch = { s with fresh := s.fresh + 1 }.arch ∧ t.cw.pa.phase = .parked (.snap p.dst ((s.rdS p.tag).toNat % 65536) n)) ∧
    (∀ dst tag at_ v, s.cw.pa.phase = .parked (.snap dst tag at_) → at_ ≤ s.ref → s.snapping s.cw.pb = none →
      (∀ x ∈ s.waves, s.snapping x.2.pa = none ∧ s.snapping x.2.pb = none) → v = { s with fresh := s.fresh + 1 } →
      s.snapTick.cw.pa.spot = s.cw.pa.after ∧
      (s.snapBusy = true ∨ s.snapFired = true → s.snapTick.arch = (v.wrS dst 0).arch) ∧
      (s.snapBusy = false → s.snapFired = false → s.snapTick.arch = ((v.snapFire 3 tag).wrS dst 1).arch)) ∧
    (∀ tag, (s.isReady = false → exec (.snapgo tag) s = .next s) ∧
      (s.isReady = true → s.snapFired = false → exec (.snapgo tag) s = .next (if s.snapBusy then s else s.snapFire 1 tag)) ∧
      (s.isReady = true → s.snapFired = true →
        exec (.snapgo tag) s = .next (if fld (s.barWord (barSnap + 0x18)) 1 2 = 2 then s.snapTake tag else s))) ∧
    (s.snapPtpDue = true → exec .snapPtpFire s = .next ((s.setBar barSnap (s.barWord barSnap % 2)).snapFire 2 0)) ∧
    (s.snapPtpDue = false → exec .snapPtpFire s = .next s) ∧
    (s.snapBusy = true → ∃ t, exec .snapBusyClear s = .next t ∧ t.snapBusy = false ∧ t.cw = s.cw ∧ t.ref = s.ref) ∧
    (s.snapBusy = false → exec .snapBusyClear s = .next s) ∧
    exec .triggerEvaluate s = .next s.evalTriggers ∧ (∀ n, exec (.frameDeadline n) s = .next ((s.frameStep n).writeFrames n)) ∧
    (∀ n x, s.stream n = x → n < 16 → x.en = false → s.isReady = true →
      (x.ok = false → exec (.streamEnable n) s = .next (s.setStream n { x with cfgerr := true })) ∧
      (x.ok = true → ∃ t, exec (.streamEnable n) s = .next t ∧ (t.stream n).en = true ∧ (t.stream n).pend = [] ∧
        (t.stream n).pubcnt = 0 ∧ (s.ptp ≤ x.epoch → (t.stream n).nextseq = x.seq0) ∧ t.cw = s.cw ∧ t.hbm = s.hbm) ∧
      exec (.streamDisable n) s = .next s) ∧
    (∀ n, (s.stream n).en = true → exec (.streamDisable n) s = .next (s.setStream n { s.stream n with en := false })) ∧
    (∀ d : Int, ∃ t, exec (.ptpMessageReceive d) s = .next t ∧ t.ptpLocked = true ∧ t.ptpHoldover = false ∧ t.ptpOffset = d ∧
      t.ptp = s.ptp ∧ (s.stepThr < d.natAbs → t.ptpStepBy = -d ∧ t.ptpSlew = 0) ∧ (d.natAbs ≤ s.stepThr → t.ptpStepBy = 0 ∧ t.ptpSlew = -d)) ∧
    (s.ptpLocked = true → exec .lossOfLock s =
      .next { s with ptpLocked := false, ptpHoldover := true, ptpSlew := 0, ptpStepBy := 0 }) ∧
    (s.ptpLocked = false → exec .lossOfLock s = .next s)

/-- The administration (20 R412-R432): the clock follows power and heat between 800 and 2000 MHz; the trip removes power; a reset
leaves the state of R418, MODRESET only with its key, a function-level reset closes the function's queues; bring-up and INVGO set
and clear their bits; a mailbox command starts where none runs and completes (MAILBOX_COMPLETE) with its RESULT and its response,
here for MEASURE, EXTEND, PTPCFG and an unknown opcode, of a steward that has booted and measured its firmware and configuration;
the log only grows persistent; the host's accesses before readiness, a write of it above 512 bytes and register writes of a function
other than the PF change nothing; a check-bit error that is corrected only counts. The model's choices among these: the hash, the
parts of the image that are measured and the boot put before the first command (log 13, PRESUMED), PTPCFG's layout (log 41),
EXTEND's register field of 4 bytes (log 47), that the host's accesses through BAR2 before readiness do nothing (log 46), and that an
event changes nothing where it cannot happen (log 16). -/
def Obligations.AdministrationActs : Prop :=
  ∀ s : State,
    (∀ watts temp, ∃ t, exec (.powerSample watts temp) s = .next t ∧ t.cw = s.cw ∧ t.hbm = s.hbm ∧
      ∀ clk limit, clk = fld (s.barWord barPSTAT) 0 12 → limit = s.barWord barPLIMIT → 800 ≤ clk → clk ≤ 2000 →
        fld (t.barWord barPSTAT) 0 12 =
          (if limit < watts ∨ 105 ≤ temp then max 800 (clk - 25)
            else if 100 * watts < 97 * limit ∧ temp < 100 then min 2000 (clk + 25) else clk)) ∧
    exec .thermalTrip s = .next { s.logEvent logThermal [] with powered := false } ∧
    (∀ on, ∃ t, exec (.moduleReset on) s = .next t ∧ t.powered = true ∧ t.waves = [] ∧ t.launches = [] ∧ t.blocks = [] ∧
      t.accs = [] ∧ t.ops = [] ∧ t.sectors = [] ∧ t.cw.resid = .free ∧ t.clk = 0 ∧ t.ref = 0 ∧ t.host = (if on then s.host else t.host) ∧
      (on = true → t.hbm = []) ∧ ∀ q, t.queue q = Queue.reset) ∧
    (∀ v, (fld v 16 16 ≠ 0x7256 ∨ v % 2 = 0 ∨ s.isReady = false → exec (.modreset v) s = .next s) ∧
      (fld v 16 16 = 0x7256 → v % 2 = 1 → s.isReady = true → exec (.modreset v) s = exec (.moduleReset false) s)) ∧
    (∀ fn, (fn = 0 ∨ 63 < fn → exec (.vfFunctionLevelReset fn) s = .next s) ∧
      (1 ≤ fn → fn ≤ 63 → s.launches = [] → ∃ t, exec (.vfFunctionLevelReset fn) s = .next t ∧ t = { s with queues := t.queues } ∧
        ∀ q, t.queue q = if (s.queue q).fn = fn then { s.queue q with en := false, pending := [], got := [], taking := none }
          else s.queue q)) ∧
    (s.isReady = true → exec .bringUpComplete s = .next s) ∧
    (s.isReady = false → ∃ t, exec .bringUpComplete s = .next t ∧ t.isReady = true ∧ t.cw = s.cw) ∧
    (s.isReady = true → bit (s.barWord 0x20028) 0 = false → exec .invgo s = .next (s.setBar 0x20028 1)) ∧
    (s.isReady = false → exec .invgo s = .next s) ∧
    (bit (s.barWord 0x20028) 0 = true → ∃ t, exec .invalidationComplete s = .next t ∧ bit (t.barWord 0x20028) 0 = false) ∧
    (bit (s.barWord 0x20028) 0 = false → exec .invalidationComplete s = .next s) ∧
    (∀ len tag p, p ∈ [(Instr.sensors len tag, 0x0001), (.logread len tag, 0x0002), (.fwstage len tag, 0x0010),
        (.fwcommit len tag, 0x0011), (.measure len tag, 0x0020), (.extend len tag, 0x0021), (.quote len tag, 0x0022),
        (.ptpcfg len tag, 0x0030)] →
      (s.mbCmd.isSome = true → exec p.1 s = .next s) ∧
      (s.mbCmd = none → ∃ t, exec p.1 s = .next t ∧ t.mbCmd = some (p.2, len % 65536, false) ∧ t.mbdata = s.mbdata ∧
        bit (t.barWord barMbStat) 0 = true ∧ fld (t.barWord barMbStat) 32 32 = tag % 2 ^ 32 ∧ t.cw = s.cw ∧ t.hbm = s.hbm)) ∧
    (s.mbCmd = none → exec .mailboxComplete s = .next s) ∧
    (∀ op len spoiled req, s.mbCmd = some (op, len, spoiled) → req = (List.range len).map s.mbByte →
      ∃ t, exec .mailboxComplete s = .next t ∧ t.mbCmd = none ∧ bit (t.barWord barMbStat) 0 = false ∧
        fld (t.barWord barMbStat) 32 32 = fld (s.barWord barMbStat) 32 32 ∧ t.cw = s.cw ∧
        t.msi = s.msi ++ (if bit (s.barWord barMbMsi) 11 then [fld (s.barWord barMbMsi) 0 11] else []) ∧
        (0x1000 ≤ op → op < 0x10000 → fld (t.barWord barMbStat) 8 8 = 1) ∧
        (op = 0x0020 → len ≠ 0 → fld (t.barWord barMbStat) 8 8 = 2) ∧
        (op = 0x0020 → len = 0 → (∀ i, (s.stewardBoot.measure i).length = 64) → fld (t.barWord barMbStat) 8 24 = 256 * 512 ∧
          (spoiled = false → ∀ i k, i < 8 → k < 64 → some (t.mbByte (64 * i + k)) = (s.stewardBoot.measure i)[k]?)) ∧
        (∀ i, op = 0x0021 → 5 ≤ len → len ≤ 4096 → i = bytesNat (req.take 4) → 3 ≤ i → i ≤ 7 →
          fld (t.barWord barMbStat) 8 24 = 0 ∧ t.measure i = shake256 (s.measure i ++ req.drop 4)) ∧
        (op = 0x0030 → len = 4 → bytesNat ((req.drop 1).take 1) ≤ 2 → bytesNat ((req.drop 2).take 2) ≠ 0 →
          fld (t.barWord barMbStat) 8 24 = 0 ∧ t.barWord barPTPCFG = bytesNat (req.take 4))) ∧
    (s.fw.up = true → s.stewardBoot = s) ∧
    (s.fw.up = false → s.stewardBoot.fw.up = true ∧ (∀ i, 3 ≤ i → s.stewardBoot.measure i = s.measure i) ∧
      ∃ img, (img = s.fw.slotA ∨ img = s.fw.slotB) ∧ s.stewardBoot.measure 0 = shake256 (s.measure 0 ++ Config.stewardPart img) ∧
        s.stewardBoot.measure 1 = shake256 (s.measure 1 ++ Config.devicePart img) ∧
        s.stewardBoot.measure 2 = shake256 (s.measure 2 ++ Config.fusedConfig)) ∧
    (∀ n, exec (.logPersist n) s = .next { s with logPersisted := max s.logPersisted (min n s.evlog.length) }) ∧
    (∀ op addr n data, s.isReady = false → exec (.hostAccess op false addr n data) s = .next s) ∧
    (∀ mem addr n data, 512 < n → exec (.hostAccess 1 mem addr n data) s = .next s) ∧
    (∀ a x : Nat, a < 2 ^ 55 → ∃ t, exec (.hostAccess 1 true a 4 x) s = .next t ∧ t.cw = s.cw ∧ t.hbm = s.hbm ∧
      (a + 4 ≤ 2 ^ 55 → ∀ i, i < 4 → (t.physRead (2 ^ 55 + a + i) 1).2 = [BitVec.ofNat 8 (x / 256 ^ i)])) ∧
    (∀ fn off n v, (fn ≠ 0 ∨ (n ≠ 4 ∧ n ≠ 8) → exec (.registerWrite fn off n v) s = .next s) ∧
      (fn = 0 → n = 4 ∨ n = 8 → off % n = 0 → s.isReady = true → exec (.registerWrite fn off n v) s = .next (s.busWrite off n v))) ∧
    (∀ v, (s.isReady = false → exec (.pqtailWrite v) s = .next s) ∧
      (s.isReady = true → exec (.pqtailWrite v) s = .next (s.setBar barPQTAIL (v % 2 ^ 32)).postMisses)) ∧
    (∀ place core slot reg lane byte, ∃ t, exec (.checkBitError place core slot reg lane byte true) s = .next t ∧
      t = { s with bar := t.bar }) ∧
    (∀ core slot reg lane byte, ∃ t, exec (.checkBitError 7 core slot reg lane byte false) s = .next t ∧
      t = { s with badWords := t.badWords, evlog := t.evlog } ∧ t.badWords.contains (7, reg) = true)

/-- The fabric (19 R387-R411): link-up gives the package its id and incarnation; a station changes its bit and its plane's; a packet
of another incarnation, or a second copy, is dropped and counted, and one that is new acts once; a request is sent again 32 us after
it was last heard of, and resends and notices are counted; a node's refusal is a fault of the access; a remote access that waits 2
ms faults with cause 0x2A; a departure marks its ranks, and those of their packages. A request's number is its access's, with 2^64
times the number of the piece that stands for it. How resends, notices and time-outs are counted where R410 does not say (log 52),
the numbers of the packet kinds, and that an event changes nothing where it cannot happen (log 16) are the model's choices. -/
def Obligations.FabricActs : Prop :=
  ∀ s : State,
    (∀ pkgid incarn, exec (.fabricLinkUp pkgid incarn) s =
      .next (s.setBar barFab (pkgid % 4096 + 65536 * (incarn % 65536) + 2 ^ 32))) ∧
    (∀ k up, 32 ≤ k → exec (.stationStateChange k up) s = .next s) ∧
    (∀ k up, k < 32 → ∃ t, exec (.stationStateChange k up) s = .next t ∧ t = { s with bar := t.bar } ∧
      bit (t.barWord (barFab + 8)) k = up ∧
      (∀ j, j < 32 → j ≠ k → bit (t.barWord (barFab + 8)) j = bit (s.barWord (barFab + 8)) j) ∧
      (bit (t.barWord (barFab + 8)) 32 = true ↔ ∃ j, j < 16 ∧ bit (t.barWord (barFab + 8)) j = true) ∧
      (bit (t.barWord (barFab + 8)) 33 = true ↔ ∃ j, 16 ≤ j ∧ j < 32 ∧ bit (t.barWord (barFab + 8)) j = true)) ∧
    (∀ k, exec (.idleBeat k) s = .next s) ∧
    (∀ incarn src seq kind gid addr n data,
      (incarn ≠ fld (s.barWord barFab) 16 16 →
        exec (.fabricPacketReceive incarn src seq kind gid addr n data) s = .next (s.fabCount (barFab + 0x10) false)) ∧
      (incarn = fld (s.barWord barFab) 16 16 →
        ((SMap.get? s.seqSeen (src * 2 ^ 64 + seq)).isSome = true →
          exec (.fabricPacketReceive incarn src seq kind gid addr n data) s = .next (s.fabCount (barFab + 0x10) true)) ∧
        ((SMap.get? s.seqSeen (src * 2 ^ 64 + seq)) = none → ∀ t, t = { s with seqSeen := SMap.set s.seqSeen (src * 2 ^ 64 + seq) () } →
          exec (.fabricPacketReceive incarn src seq kind gid addr n data) s =
            .next (if kind = 0 then t
              else if kind = 19 then { t with heldPackets := t.heldPackets.filter fun x => x.1 != src * 2 ^ 64 + addr }
              else if kind < 20 then
                (if t.packetWaits kind gid addr n then
                  { t with heldPackets := t.heldPackets ++ [(src * 2 ^ 64 + seq, kind, gid, addr, n, data)] }
                else t.gangPacket src kind gid addr n data)
              else if kind = 26 then t.refuse 0x23 addr n else if kind = 27 then t.refuse 0x24 addr n
              else t.poolPacket kind addr n data)))) ∧
    (∀ id a k p, s.accs = [a] → s.remote id = some a → a.space = 5 → a.pieces[k]? = some p → p.settled = false →
      (a.pieces.length = 1 → ∀ code, (s.refuse code id k) = State.settle { s with accs := [{ a with pieces :=
        [{ p with miss := false, fault := some ⟨code, p.addr, a.word, 0⟩ }] }] } id)) ∧
    (∀ id,
      (s.request id = none → exec (.fabricResend id) s = .next s ∧
        exec (.keepWaitingNotice id) s = .next (s.fabCount (barFab + 0x20) false)) ∧
      (∀ t, s.request id = some t →
        exec (.keepWaitingNotice id) s = .next ((s.hear id).fabCount (barFab + 0x20) false) ∧
        (t + 3200 ≤ s.ref → exec (.fabricResend id) s = .next ((s.hear id).fabCount (barFab + 0x18) false)) ∧
        (s.ref < t + 3200 → exec (.fabricResend id) s = .next s)) ∧
      (∀ a, s.remote id = some a → s.ref < a.since + 200000 → exec (.remoteTimeout id) s = .next s) ∧
      (∀ a p, s.accs = [a] → s.remote id = some a → a.since + 200000 ≤ s.ref → a.pieces = [p] → a.kind.stores = false →
        p.settled = false →
        exec (.remoteTimeout id) s = .next (((s.timeOutPiece a 0).settle id).fabCount (barFab + 0x18) true) ∧
        (s.timeOutPiece a 0).hbm = s.hbm ∧ (s.timeOutPiece a 0).accs = [{ a with pieces :=
          [{ p with done := false, result := [], miss := false, fault := some ⟨0x2A, s.faultAddr a p, a.word, 0⟩ }] }])) ∧
    (∀ gid ranks, s.accs = [] → (s.gangOf gid).turn = false → ∃ t, exec (.departureNotice gid ranks) s = .next t ∧
      t.cw = s.cw ∧ t.blocks = s.blocks ∧ ∀ r, r ∈ (t.gangOf gid).departed ↔
        r ∈ (s.gangOf gid).departed ∨ r ∈ ranks ∨ (r < (s.gangOf gid).size ∧ 0 < (s.gangOf gid).blocks ∧
          ∃ x ∈ ranks, x / (s.gangOf gid).blocks = r / (s.gangOf gid).blocks))
end

