-- ==== Sys2Proof/Laws/Slot.lean ====
section
/-! SUPPORT. What the end of a slot does: only the place and the schedule of paths change (01 R17, R21; 18 R374-R376). -/

namespace Sys2Proof.Machine

open Sys2Proof (SMap)

theorem arch_modify (m : SMap Wave) (k : Nat) (f : Wave → Wave) (h : ∀ w, (f w).arch = w.arch) :
    (SMap.modify m k f).map (fun (x : Nat × Wave) => (x.1, x.2.arch)) = m.map fun (x : Nat × Wave) => (x.1, x.2.arch) := by
  induction m with
  | nil => rfl
  | cons x t ih =>
    obtain ⟨a, b⟩ := x
    simp only [SMap.modify]
    split
    · simp [h]
    · simp [ih]

/-- A change of path `second` that keeps what instructions see of it keeps the wave's. -/
theorem onPath_arch (w : Wave) (b : Bool) (f : PathSt → PathSt) (h : ∀ p, (f p).arch = p.arch) :
    (w.onPath b f).arch = w.arch := by
  simp only [Wave.onPath]
  split <;> simp [Wave.arch, h]

theorem modWave_arch (s : State) (uid : Nat) (f : Wave → Wave) (h : ∀ w, (f w).arch = w.arch) :
    (s.modWave uid f).arch = s.arch := by
  simp only [State.modWave]
  split
  · simp [State.arch, h]
  · simp [State.arch, arch_modify _ _ _ h]

theorem updPath_arch (s : State) (uid : Nat) (b : Bool) (f : PathSt → PathSt) (h : ∀ p, (f p).arch = p.arch) :
    (s.updPath uid b f).arch = s.arch := modWave_arch _ _ _ fun w => onPath_arch w b f h

theorem onPa_arch (s : State) (f : PathSt → PathSt) (h : ∀ p, (f p).arch = p.arch) : (s.onPa f).arch = s.arch := by
  simp [State.onPa, State.onWave, State.arch, Wave.arch, h]

/-- A change that keeps the spot of every path keeps that of the path in focus. -/
theorem updPath_spot (s : State) (uid : Nat) (b : Bool) (f : PathSt → PathSt) (h : ∀ p, (f p).spot = p.spot) :
    (s.updPath uid b f).cw.pa.spot = s.cw.pa.spot := by
  simp only [State.updPath, State.modWave, Wave.onPath]
  split
  · simp only []
    split <;> simp [h]
  · rfl

theorem foldl_keeps {α β : Type} (p : State → β) (g : State → α → State) (h : ∀ s a, p (g s a) = p s) (l : List α) (s : State) :
    p (l.foldl g s) = p s := by
  induction l generalizing s with
  | nil => rfl
  | cons a t ih => simp [ih, h]

theorem ite_keeps {β : Type} {x : β} (p : State → β) {c : Prop} [Decidable c] {a b : State} (ha : p a = x) (hb : p b = x) :
    p (if c then a else b) = x := by split <;> assumption

theorem refillOne_arch (s : State) (core part : Nat) : (s.refillOne core part).arch = s.arch := by
  unfold State.refillOne
  split
  · rfl
  · dsimp only
    split
    · rfl
    · refine (updPath_arch _ _ _ PathSt.enter fun p => rfl).trans ?_
      refine foldl_keeps State.arch _ (fun s a => ?_) _ _
      exact updPath_arch _ _ _ _ fun p => rfl

theorem refillOne_spot (s : State) (core part : Nat) : (s.refillOne core part).cw.pa.spot = s.cw.pa.spot := by
  unfold State.refillOne
  split
  · rfl
  · dsimp only
    split
    · rfl
    · refine (updPath_spot _ _ _ PathSt.enter fun p => rfl).trans ?_
      refine foldl_keeps (fun s : State => s.cw.pa.spot) _ (fun s a => ?_) _ _
      exact updPath_spot _ _ _ _ fun p => rfl

/-- A refill changes only what the schedule keeps. -/
theorem refill_arch (s : State) (core part : Nat) : (s.refill core part).arch = s.arch := by
  unfold State.refill
  exact foldl_keeps State.arch (fun (s : State) (_ : Nat) => s.refillOne core part) (fun s _ => refillOne_arch s core part) (List.range 4) s

theorem refill_spot (s : State) (core part : Nat) : (s.refill core part).cw.pa.spot = s.cw.pa.spot := by
  unfold State.refill
  exact foldl_keeps (fun s : State => s.cw.pa.spot) (fun (s : State) (_ : Nat) => s.refillOne core part)
    (fun s _ => refillOne_spot s core part) (List.range 4) s

theorem refillOf_arch (s : State) (w : Wave) : (s.refillOf w).arch = s.arch := by
  unfold State.refillOf; split <;> simp [refill_arch]

theorem refillOf_spot (s : State) (w : Wave) : (s.refillOf w).cw.pa.spot = s.cw.pa.spot := by
  unfold State.refillOf; split <;> simp [refill_spot]

theorem leave_arch (s : State) : s.leave.arch = s.arch := by
  unfold State.leave
  rw [refillOf_arch]
  refine ite_keeps State.arch ?_ (onPa_arch _ _ fun _ => rfl)
  exact (onPa_arch _ _ fun _ => rfl).trans (onPa_arch _ _ fun _ => rfl)

theorem leave_spot (s : State) : s.leave.cw.pa.spot = s.cw.pa.spot := by
  unfold State.leave
  rw [refillOf_spot]
  exact ite_keeps (fun s : State => s.cw.pa.spot) rfl rfl

/-- A path that parks for another reason than a page miss keeps all but its place in the schedule, and is parked. -/
theorem park_arch (s : State) (w : Park) (h : w.onMiss = false) : (s.park w).arch = s.arch := by
  unfold State.park State.parkPath
  have h1 := updPath_arch s s.cw.uid s.cw.second (fun p => { p with phase := .parked w, elig := false }) fun _ => rfl
  simp only [h, Bool.false_eq_true, if_false]
  split
  · rw [refillOf_arch]; exact h1
  · exact h1

theorem park_spot (s : State) (w : Park) (h : w.onMiss = false) : (s.park w).cw.pa.spot = s.cw.pa.spot := by
  unfold State.park State.parkPath
  have h1 := updPath_spot s s.cw.uid s.cw.second (fun p => { p with phase := .parked w, elig := false }) fun _ => rfl
  simp only [h, Bool.false_eq_true, if_false]
  split
  · rw [refillOf_spot]; exact h1
  · exact h1

/-- The wait for what the next clause needs changes nothing instructions see, nor where the path stands. -/
theorem parkStart_arch (s : State) : s.parkStart.arch = s.arch := by
  unfold State.parkStart
  split
  · exact park_arch s _ rfl
  · exact park_arch s _ rfl
  · rfl

theorem parkStart_spot (s : State) : s.parkStart.cw.pa.spot = s.cw.pa.spot := by
  unfold State.parkStart
  split
  · exact park_spot s _ rfl
  · exact park_spot s _ rfl
  · rfl

/-- What a clause's end makes of the path's place changes nothing instructions see, nor where the path stands. -/
theorem atBoundary_arch (s : State) (y : Nat) : (s.atBoundary y).arch = s.arch := by
  unfold State.atBoundary
  exact ite_keeps State.arch (leave_arch s) (parkStart_arch s)

theorem atBoundary_spot (s : State) (y : Nat) : (s.atBoundary y).cw.pa.spot = s.cw.pa.spot := by
  unfold State.atBoundary
  exact ite_keeps (fun s : State => s.cw.pa.spot) (leave_spot s) (parkStart_spot s)

/-- The end of a clause puts the path before the clause at `next` and changes nothing instructions see. -/
theorem endClause_arch (s : State) (next : Nat) : (s.endClause next).arch = s.arch := by
  unfold State.endClause State.endClauseAt
  exact ite_keeps State.arch ((leave_arch _).trans (onPa_arch s _ fun _ => rfl)) ((atBoundary_arch _ _).trans (onPa_arch s _ fun _ => rfl))

theorem endClause_spot (s : State) (next : Nat) : (s.endClause next).cw.pa.spot = (next % 2 ^ 32, none, 0) := by
  unfold State.endClause State.endClauseAt
  exact ite_keeps (fun s : State => s.cw.pa.spot) (leave_spot _) (atBoundary_spot _ _)

theorem seqPc_lt (p : PathSt) : p.seqPc % 2 ^ 32 = p.seqPc := by
  unfold PathSt.seqPc; split <;> exact Nat.mod_mod _ _

/-- The end of a slot changes nothing instructions see. -/
theorem slotDone_arch (s : State) : s.slotDone.arch = s.arch := by
  unfold State.slotDone
  split
  · exact endClause_arch _ _
  · exact onPa_arch _ _ fun _ => rfl

/-- The end of a slot moves the path to the next slot or the successor clause. -/
theorem slotDone_spot (s : State) : s.slotDone.cw.pa.spot = s.cw.pa.after := by
  unfold State.slotDone PathSt.after
  split
  · rw [endClause_spot, seqPc_lt]
  · rfl

/-- A slot whose effect leaves the path in focus where it is completes with that effect. -/
theorem completes_slotDone (s t : State) (h : t.cw.pa.after = s.cw.pa.after) : Completes s (.next t.slotDone) t :=
  ⟨_, rfl, slotDone_arch t, by rw [slotDone_spot, h]⟩

/-- A branch lands before its target. -/
theorem branches_endClause (t : State) (target : Nat) : Branches (.next (t.endClause target)) t target :=
  ⟨_, rfl, endClause_arch t target, endClause_spot t target⟩

end Sys2Proof.Machine
end

