-- ==== Sys2Proof/Laws/Registers.lean ====
section
/-! SUPPORT. What the register operations do: each changes the wave in focus only, leaves its paths where they are, and a write
is what the next read gives (01 R33, R36, R41). -/

namespace Sys2Proof.Machine

open Sys2Proof (Operand RF W32 W64 Mask SMap SMap.get? SMap.set SMap.getD)

theorem get?_set_self {α : Type} (m : SMap α) (k : Nat) (v : α) : SMap.get? (SMap.set m k v) k = some v := by
  induction m with
  | nil => simp [SMap.set, SMap.get?]
  | cons x t ih =>
    obtain ⟨a, b⟩ := x
    simp only [SMap.set]
    split
    · simp [SMap.get?]
    · split
      · simp [SMap.get?]
      · next h => simp [SMap.get?, h, ih]

theorem get?_set_ne {α : Type} (m : SMap α) {k j : Nat} (v : α) (h : j ≠ k) : SMap.get? (SMap.set m k v) j = SMap.get? m j := by
  induction m with
  | nil => simp [SMap.set, SMap.get?, h]
  | cons x t ih =>
    obtain ⟨a, b⟩ := x
    simp only [SMap.set]
    split
    · simp [SMap.get?, h]
    · split
      · next e => subst e; simp [SMap.get?, h]
      · simp [SMap.get?, ih]

theorem getD_set_self {α : Type} (m : SMap α) (k : Nat) (v d : α) : SMap.getD (SMap.set m k v) k d = v := by
  simp [SMap.getD, get?_set_self]

theorem getD_set_ne {α : Type} (m : SMap α) {k j : Nat} (v d : α) (h : j ≠ k) :
    SMap.getD (SMap.set m k v) j d = SMap.getD m j d := by simp [SMap.getD, get?_set_ne _ _ h]

theorem get?_del_self {α : Type} (m : SMap α) (k : Nat) : SMap.get? (SMap.del m k) k = none := by
  induction m with
  | nil => rfl
  | cons x t ih =>
    obtain ⟨a, b⟩ := x
    simp only [SMap.del]
    split
    · exact ih
    · next h => simp [SMap.get?, h, ih]

theorem get?_del_ne {α : Type} (m : SMap α) {k j : Nat} (h : j ≠ k) : SMap.get? (SMap.del m k) j = SMap.get? m j := by
  induction m with
  | nil => rfl
  | cons x t ih =>
    obtain ⟨a, b⟩ := x
    simp only [SMap.del]
    split
    · next e => subst e; simp [SMap.get?, h, ih]
    · simp [SMap.get?, ih]

@[simp] theorem wrS_pa (s : State) (o : Operand) (x : W32) : (s.wrS o x).cw.pa = s.cw.pa := by cases o <;> rfl
@[simp] theorem wr64_pa (s : State) (o : Operand) (x : W64) : (s.wr64 o x).cw.pa = s.cw.pa := by cases o <;> rfl
@[simp] theorem wrFlags_pa (s : State) (o : Operand) (ls : List Nat) (g : Nat → Bool) : (s.wrFlags o ls g).cw.pa = s.cw.pa := by
  cases o <;> rfl

theorem foldl_wave {α β : Type} (p : Wave → β) (g : Wave → α → Wave) (h : ∀ w a, p (g w a) = p w) (l : List α) (w : Wave) :
    p (l.foldl g w) = p w := by
  induction l generalizing w with
  | nil => rfl
  | cons a t ih => simp [ih, h]

@[simp] theorem wrLanes_pa (s : State) (o : Operand) (ls : List Nat) (g : Nat → W32) : (s.wrLanes o ls g).cw.pa = s.cw.pa := by
  cases o
  case v i => unfold State.wrLanes State.onWave; refine foldl_wave Wave.pa _ (fun _ _ => ?_) _ _; rfl
  all_goals rfl
@[simp] theorem wrLanes64_pa (s : State) (o : Operand) (ls : List Nat) (g : Nat → W64) : (s.wrLanes64 o ls g).cw.pa = s.cw.pa := by
  cases o
  case v i => unfold State.wrLanes64 State.onWave; refine foldl_wave Wave.pa _ (fun _ _ => ?_) _ _; rfl
  all_goals rfl

/-- A slot whose effect leaves the path in focus as it was completes with that effect. -/
theorem completes_of_pa (s t : State) (h : t.cw.pa = s.cw.pa) : Completes s (.next t.slotDone) t :=
  completes_slotDone s t (by rw [h])

end Sys2Proof.Machine
end

