-- ==== Sys2Proof/Laws/Memory.lean ====
section
/-! SUPPORT. The canonical form of the memories, and that every operation on them keeps it (20 R418; log 1). -/

namespace Sys2Proof.Machine

open Sys2Proof (Operand W32 Byte SMap SMap.get? SMap.set SMap.del SMap.modify SMap.wf)

/-! ## Finite maps -/

theorem wf_iff {α : Type} (m : SMap α) : SMap.wf m = true ↔ (m.map Prod.fst).Pairwise (· < ·) := by
  induction m with
  | nil => simp [SMap.wf]
  | cons x t ih =>
    cases t with
    | nil => simp [SMap.wf]
    | cons y t =>
      simp only [SMap.wf, Bool.and_eq_true, decide_eq_true_eq, ih, List.map_cons, List.pairwise_cons]
      constructor
      · rintro ⟨h, h1, h2⟩
        exact ⟨fun k hk => by
          simp only [List.mem_cons] at hk
          exact hk.elim (fun e => e ▸ h) fun hk => Nat.lt_trans h (h1 k hk), h1, h2⟩
      · rintro ⟨h, h1, h2⟩
        exact ⟨h _ (by simp), h1, h2⟩

theorem mem_set {α : Type} {m : SMap α} {k : Nat} {v : α} {x : Nat × α} (h : x ∈ SMap.set m k v) : x = (k, v) ∨ x ∈ m := by
  induction m with
  | nil => simp only [SMap.set, List.mem_singleton] at h; exact .inl h
  | cons y t ih =>
    obtain ⟨a, b⟩ := y
    simp only [SMap.set] at h
    split at h
    · simpa using h
    · split at h
      · simp only [List.mem_cons] at h ⊢
        exact h.imp_right .inr
      · simp only [List.mem_cons] at h ⊢
        rcases h with h | h
        · exact .inr (.inl h)
        · exact (ih h).imp_right .inr

/-- Writing keeps the keys rising. -/
theorem wf_set {α : Type} {m : SMap α} (k : Nat) (v : α) (h : SMap.wf m = true) : SMap.wf (SMap.set m k v) = true := by
  induction m with
  | nil => rfl
  | cons y t ih =>
    obtain ⟨a, b⟩ := y
    have h' := (wf_iff _).1 h
    simp only [List.map_cons, List.pairwise_cons] at h'
    simp only [SMap.set]
    split
    · next hk => rw [wf_iff]; simp only [List.map_cons, List.pairwise_cons, List.mem_cons]
                 exact ⟨fun j hj => hj.elim (fun e => e ▸ hk) fun hj => Nat.lt_trans hk (h'.1 j hj), h'.1, h'.2⟩
    · split
      · next e => subst e; rw [wf_iff]; simpa using h'
      · next hk hne =>
        have ht := ih ((wf_iff t).2 h'.2)
        rw [wf_iff] at ht ⊢
        simp only [List.map_cons, List.pairwise_cons]
        refine ⟨fun j hj => ?_, ht⟩
        simp only [List.mem_map] at hj
        obtain ⟨x, hx, rfl⟩ := hj
        rcases mem_set hx with rfl | hx
        · exact Nat.lt_of_le_of_ne (Nat.le_of_not_lt hk) (Ne.symm hne)
        · exact h'.1 _ (List.mem_map_of_mem hx)

/-- Listing less keeps the keys rising. -/
theorem wf_sublist {α : Type} {m n : SMap α} (h : List.Sublist m n) (hn : SMap.wf n = true) : SMap.wf m = true := by
  rw [wf_iff] at hn ⊢
  exact hn.sublist (h.map _)

theorem del_eq_filter {α : Type} (m : SMap α) (k : Nat) : SMap.del m k = m.filter fun x => x.1 ≠ k := by
  induction m with
  | nil => rfl
  | cons y t ih =>
    obtain ⟨a, b⟩ := y
    simp only [SMap.del, ih, List.filter_cons]
    by_cases h : k = a <;> simp [h, eq_comm]

theorem wf_filter {α : Type} {m : SMap α} (p : Nat × α → Bool) (h : SMap.wf m = true) : SMap.wf (m.filter p) = true :=
  wf_sublist List.filter_sublist h

theorem wf_del {α : Type} {m : SMap α} (k : Nat) (h : SMap.wf m = true) : SMap.wf (SMap.del m k) = true := by
  rw [del_eq_filter]; exact wf_filter _ h

theorem wf_modify {α : Type} {m : SMap α} (k : Nat) (f : α → α) (h : SMap.wf m = true) : SMap.wf (SMap.modify m k f) = true := by
  have e : ∀ m : SMap α, (SMap.modify m k f).map Prod.fst = m.map Prod.fst := by
    intro m
    induction m with
    | nil => rfl
    | cons y t ih => obtain ⟨a, b⟩ := y; simp only [SMap.modify]; split <;> simp [ih]
  rw [wf_iff] at h ⊢
  rw [e]; exact h

theorem ite_holds {β : Type} {P : β → Prop} {c : Prop} [Decidable c] {a b : β} (ha : P a) (hb : P b) : P (if c then a else b) := by
  split <;> assumption

/-- A fold of operations that keep a property keeps it. -/
theorem foldl_inv {α β : Type} (P : β → Prop) (g : β → α → β) (h : ∀ b a, P b → P (g b a)) (l : List α) (b : β) (hb : P b) :
    P (l.foldl g b) := by
  induction l generalizing b with
  | nil => exact hb
  | cons a t ih => exact ih _ (h b a hb)

/-! ## Byte memories -/

theorem wf_localWrite {m : SMap Byte} (key n x mask : Nat) (h : SMap.wf m = true) : SMap.wf (localWrite m key n x mask) = true :=
  foldl_inv (fun m => SMap.wf m = true) _ (fun _ _ hm => ite_holds (P := fun m : SMap Byte => SMap.wf m = true) (wf_set _ _ hm) hm) _ _ h

theorem wf_dropKeys {α : Type} {m : SMap α} (unit block : Nat) (h : SMap.wf m = true) : SMap.wf (dropKeys m unit block) = true :=
  wf_filter _ h

theorem wf_moveKeys {α : Type} {m : SMap α} (unit block : Nat) (moves : List (Nat × Nat)) (n : Nat) (get : Nat → Option α)
    (h : SMap.wf m = true) : SMap.wf (moveKeys m unit block moves n get) = true :=
  foldl_inv (fun m => SMap.wf m = true) _ (fun _ _ hm => wf_set _ _ hm) _ _ (wf_dropKeys _ _ h)

theorem memory_wf_iff (m : SMap Byte) : Memory.wf m = true ↔ SMap.wf m = true ∧ ∀ x ∈ m, x.2 ≠ 0 := by
  simp [Memory.wf]

/-- A write of a byte of HBM keeps the canonical form: a zero byte is listed no more. -/
theorem wf_hbmPut {m : SMap Byte} (a : Nat) (b : Byte) (h : Memory.wf m = true) : Memory.wf (hbmPut m a b) = true := by
  rw [memory_wf_iff] at h ⊢
  unfold hbmPut
  split
  · refine ⟨wf_del _ h.1, fun x hx => ?_⟩
    rw [del_eq_filter] at hx
    exact h.2 x (List.mem_filter.1 hx).1
  · next hb =>
    exact ⟨wf_set _ _ h.1, fun x hx => (mem_set hx).elim (fun e => e ▸ hb) (h.2 x)⟩

theorem wf_hbmPuts {m : SMap Byte} (n : Nat) (at_ : Nat → Nat) (b : Nat → Byte) (h : Memory.wf m = true) :
    Memory.wf ((List.range n).foldl (fun m i => hbmPut m (at_ i) (b i)) m) = true :=
  foldl_inv (fun m => Memory.wf m = true) _ (fun _ _ hm => wf_hbmPut _ _ hm) _ _ h

/-- The byte written is the byte read. -/
theorem hbmByte_hbmPut_self (m : SMap Byte) (a : Nat) (b : Byte) : hbmByte (hbmPut m a b) a = b := by
  unfold hbmByte hbmPut
  split
  · next h => subst h; simp [SMap.getD, get?_del_self]
  · simp [getD_set_self]

/-- Every other byte keeps its value. -/
theorem hbmByte_hbmPut_ne (m : SMap Byte) {a c : Nat} (b : Byte) (h : c ≠ a) : hbmByte (hbmPut m a b) c = hbmByte m c := by
  unfold hbmByte hbmPut
  split
  · simp [SMap.getD, get?_del_ne m h]
  · simp [getD_set_ne _ _ _ h]

theorem undefByte_set_self (seed : Nat) (m : SMap Byte) (a : Nat) (b : Byte) : undefByte seed (SMap.set m a b) a = b := by
  simp [undefByte, get?_set_self]

theorem undefByte_set_ne (seed : Nat) (m : SMap Byte) {a c : Nat} (b : Byte) (h : c ≠ a) :
    undefByte seed (SMap.set m a b) c = undefByte seed m c := by simp [undefByte, get?_set_ne m b h]

/-- A local write leaves every byte outside its `n` alone. -/
theorem undefByte_localWrite_out (seed : Nat) (m : SMap Byte) (key n x mask c : Nat) (h : c < key ∨ key + n ≤ c) :
    undefByte seed (localWrite m key n x mask) c = undefByte seed m c := by
  unfold localWrite
  have : ∀ (l : List Nat) (m : SMap Byte), (∀ i ∈ l, i < n) → undefByte seed (l.foldl (fun m i =>
      if bit mask i then SMap.set m (key + i) (BitVec.ofNat 8 (x / 256 ^ i)) else m) m) c = undefByte seed m c := by
    intro l
    induction l with
    | nil => intros; rfl
    | cons i t ih =>
      intro m hl
      rw [List.foldl_cons, ih _ fun j hj => hl j (List.mem_cons_of_mem _ hj)]
      have hi := hl i List.mem_cons_self
      split
      · exact undefByte_set_ne _ _ _ (by omega)
      · rfl
  exact this _ _ fun i hi => by simpa using hi

/-! ## The memories of the machine -/

/-- The memories of two states agree. -/
def SameMem (s t : State) : Prop :=
  t.hbm = s.hbm ∧ t.host = s.host ∧ t.pool = s.pool ∧ t.peers = s.peers ∧ t.spd = s.spd ∧ t.gran = s.gran ∧ t.tiles = s.tiles ∧
  t.accm = s.accm ∧ t.banks = s.banks ∧ t.acts = s.acts ∧ t.mbdata = s.mbdata

theorem SameMem.refl (s : State) : SameMem s s := ⟨rfl, rfl, rfl, rfl, rfl, rfl, rfl, rfl, rfl, rfl, rfl⟩

theorem SameMem.trans {s t u : State} (h : SameMem s t) (k : SameMem t u) : SameMem s u := by
  obtain ⟨a, b, c, d, e, f, g, i, j, l, m⟩ := h
  obtain ⟨a', b', c', d', e', f', g', i', j', l', m'⟩ := k
  exact ⟨a'.trans a, b'.trans b, c'.trans c, d'.trans d, e'.trans e, f'.trans f, g'.trans g, i'.trans i, j'.trans j, l'.trans l,
    m'.trans m⟩

theorem SameMem.wf {s t : State} (h : SameMem s t) (hs : s.memWf = true) : t.memWf = true := by
  obtain ⟨a, b, c, d, e, f, g, i, j, l, m⟩ := h
  simpa [State.memWf, a, b, c, d, e, f, g, i, j, l, m] using hs

/-- The canonical form, memory by memory. -/
theorem memWf_iff (s : State) : s.memWf = true ↔
    Memory.wf s.hbm = true ∧ SMap.wf s.host = true ∧ SMap.wf s.pool = true ∧ SMap.wf s.peers = true ∧ SMap.wf s.spd = true ∧
      SMap.wf s.gran = true ∧ SMap.wf s.tiles = true ∧ SMap.wf s.accm = true ∧ SMap.wf s.banks = true ∧ SMap.wf s.acts = true ∧
      SMap.wf s.mbdata = true := by
  simp [State.memWf, and_assoc]

/-- The reset memories have the canonical form. -/
theorem reset_memWf : State.reset.memWf = true := rfl

theorem memWf_hbm {s : State} {m : SMap Byte} (h : s.memWf = true) (hm : Memory.wf s.hbm = true → Memory.wf m = true) :
    ({ s with hbm := m }).memWf = true := by
  rw [memWf_iff] at h ⊢; simp only [h, hm, and_self]
theorem memWf_host {s : State} {m : SMap Byte} (h : s.memWf = true) (hm : SMap.wf s.host = true → SMap.wf m = true) :
    ({ s with host := m }).memWf = true := by
  rw [memWf_iff] at h ⊢; simp only [h, hm, and_self]
theorem memWf_pool {s : State} {m : SMap Byte} (h : s.memWf = true) (hm : SMap.wf s.pool = true → SMap.wf m = true) :
    ({ s with pool := m }).memWf = true := by
  rw [memWf_iff] at h ⊢; simp only [h, hm, and_self]
theorem memWf_peers {s : State} {m : SMap Byte} (h : s.memWf = true) (hm : SMap.wf s.peers = true → SMap.wf m = true) :
    ({ s with peers := m }).memWf = true := by
  rw [memWf_iff] at h ⊢; simp only [h, hm, and_self]
theorem memWf_spd {s : State} {m : SMap Byte} (h : s.memWf = true) (hm : SMap.wf s.spd = true → SMap.wf m = true) :
    ({ s with spd := m }).memWf = true := by
  rw [memWf_iff] at h ⊢; simp only [h, hm, and_self]
theorem memWf_gran {s : State} {m : SMap Byte} (h : s.memWf = true) (hm : SMap.wf s.gran = true → SMap.wf m = true) :
    ({ s with gran := m }).memWf = true := by
  rw [memWf_iff] at h ⊢; simp only [h, hm, and_self]
theorem memWf_tiles {s : State} {m : SMap Byte} (h : s.memWf = true) (hm : SMap.wf s.tiles = true → SMap.wf m = true) :
    ({ s with tiles := m }).memWf = true := by
  rw [memWf_iff] at h ⊢; simp only [h, hm, and_self]
theorem memWf_accm {s : State} {m : SMap W32} (h : s.memWf = true) (hm : SMap.wf s.accm = true → SMap.wf m = true) :
    ({ s with accm := m }).memWf = true := by
  rw [memWf_iff] at h ⊢; simp only [h, hm, and_self]
theorem memWf_banks {s : State} {m : SMap W32} (h : s.memWf = true) (hm : SMap.wf s.banks = true → SMap.wf m = true) :
    ({ s with banks := m }).memWf = true := by
  rw [memWf_iff] at h ⊢; simp only [h, hm, and_self]
theorem memWf_acts {s : State} {m : SMap W32} (h : s.memWf = true) (hm : SMap.wf s.acts = true → SMap.wf m = true) :
    ({ s with acts := m }).memWf = true := by
  rw [memWf_iff] at h ⊢; simp only [h, hm, and_self]
theorem memWf_mbdata {s : State} {m : SMap Byte} (h : s.memWf = true) (hm : SMap.wf s.mbdata = true → SMap.wf m = true) :
    ({ s with mbdata := m }).memWf = true := by
  rw [memWf_iff] at h ⊢; simp only [h, hm, and_self]

/-! ## The operations -/

theorem homePut_memWf {s : State} (isHost : Bool) (pa : Nat) (b : Byte) (h : s.memWf = true) :
    (s.homePut isHost pa b).memWf = true := by
  unfold State.homePut
  split
  · exact memWf_host h (wf_set _ _)
  · exact memWf_hbm h (wf_hbmPut _ _)

theorem homeSet_memWf {s : State} (hm : Home) (i : Nat) (b : Byte) (h : s.memWf = true) : (s.homeSet hm i b).memWf = true := by
  unfold State.homeSet
  split
  · exact memWf_hbm h (wf_hbmPut _ _)
  · exact memWf_host h (wf_set _ _)
  · exact memWf_pool h (wf_set _ _)

theorem homeMerge_memWf {s : State} (hm : Home) (d : BitVec 1024) (m : BitVec 128) (h : s.memWf = true) :
    (s.homeMerge hm d m).memWf = true := by
  unfold State.homeMerge
  dsimp only
  refine foldl_inv (fun s : State => s.memWf = true) _
    (fun s i hs => ite_holds (P := fun s : State => s.memWf = true) (homeSet_memWf hm i (byteOf d i) hs) hs) _ _ ?_
  exact ite_holds (P := fun s : State => s.memWf = true) h h

theorem spdWrite_memWf {s : State} (key n x mask : Nat) (h : s.memWf = true) :
    ({ s with spd := localWrite s.spd key n x mask }).memWf = true := memWf_spd h (wf_localWrite _ _ _ _)

theorem modWave_sameMem (s : State) (uid : Nat) (f : Wave → Wave) : SameMem s (s.modWave uid f) := by
  unfold State.modWave; split <;> exact SameMem.refl s

theorem focus_sameMem (s : State) (uid : Nat) (second : Bool) : SameMem s (s.focus uid second) := by
  unfold State.focus; repeat' split
  all_goals exact SameMem.refl s

/-- A fold of operations that leave the memories alone leaves them alone. -/
theorem foldl_sameMem {α : Type} (g : State → α → State) (h : ∀ s a, SameMem s (g s a)) (l : List α) (s : State) :
    SameMem s (l.foldl g s) := foldl_inv (SameMem s) g (fun b a hb => hb.trans (h b a)) l s (SameMem.refl s)

theorem refillOf_sameMem (s : State) (w : Wave) : SameMem s (s.refillOf w) := by
  unfold State.refillOf
  refine ite_holds (P := SameMem s) ?_ (SameMem.refl s)
  unfold State.refill
  refine foldl_sameMem _ (fun s _ => ?_) _ _
  unfold State.refillOne
  refine ite_holds (P := SameMem s) (SameMem.refl s) ?_
  dsimp only
  split
  · exact SameMem.refl s
  · exact (foldl_sameMem _ (fun s a => modWave_sameMem _ _ _) _ _).trans (modWave_sameMem _ _ _)

/-- A path that becomes ready leaves the memories alone. -/
theorem makeReady_sameMem (s : State) (uid : Nat) (second : Bool) : SameMem s (s.makeReady uid second) := by
  unfold State.makeReady
  dsimp only
  have h (f : PathSt → PathSt) : SameMem s (((s.updPath uid second f).focus uid second).readyNow.focus s.cw.uid s.cw.second) :=
    (modWave_sameMem s uid _).trans ((focus_sameMem _ uid second).trans
      (focus_sameMem (State.readyNow ((s.updPath uid second f).focus uid second)) s.cw.uid s.cw.second))
  split
  · exact (h _).trans (refillOf_sameMem _ _)
  · exact h _

theorem raceSpd_sameMem (s : State) (key n : Nat) (kept : AOp → Bool) : SameMem s (s.raceSpd key n kept) := by
  unfold State.raceSpd
  split <;> exact SameMem.refl s

theorem setBarr_memWf {s : State} (key : Nat) (b : Barr) (h : s.memWf = true) : (s.setBarr key b).memWf = true := by
  unfold State.setBarr
  dsimp only
  exact (foldl_sameMem (fun (s : State) (x : Nat × Bool) => s.makeReady x.1 x.2) (fun s x => makeReady_sameMem s x.1 x.2)
    (s.barxWaiters key b.phase) _).wf (memWf_spd ((raceSpd_sameMem s key 16 _).wf h)
      fun _ => wf_localWrite key 16 b.image (2 ^ 16 - 1) ((memWf_iff s).mp h).2.2.2.2.1)

theorem tilePut_memWf {s : State} (key pos n x : Nat) (h : s.memWf = true) : (s.tilePut key pos n x).memWf = true :=
  memWf_tiles h fun hm => foldl_inv (fun m => SMap.wf m = true) _ (fun _ _ hm => wf_set _ _ hm) _ _ hm

theorem tileFill_memWf {s : State} (key : Nat) (f : Nat → Byte) (h : s.memWf = true) : (s.tileFill key f).memWf = true := by
  have := memWf_tiles h fun hm => foldl_inv (fun m => SMap.wf m = true) (fun m i => SMap.set m (key * 4096 + i) (f i))
    (fun _ _ hm => wf_set _ _ hm) (List.range 4096) _ hm
  exact this

theorem dropStorage_memWf {s : State} (b : Nat) (h : s.memWf = true) : (s.dropStorage b).memWf = true := by
  rw [memWf_iff] at h ⊢
  simp only [State.dropStorage, h, wf_dropKeys, and_self]

theorem moveStorage_memWf {s : State} (b : Nat) (r : LRec) (moves : List (Nat × Nat)) (h : s.memWf = true) :
    (s.moveStorage b r moves).memWf = true := by
  unfold State.moveStorage
  dsimp only
  refine ite_holds (P := fun s : State => s.memWf = true) h ?_
  rw [memWf_iff] at h ⊢
  dsimp only
  simp only [h, wf_moveKeys, and_self]

end Sys2Proof.Machine
end

