-- ==== Sys2Proof/Laws/Cache.lean ====
section
/-! SUPPORT. What the memory system may do when it fills, writes back, releases or acquires (09 R218-R220): it changes the home
memories byte by byte, its own copies, grants and filters, and the counters and the log; nothing else of the state. -/

namespace Sys2Proof.Machine

open Sys2Proof (Operand W32 Byte SMap SMap.get? SMap.set)

/-- A property of states that every elementary act of the memory system keeps. -/
structure CacheKeeps (P : State → Prop) : Prop where
  sectors : ∀ (s : State) x, P s → P { s with sectors := x }
  grants : ∀ (s : State) x, P s → P { s with grants := x }
  bar : ∀ (s : State) x, P s → P { s with bar := x }
  filters : ∀ (s : State) x, P s → P { s with filters := x }
  tlb : ∀ (s : State) x, P s → P { s with tlb := x }
  evlog : ∀ (s : State) x, P s → P { s with evlog := x }
  badWords : ∀ (s : State) x, P s → P { s with badWords := x }
  home : ∀ (s : State) h i b, P s → P (s.homeSet h i b)

namespace CacheKeeps

variable {P : State → Prop} (k : CacheKeeps P) {s : State}

include k

theorem countAt (base cnt src part n : Nat) (h : P s) : P (s.countAt base cnt src part n) :=
  foldl_inv P _ (fun s _ hs => ite_holds (k.bar s _ hs) hs) _ _ h

theorem countCore (core src part n : Nat) (h : P s) : P (s.countCore core src part n) :=
  ite_holds h (k.countAt _ _ _ _ _ h)

theorem countDie (die src n : Nat) (h : P s) : P (s.countDie die src n) := ite_holds h (k.countAt _ _ _ _ _ h)

theorem countFab (die a : Nat) (h : P s) : P (s.countFab die a) := k.countDie _ _ _ (k.countDie _ _ _ h)

theorem countHome (die src : Nat) (hm : Home) (h : P s) : P (s.countHome die src hm) :=
  ite_holds (k.countDie _ _ _ h) (ite_holds (k.countFab _ _ h) h)

theorem homeMerge (hm : Home) (d : BitVec 1024) (m : BitVec 128) (h : P s) : P (s.homeMerge hm d m) := by
  unfold State.homeMerge
  dsimp only
  exact foldl_inv P _ (fun s i hs => ite_holds (k.home s hm i _ hs) hs) _ _ (ite_holds (k.badWords s _ h) h)

theorem dropSect (owner : Nat) (hm : Home) (h : P s) : P (s.dropSect owner hm) := k.sectors s _ h
theorem mapSect (owner : Nat) (hm : Home) (f : Sector → Sector) (h : P s) : P (s.mapSect owner hm f) := k.sectors s _ h
theorem addSect (owner launch : Nat) (hm : Home) (d : BitVec 1024) (own : Bool) (h : P s) : P (s.addSect owner launch hm d own) := k.sectors s _ h

theorem l2Home (die : Nat) (hm : Home) (h : P s) : P (s.l2Home die hm) := by
  unfold State.l2Home
  split
  · exact h
  · exact ite_holds h (k.mapSect _ _ _ (k.homeMerge _ _ _ (k.countHome _ _ _ h)))

theorem recallSect (hm : Home) (h : P s) : P (s.recall hm) := by
  unfold State.recall
  split
  · exact h
  · exact k.grants _ _ (k.dropSect _ _ (k.l2Home _ _ h))

theorem recallFor (die : Nat) (hm : Home) (h : P s) : P (s.recallFor die hm) := ite_holds h (k.recallSect _ h)

theorem dropCopy (x : Sector) (h : P s) : P (s.dropCopy x) := k.dropSect _ _ h

theorem dropDirty (x : Sector) (h : P s) : P (s.dropDirty x) := k.mapSect _ _ _ (k.evlog _ _ h)

theorem outL2 (x : Sector) (h : P s) : P (s.outL2 x) := by
  unfold State.outL2
  dsimp only
  refine ite_holds h ?_
  split
  · exact k.dropDirty x h
  · exact ite_holds (k.l2Home _ _ h) (k.l2Home _ _ (k.recallSect _ h))

theorem roomL2 (die : Nat) (hm : Home) (h : P s) : P (s.roomL2 die hm) := by
  unfold State.roomL2
  split
  · exact h
  · exact foldl_inv P _ (fun _ x hs => k.dropCopy x (k.outL2 x hs)) _ _ h

theorem fillL2 (die launch : Nat) (hm : Home) (quiet : Bool) (h : P s) : P (s.fillL2 die launch hm quiet) := by
  unfold State.fillL2
  split
  · exact ite_holds h (k.countDie _ _ _ h)
  · have h1 := k.countDie die 2 1 (k.recallFor die hm h)
    exact k.addSect _ _ _ _ _ (k.roomL2 _ _ (k.countHome _ _ _ h1))

theorem takeGrant (die : Nat) (hm : Home) (h : P s) : P (s.takeGrant die hm) :=
  ite_holds h (k.grants _ _ (k.dropSect _ _ (k.l2Home _ _ (k.recallSect _ h))))

theorem l1ToL2 (core : Nat) (hm : Home) (h : P s) : P (s.l1ToL2 core hm) := by
  unfold State.l1ToL2
  split
  · exact h
  · exact ite_holds h (k.mapSect _ _ _ (k.mapSect _ _ _ (k.fillL2 _ _ _ _ h)))

theorem outL1 (x : Sector) (h : P s) : P (s.outL1 x) := by
  unfold State.outL1
  refine ite_holds h ?_
  split
  · exact k.dropDirty x h
  · exact k.l1ToL2 _ _ h

theorem roomL1 (core : Nat) (hm : Home) (h : P s) : P (s.roomL1 core hm) := by
  unfold State.roomL1
  split
  · exact h
  · exact foldl_inv P _ (fun _ x hs => k.dropCopy x (k.outL1 x hs)) _ _ h

theorem bring (q : Asker) (hm : Home) (p : Pt) (h : P s) : P (s.bring q hm p) := by
  unfold State.bring
  cases p <;> dsimp only
  · split
    · exact ite_holds h (k.countCore _ _ _ _ h)
    · have h1 := k.fillL2 (Config.dieOf q.core) q.launch hm (q.shares hm)
        (ite_holds (c := q.shares hm = true) h (k.countCore q.core 6 8 1 h))
      refine ite_holds h1 ?_
      split
      · exact k.addSect _ _ _ _ _ (k.roomL1 _ _ h1)
      · exact h1
  · exact k.fillL2 _ _ _ _ (k.l1ToL2 _ _ h)
  · exact k.fillL2 _ _ _ _ (k.takeGrant _ _ (k.l1ToL2 _ _ h))
  · have h1 := k.l2Home (Config.dieOf q.core) hm (k.recallSect hm (k.l1ToL2 q.core hm h))
    exact ite_holds (k.countFab _ _ h1) h1

theorem putAt (q : Asker) (hm : Home) (p : Pt) (d : BitVec 1024) (m : BitVec 128) (h : P s) : P (s.putAt q hm p d m) := by
  unfold State.putAt
  cases p <;> dsimp only
  · exact ite_holds (k.mapSect _ _ _ h) (k.mapSect _ _ _ h)
  · exact k.mapSect _ _ _ (k.mapSect _ _ _ h)
  · exact k.mapSect _ _ _ (k.mapSect _ _ _ h)
  · exact k.mapSect _ _ _ (k.mapSect _ _ _ (k.homeMerge _ _ _ h))

theorem dropFront (q : Asker) (hm : Home) (p : Pt) (h : P s) : P (s.dropFront q hm p) :=
  ite_holds (k.dropSect _ _ (k.dropSect _ _ h)) (k.dropSect _ _ h)

theorem writeBack (x : Sector) (drop : Bool) (h : P s) : P (s.writeBack x drop) := by
  have h1 : P (if x.owner < 448 then s.outL1 x else s.outL2 x) := ite_holds (k.outL1 x h) (k.outL2 x h)
  exact ite_holds (k.dropCopy x h1) h1

theorem writeBacks (l : List Sector) (drop : Bool) (h : P s) : P (l.foldl (fun (s : State) x => s.writeBack x drop) s) :=
  foldl_inv P _ (fun _ x hs => k.writeBack x drop hs) _ _ h

theorem writeBackAll (drop : Bool) (sel : Sector → Bool) (h : P s) : P (s.writeBackAll drop sel) :=
  k.writeBacks _ _ (k.writeBacks _ _ h)

theorem releaseAt (core launch scope : Nat) (multi : Bool) (h : P s) : P (s.releaseAt core launch scope multi) :=
  k.writeBacks _ _ (k.writeBacks _ _ (k.writeBacks _ _ h))

theorem acquireAt (core launch scope : Nat) (multi : Bool) (h : P s) : P (s.acquireAt core launch scope multi) :=
  k.writeBacks _ _ (k.writeBacks _ _ h)

theorem enterFilter (die : Nat) (e : FilterEnt) (h : P s) : P (s.enterFilter die e) := by
  unfold State.enterFilter
  dsimp only
  refine ite_holds h (ite_holds (k.filters _ _ h) ?_)
  split
  · exact h
  · exact k.filters _ _ (k.countDie _ _ _ (k.writeBackAll _ _ h))

theorem tlbFill (die asid va : Nat) (h : P s) : P (s.tlbFill die asid va) := by
  unfold State.tlbFill
  repeat' split
  all_goals first | exact h | exact k.tlb _ _ h

theorem countHbm (src a n : Nat) (h : P s) : P (s.countHbm src a n) :=
  ite_holds h (foldl_inv P _ (fun _ _ hs => k.countDie _ _ _ hs) _ _ h)

theorem countWalk1 (die asid va : Nat) (h : P s) : P (s.countWalk1 die asid va) :=
  foldl_inv P _ (fun _ _ hs => k.countHbm _ _ _ hs) _ _ (k.countDie _ _ _ h)

theorem countWalk (die asid va : Nat) (h : P s) : P (s.countWalk die asid va) := by
  unfold State.countWalk
  refine ite_holds h ?_
  split
  · exact k.countWalk1 _ _ _ (k.countWalk1 _ _ _ h)
  · exact k.countWalk1 _ _ _ h

theorem countFault (die asid va code : Nat) (h : P s) : P (s.countFault die asid va code) := ite_holds (k.countWalk _ _ _ h) h

theorem noteFetch (off : Nat) (first : Bool) (h : P s) : P (s.noteFetch off first) := by
  have h1 := k.tlbFill (Config.dieOf s.cw.core) s.lrec.asid ((s.lrec.codebase + off) % 2 ^ 56)
    (k.countWalk (Config.dieOf s.cw.core) s.lrec.asid ((s.lrec.codebase + off) % 2 ^ 56) h)
  unfold State.noteFetch
  dsimp only
  split
  · exact ite_holds h1 (k.countHbm _ _ _ h1)
  · exact h1

theorem noteFetchFault (r : TrapRec) (h : P s) : P (s.noteFetchFault r) := ite_holds (k.countFault _ _ _ _ h) h

end CacheKeeps

/-- The acts of the memory system keep the canonical form of the memories. -/
theorem cacheKeeps_memWf : CacheKeeps fun s : State => s.memWf = true where
  sectors _ _ h := h
  grants _ _ h := h
  bar _ _ h := h
  filters _ _ h := h
  tlb _ _ h := h
  evlog _ _ h := h
  badWords _ _ h := h
  home _ hm i b h := homeSet_memWf hm i b h

/-- The state but for the home memories, the memory system's copies and tables, the plain registers and the log. -/
def State.ctl (s : State) : State :=
  { s with hbm := [], host := [], undef := [], pool := [], bar := [], badWords := [], sectors := [], grants := [], tlb := [], filters := [], evlog := [] }

theorem homeSet_ctl (s : State) (h : Home) (i : Nat) (b : Byte) : (s.homeSet h i b).ctl = s.ctl := by
  unfold State.homeSet; split <;> rfl

/-- The acts of the memory system change nothing else. -/
theorem cacheKeeps_ctl (c : State) : CacheKeeps fun s : State => s.ctl = c where
  sectors _ _ h := h
  grants _ _ h := h
  bar _ _ h := h
  filters _ _ h := h
  tlb _ _ h := h
  evlog _ _ h := h
  badWords _ _ h := h
  home s hm i b h := (homeSet_ctl s hm i b).trans h

theorem ctl_cw {s t : State} (h : t.ctl = s.ctl) : t.cw = s.cw := by have e := congrArg State.cw h; exact e
theorem ctl_waves {s t : State} (h : t.ctl = s.ctl) : t.waves = s.waves := by have e := congrArg State.waves h; exact e
theorem ctl_blocks {s t : State} (h : t.ctl = s.ctl) : t.blocks = s.blocks := by have e := congrArg State.blocks h; exact e
theorem ctl_launches {s t : State} (h : t.ctl = s.ctl) : t.launches = s.launches := by have e := congrArg State.launches h; exact e
theorem ctl_spd {s t : State} (h : t.ctl = s.ctl) : t.spd = s.spd := by have e := congrArg State.spd h; exact e
theorem ctl_accs {s t : State} (h : t.ctl = s.ctl) : t.accs = s.accs := by have e := congrArg State.accs h; exact e
theorem ctl_ops {s t : State} (h : t.ctl = s.ctl) : t.ops = s.ops := by have e := congrArg State.ops h; exact e

/-- A release and an acquire leave the waves, the launches, the blocks, the local memories and all that is outstanding alone. -/
theorem releaseAt_ctl (s : State) (core launch scope : Nat) (multi : Bool) : (s.releaseAt core launch scope multi).ctl = s.ctl :=
  (cacheKeeps_ctl s.ctl).releaseAt _ _ _ _ rfl
theorem acquireAt_ctl (s : State) (core launch scope : Nat) (multi : Bool) : (s.acquireAt core launch scope multi).ctl = s.ctl :=
  (cacheKeeps_ctl s.ctl).acquireAt _ _ _ _ rfl
theorem writeBack_ctl (s : State) (x : Sector) (drop : Bool) : (s.writeBack x drop).ctl = s.ctl :=
  (cacheKeeps_ctl s.ctl).writeBack _ _ rfl
theorem countCore_ctl (s : State) (core src part n : Nat) : (s.countCore core src part n).ctl = s.ctl :=
  (cacheKeeps_ctl s.ctl).countCore _ _ _ _ rfl
theorem tlbFill_ctl (s : State) (die asid va : Nat) : (s.tlbFill die asid va).ctl = s.ctl := (cacheKeeps_ctl s.ctl).tlbFill _ _ _ rfl
theorem noteFetch_ctl (s : State) (off : Nat) (first : Bool) : (s.noteFetch off first).ctl = s.ctl :=
  (cacheKeeps_ctl s.ctl).noteFetch _ _ rfl
theorem noteFetchFault_ctl (s : State) (r : TrapRec) : (s.noteFetchFault r).ctl = s.ctl := (cacheKeeps_ctl s.ctl).noteFetchFault _ rfl

@[simp] theorem releaseAt_cw (s : State) (core launch scope : Nat) (multi : Bool) : (s.releaseAt core launch scope multi).cw = s.cw :=
  ctl_cw (releaseAt_ctl s core launch scope multi)
@[simp] theorem acquireAt_cw (s : State) (core launch scope : Nat) (multi : Bool) : (s.acquireAt core launch scope multi).cw = s.cw :=
  ctl_cw (acquireAt_ctl s core launch scope multi)
@[simp] theorem releaseAt_blocks (s : State) (core launch scope : Nat) (multi : Bool) :
    (s.releaseAt core launch scope multi).blocks = s.blocks := ctl_blocks (releaseAt_ctl s core launch scope multi)
@[simp] theorem acquireAt_blocks (s : State) (core launch scope : Nat) (multi : Bool) :
    (s.acquireAt core launch scope multi).blocks = s.blocks := ctl_blocks (acquireAt_ctl s core launch scope multi)
@[simp] theorem tlbFill_cw (s : State) (die asid va : Nat) : (s.tlbFill die asid va).cw = s.cw :=
  ctl_cw (tlbFill_ctl s die asid va)
@[simp] theorem noteFetch_cw (s : State) (off : Nat) (first : Bool) : (s.noteFetch off first).cw = s.cw :=
  ctl_cw (noteFetch_ctl s off first)
@[simp] theorem noteFetchFault_cw (s : State) (r : TrapRec) : (s.noteFetchFault r).cw = s.cw := ctl_cw (noteFetchFault_ctl s r)
@[simp] theorem countCore_cw (s : State) (core src part n : Nat) : (s.countCore core src part n).cw = s.cw :=
  ctl_cw (countCore_ctl s core src part n)

end Sys2Proof.Machine
end

