-- ==== Sys2Proof/Laws/Issue.lean ====
section
/-! SUPPORT. What the shared operations of issue do: an access without a record, an asynchronous operation, an engine operation, a
park, a branch, and the release of a path with nothing outstanding. -/

namespace Sys2Proof.Machine

open Sys2Proof (Instr Operand MF BF W32 SMap SMap.get? SMap.modify)

/-- Listing an access leaves the path where it is: it may note scratchpad words as stored unfenced (10 R245). -/
@[simp] theorem addAcc_after (s : State) (kind : AKind) (space scope order cache asid : Nat) (scalar : Bool) (dst : List (Cls × Nat))
    (extra : List (List W32)) (pieces : List Piece) :
    (s.addAcc kind space scope order cache asid scalar dst extra pieces).cw.pa.after = s.cw.pa.after := by
  unfold State.addAcc; dsimp only; split <;> rfl

/-- An instruction that answers `memAccess` is a plain access of its lanes (05 R111-R116). -/
theorem plainAccess_memAccess (s : State) (f : MF) (kind : AKind) (e : Nat) (ok : List Nat) (dst : List (Cls × Nat)) (data : Nat → Nat)
    (i : Instr) (h : exec i s = .next (s.memAccess f kind e ok dst data)) : PlainAccess s i f kind e ok dst data := by
  have hne : s.laneAddrs f e ≠ [] → (s.laneAddrs f e).isEmpty = false := fun h => by
    cases h5 : s.laneAddrs f e
    · exact absurd h5 h
    · rfl
  refine ⟨fun h1 => ?_, fun h1 => ⟨fun h2 => ?_, fun h2 => ⟨fun r h3 => ?_, fun h3 h4 => ?_⟩⟩⟩
  · have : exec i s = .next s.slotDone := by
      rw [h]; unfold State.memAccess; unfold State.laneAddrs at h1; simp only [h1]; rfl
    rw [this]; exact completes_of_pa s s rfl
  · have e1 := hne h1
    rw [h]; unfold State.memAccess; unfold State.laneAddrs at e1; dsimp only; rw [e1]; simp only [h2]; rfl
  · have e1 := hne h1
    unfold State.accessTrap at h3; unfold State.laneAddrs at e1 h3
    rw [h]; unfold State.memAccess; dsimp only; rw [e1, h2, h3]; rfl
  · have e1 := hne h1
    unfold State.accessTrap at h3; unfold State.laneAddrs at e1 h3
    have : exec i s = .next ((s.addAcc kind (if f.space.val = 1 then 0 else f.space.val) f.scope.val f.order.val f.cache.val
        s.lrec.asid (s.accessLanes f.data f.addr).1 dst [] (s.lanePieces f.space.val (s.laneAddrs f e) e data))).slotDone := by
      have h4 : (kind.loads && !s.granulesOk f.space.val (s.laneAddrs f e) e) = false := by rcases h4 with h | h <;> simp [h]
      unfold State.laneAddrs at h4
      rw [h]; unfold State.memAccess; dsimp only; rw [e1, h2, h3, h4]; rfl
    rw [this]; exact completes_slotDone s _ (addAcc_after _ _ _ _ _ _ _ _ _ _ _)

/-- Entering an engine operation with room for it lists it, whatever bytes of scratchpad are noted for it (12 R281). -/
theorem lists_engine (s : State) (i : Instr) (o : AOp) (x : List (Nat × Nat)) (he : o.kind.engine = true)
    (h : exec i s = .next (s.issueEngine { o with spans := x })) (h1 : s.outstanding s.cw.uid < 64) (h2 : s.engineRoom o.onCores = true) : Lists s i o := by
  unfold State.issueEngine at h
  rw [if_neg (by simp only [show AOp.onCores { o with spans := x } = o.onCores from rfl, h2]; simp; omega)] at h
  refine ⟨_, x, by rw [h]; exact completes_slotDone s _ rfl, ?_, ?_⟩
  · simp only [he]; rfl
  · simp [State.clearPresence, State.noteWritten, State.noteRaces, State.addOp, State.onWave, State.newId, AOp.bare, Function.comp_def, apply_ite, ite_self]

/-- Starting a copy with room for it lists it (05 R142). -/
theorem lists_copy (s : State) (i : Instr) (o : AOp) (he : o.kind.engine = false)
    (h : exec i s = .next (s.issueOp fun s => s.startCopy o))
    (h1 : s.outstanding s.cw.uid < 64) : Lists s i o := by
  unfold State.issueOp at h
  rw [if_neg (by omega)] at h
  unfold State.startCopy at h
  refine ⟨_, o.spans, by rw [h]; exact completes_slotDone s _ rfl, ?_, ?_⟩
  · rw [he]; rfl
  · simp [State.clearPresence, State.addOp, State.onWave, State.newId, AOp.bare, Function.comp_def, apply_ite, ite_self]

/-- An engine instruction takes its first failed check, or lists its operation. -/
theorem issues_engine (s : State) (i : Instr) (r : Option TrapRec) (o : AOp) (x : List (Nat × Nat)) (he : o.kind.engine = true)
    (h : exec i s = .next (s.engineOp r { o with spans := x })) : Issues s i r o := by
  refine ⟨fun t ht => ?_, fun hn h1 h2 => lists_engine s i o x he ?_ h1 (h2 he)⟩
  · rw [h, ht]; rfl
  · rw [h, hn]; rfl

theorem issuesWhen_engine (s : State) (i : Instr) (r : Option TrapRec) (ok : Prop) (o : AOp) (x : List (Nat × Nat))
    (he : o.kind.engine = true) (h : exec i s = .next (s.engineOp r { o with spans := x })) (hr : ok → r = none) :
    IssuesWhen s i ok o := fun ho h1 h2 => lists_engine s i o x he (by rw [h, hr ho]; rfl) h1 h2

/-- A branch whose target holds a clause header lands before it. -/
theorem branch_ok (s : State) (t h : Nat) (ht : s.checkTarget t = .ok h) :
    s.branch t = (s.noteFetch t).endClause t := by
  unfold State.branch State.withTarget; rw [ht]

/-- A branch whose target fails its check traps there (01 R31). -/
theorem branch_trap (s : State) (t : Nat) (r : TrapRec) (ht : s.checkTarget t = .trap r) :
    s.branch t = (s.noteFetchFault r).trapHere r := by
  unfold State.branch State.withTarget; rw [ht]

/-- With nothing outstanding a release at BLOCK scope acts at once. -/
theorem releaseBlock_now (s : State) (h : s.accs = []) (k : State → State) :
    s.releaseBlock k = k (s.releaseAt s.cw.core s.cw.launch 1 (s.multiOf s.cw.block)) := by
  simp [State.releaseBlock, State.unsettled, h]

@[simp] theorem circleArrive_cw (s : State) (block circ wave : Nat) (x : Option W32) :
    (s.circleArrive block circ wave x).cw = s.cw := by
  unfold State.circleArrive State.circleCheck
  split
  · rfl
  · exact ite_keeps State.cw rfl rfl

@[simp] theorem acquireBlock_cw (s : State) : s.acquireBlock.cw = s.cw := by simp [State.acquireBlock]
@[simp] theorem circleDone_cw (s : State) (c : Nat) (g : W32) : (s.circleDone c g).cw = s.cw := acquireBlock_cw s

/-- The clean-up after a BAR changes its destination register and the memory system only. -/
theorem barDone_pa (s : State) (circ op : Nat) (dst : Operand) : (s.barDone circ op dst).cw.pa = s.cw.pa := by
  unfold State.barDone; dsimp only; split <;> simp

end Sys2Proof.Machine
end

