-- ==== Sys2Proof/Laws/PerInstr.lean ====
section
/-! SUPPORT. The family Parts: the opcode and the fields that the encoder takes from an instruction are those from which the decoder
builds it again (01 R26-R37). One lemma for each constructor. -/

namespace Sys2Proof.Laws.Parts

open Sys2Proof (Instr RF IF MF BF AF Fmt instrOf)
open Sys2Proof.Machine (partsOf)

/-- The decoder builds the instruction from the encoder's opcode and fields; an event has none. -/
def Statement (i : Instr) : Prop := ∀ p : Nat × Fmt, partsOf i = some p → instrOf p.1 p.2 = some i

theorem nop : Statement .nop := by rintro _ ⟨⟩; rfl
theorem sadd (f : RF) : Statement (.sadd f) := by rintro _ ⟨⟩; rfl
theorem ssub (f : RF) : Statement (.ssub f) := by rintro _ ⟨⟩; rfl
theorem smul (f : RF) : Statement (.smul f) := by rintro _ ⟨⟩; rfl
theorem smulh (f : RF) : Statement (.smulh f) := by rintro _ ⟨⟩; rfl
theorem sdivu (f : RF) : Statement (.sdivu f) := by rintro _ ⟨⟩; rfl
theorem sremu (f : RF) : Statement (.sremu f) := by rintro _ ⟨⟩; rfl
theorem smin (f : RF) : Statement (.smin f) := by rintro _ ⟨⟩; rfl
theorem smax (f : RF) : Statement (.smax f) := by rintro _ ⟨⟩; rfl
theorem sand (f : RF) : Statement (.sand f) := by rintro _ ⟨⟩; rfl
theorem sor (f : RF) : Statement (.sor f) := by rintro _ ⟨⟩; rfl
theorem sxor (f : RF) : Statement (.sxor f) := by rintro _ ⟨⟩; rfl
theorem snot (f : RF) : Statement (.snot f) := by rintro _ ⟨⟩; rfl
theorem sshl (f : RF) : Statement (.sshl f) := by rintro _ ⟨⟩; rfl
theorem sshr (f : RF) : Statement (.sshr f) := by rintro _ ⟨⟩; rfl
theorem ssra (f : RF) : Statement (.ssra f) := by rintro _ ⟨⟩; rfl
theorem sclz (f : RF) : Statement (.sclz f) := by rintro _ ⟨⟩; rfl
theorem spopc (f : RF) : Statement (.spopc f) := by rintro _ ⟨⟩; rfl
theorem scmp (f : RF) : Statement (.scmp f) := by rintro _ ⟨⟩; rfl
theorem ssel (f : RF) : Statement (.ssel f) := by rintro _ ⟨⟩; rfl
theorem smov (f : RF) : Statement (.smov f) := by rintro _ ⟨⟩; rfl
theorem sadda (f : RF) : Statement (.sadda f) := by rintro _ ⟨⟩; rfl
theorem saddI (f : IF) : Statement (.saddI f) := by rintro _ ⟨⟩; rfl
theorem ssubI (f : IF) : Statement (.ssubI f) := by rintro _ ⟨⟩; rfl
theorem smulI (f : IF) : Statement (.smulI f) := by rintro _ ⟨⟩; rfl
theorem smulhI (f : IF) : Statement (.smulhI f) := by rintro _ ⟨⟩; rfl
theorem sdivuI (f : IF) : Statement (.sdivuI f) := by rintro _ ⟨⟩; rfl
theorem sremuI (f : IF) : Statement (.sremuI f) := by rintro _ ⟨⟩; rfl
theorem sminI (f : IF) : Statement (.sminI f) := by rintro _ ⟨⟩; rfl
theorem smaxI (f : IF) : Statement (.smaxI f) := by rintro _ ⟨⟩; rfl
theorem sandI (f : IF) : Statement (.sandI f) := by rintro _ ⟨⟩; rfl
theorem sorI (f : IF) : Statement (.sorI f) := by rintro _ ⟨⟩; rfl
theorem sxorI (f : IF) : Statement (.sxorI f) := by rintro _ ⟨⟩; rfl
theorem sshlI (f : IF) : Statement (.sshlI f) := by rintro _ ⟨⟩; rfl
theorem sshrI (f : IF) : Statement (.sshrI f) := by rintro _ ⟨⟩; rfl
theorem ssraI (f : IF) : Statement (.ssraI f) := by rintro _ ⟨⟩; rfl
theorem scmpI (f : IF) : Statement (.scmpI f) := by rintro _ ⟨⟩; rfl
theorem saddaI (f : IF) : Statement (.saddaI f) := by rintro _ ⟨⟩; rfl
theorem smovi (f : IF) : Statement (.smovi f) := by rintro _ ⟨⟩; rfl
theorem sldk (f : IF) : Statement (.sldk f) := by rintro _ ⟨⟩; rfl
theorem sadd64 (f : RF) : Statement (.sadd64 f) := by rintro _ ⟨⟩; rfl
theorem ssub64 (f : RF) : Statement (.ssub64 f) := by rintro _ ⟨⟩; rfl
theorem smul64 (f : RF) : Statement (.smul64 f) := by rintro _ ⟨⟩; rfl
theorem smin64 (f : RF) : Statement (.smin64 f) := by rintro _ ⟨⟩; rfl
theorem smax64 (f : RF) : Statement (.smax64 f) := by rintro _ ⟨⟩; rfl
theorem sand64 (f : RF) : Statement (.sand64 f) := by rintro _ ⟨⟩; rfl
theorem sor64 (f : RF) : Statement (.sor64 f) := by rintro _ ⟨⟩; rfl
theorem sxor64 (f : RF) : Statement (.sxor64 f) := by rintro _ ⟨⟩; rfl
theorem sshl64 (f : RF) : Statement (.sshl64 f) := by rintro _ ⟨⟩; rfl
theorem sshr64 (f : RF) : Statement (.sshr64 f) := by rintro _ ⟨⟩; rfl
theorem ssra64 (f : RF) : Statement (.ssra64 f) := by rintro _ ⟨⟩; rfl
theorem scmp64 (f : RF) : Statement (.scmp64 f) := by rintro _ ⟨⟩; rfl
theorem smov64 (f : RF) : Statement (.smov64 f) := by rintro _ ⟨⟩; rfl
theorem br (f : BF) : Statement (.br f) := by rintro _ ⟨⟩; rfl
theorem brc (f : BF) : Statement (.brc f) := by rintro _ ⟨⟩; rfl
theorem call (f : BF) : Statement (.call f) := by rintro _ ⟨⟩; rfl
theorem ret (f : BF) : Statement (.ret f) := by rintro _ ⟨⟩; rfl
theorem bri (f : BF) : Statement (.bri f) := by rintro _ ⟨⟩; rfl
theorem endP (f : BF) : Statement (.endP f) := by rintro _ ⟨⟩; rfl
theorem fork (f : BF) : Statement (.fork f) := by rintro _ ⟨⟩; rfl
theorem join (f : BF) : Statement (.join f) := by rintro _ ⟨⟩; rfl
theorem ppush (f : RF) : Statement (.ppush f) := by rintro _ ⟨⟩; rfl
theorem pinv (f : RF) : Statement (.pinv f) := by rintro _ ⟨⟩; rfl
theorem ppop (f : RF) : Statement (.ppop f) := by rintro _ ⟨⟩; rfl
theorem pset (f : RF) : Statement (.pset f) := by rintro _ ⟨⟩; rfl
theorem ppack (f : RF) : Statement (.ppack f) := by rintro _ ⟨⟩; rfl
theorem punpk (f : RF) : Statement (.punpk f) := by rintro _ ⟨⟩; rfl
theorem pany (f : RF) : Statement (.pany f) := by rintro _ ⟨⟩; rfl
theorem pall (f : RF) : Statement (.pall f) := by rintro _ ⟨⟩; rfl
theorem vadd (f : RF) : Statement (.vadd f) := by rintro _ ⟨⟩; rfl
theorem vsub (f : RF) : Statement (.vsub f) := by rintro _ ⟨⟩; rfl
theorem vmul (f : RF) : Statement (.vmul f) := by rintro _ ⟨⟩; rfl
theorem vmulh (f : RF) : Statement (.vmulh f) := by rintro _ ⟨⟩; rfl
theorem vmad (f : RF) : Statement (.vmad f) := by rintro _ ⟨⟩; rfl
theorem vmin (f : RF) : Statement (.vmin f) := by rintro _ ⟨⟩; rfl
theorem vmax (f : RF) : Statement (.vmax f) := by rintro _ ⟨⟩; rfl
theorem vand (f : RF) : Statement (.vand f) := by rintro _ ⟨⟩; rfl
theorem vor (f : RF) : Statement (.vor f) := by rintro _ ⟨⟩; rfl
theorem vxor (f : RF) : Statement (.vxor f) := by rintro _ ⟨⟩; rfl
theorem vnot (f : RF) : Statement (.vnot f) := by rintro _ ⟨⟩; rfl
theorem vshl (f : RF) : Statement (.vshl f) := by rintro _ ⟨⟩; rfl
theorem vshr (f : RF) : Statement (.vshr f) := by rintro _ ⟨⟩; rfl
theorem vsra (f : RF) : Statement (.vsra f) := by rintro _ ⟨⟩; rfl
theorem vclz (f : RF) : Statement (.vclz f) := by rintro _ ⟨⟩; rfl
theorem vpopc (f : RF) : Statement (.vpopc f) := by rintro _ ⟨⟩; rfl
theorem vcmp (f : RF) : Statement (.vcmp f) := by rintro _ ⟨⟩; rfl
theorem vsel (f : RF) : Statement (.vsel f) := by rintro _ ⟨⟩; rfl
theorem vmov (f : RF) : Statement (.vmov f) := by rintro _ ⟨⟩; rfl
theorem vbcst (f : RF) : Statement (.vbcst f) := by rintro _ ⟨⟩; rfl
theorem vlane (f : RF) : Statement (.vlane f) := by rintro _ ⟨⟩; rfl
theorem vshfl (f : RF) : Statement (.vshfl f) := by rintro _ ⟨⟩; rfl
theorem vred (f : RF) : Statement (.vred f) := by rintro _ ⟨⟩; rfl
theorem vscan (f : RF) : Statement (.vscan f) := by rintro _ ⟨⟩; rfl
theorem vaddI (f : IF) : Statement (.vaddI f) := by rintro _ ⟨⟩; rfl
theorem vsubI (f : IF) : Statement (.vsubI f) := by rintro _ ⟨⟩; rfl
theorem vmulI (f : IF) : Statement (.vmulI f) := by rintro _ ⟨⟩; rfl
theorem vminI (f : IF) : Statement (.vminI f) := by rintro _ ⟨⟩; rfl
theorem vmaxI (f : IF) : Statement (.vmaxI f) := by rintro _ ⟨⟩; rfl
theorem vandI (f : IF) : Statement (.vandI f) := by rintro _ ⟨⟩; rfl
theorem vorI (f : IF) : Statement (.vorI f) := by rintro _ ⟨⟩; rfl
theorem vxorI (f : IF) : Statement (.vxorI f) := by rintro _ ⟨⟩; rfl
theorem vshlI (f : IF) : Statement (.vshlI f) := by rintro _ ⟨⟩; rfl
theorem vshrI (f : IF) : Statement (.vshrI f) := by rintro _ ⟨⟩; rfl
theorem vsraI (f : IF) : Statement (.vsraI f) := by rintro _ ⟨⟩; rfl
theorem vcmpI (f : IF) : Statement (.vcmpI f) := by rintro _ ⟨⟩; rfl
theorem vselI (f : IF) : Statement (.vselI f) := by rintro _ ⟨⟩; rfl
theorem vmovI (f : IF) : Statement (.vmovI f) := by rintro _ ⟨⟩; rfl
theorem vlaneI (f : IF) : Statement (.vlaneI f) := by rintro _ ⟨⟩; rfl
theorem vshflI (f : IF) : Statement (.vshflI f) := by rintro _ ⟨⟩; rfl
theorem vadd64 (f : RF) : Statement (.vadd64 f) := by rintro _ ⟨⟩; rfl
theorem vshl64 (f : RF) : Statement (.vshl64 f) := by rintro _ ⟨⟩; rfl
theorem vredF (f : RF) : Statement (.vredF f) := by rintro _ ⟨⟩; rfl
theorem vscanF (f : RF) : Statement (.vscanF f) := by rintro _ ⟨⟩; rfl
theorem fadd (f : RF) : Statement (.fadd f) := by rintro _ ⟨⟩; rfl
theorem fsub (f : RF) : Statement (.fsub f) := by rintro _ ⟨⟩; rfl
theorem fmul (f : RF) : Statement (.fmul f) := by rintro _ ⟨⟩; rfl
theorem ffma (f : RF) : Statement (.ffma f) := by rintro _ ⟨⟩; rfl
theorem fmin (f : RF) : Statement (.fmin f) := by rintro _ ⟨⟩; rfl
theorem fmax (f : RF) : Statement (.fmax f) := by rintro _ ⟨⟩; rfl
theorem fcmp (f : RF) : Statement (.fcmp f) := by rintro _ ⟨⟩; rfl
theorem frcp (f : RF) : Statement (.frcp f) := by rintro _ ⟨⟩; rfl
theorem frsq (f : RF) : Statement (.frsq f) := by rintro _ ⟨⟩; rfl
theorem fsqrt (f : RF) : Statement (.fsqrt f) := by rintro _ ⟨⟩; rfl
theorem fexp2 (f : RF) : Statement (.fexp2 f) := by rintro _ ⟨⟩; rfl
theorem flog2 (f : RF) : Statement (.flog2 f) := by rintro _ ⟨⟩; rfl
theorem fsin (f : RF) : Statement (.fsin f) := by rintro _ ⟨⟩; rfl
theorem fcos (f : RF) : Statement (.fcos f) := by rintro _ ⟨⟩; rfl
theorem frnd (f : RF) : Statement (.frnd f) := by rintro _ ⟨⟩; rfl
theorem fcvt (f : RF) : Statement (.fcvt f) := by rintro _ ⟨⟩; rfl
theorem faddI (f : IF) : Statement (.faddI f) := by rintro _ ⟨⟩; rfl
theorem fsubI (f : IF) : Statement (.fsubI f) := by rintro _ ⟨⟩; rfl
theorem fmulI (f : IF) : Statement (.fmulI f) := by rintro _ ⟨⟩; rfl
theorem fminI (f : IF) : Statement (.fminI f) := by rintro _ ⟨⟩; rfl
theorem fmaxI (f : IF) : Statement (.fmaxI f) := by rintro _ ⟨⟩; rfl
theorem fcmpI (f : IF) : Statement (.fcmpI f) := by rintro _ ⟨⟩; rfl
theorem faddH2 (f : RF) : Statement (.faddH2 f) := by rintro _ ⟨⟩; rfl
theorem fsubH2 (f : RF) : Statement (.fsubH2 f) := by rintro _ ⟨⟩; rfl
theorem fmulH2 (f : RF) : Statement (.fmulH2 f) := by rintro _ ⟨⟩; rfl
theorem ffmaH2 (f : RF) : Statement (.ffmaH2 f) := by rintro _ ⟨⟩; rfl
theorem fminH2 (f : RF) : Statement (.fminH2 f) := by rintro _ ⟨⟩; rfl
theorem fmaxH2 (f : RF) : Statement (.fmaxH2 f) := by rintro _ ⟨⟩; rfl
theorem faddB2 (f : RF) : Statement (.faddB2 f) := by rintro _ ⟨⟩; rfl
theorem fsubB2 (f : RF) : Statement (.fsubB2 f) := by rintro _ ⟨⟩; rfl
theorem fmulB2 (f : RF) : Statement (.fmulB2 f) := by rintro _ ⟨⟩; rfl
theorem ffmaB2 (f : RF) : Statement (.ffmaB2 f) := by rintro _ ⟨⟩; rfl
theorem fminB2 (f : RF) : Statement (.fminB2 f) := by rintro _ ⟨⟩; rfl
theorem fmaxB2 (f : RF) : Statement (.fmaxB2 f) := by rintro _ ⟨⟩; rfl
theorem vdot4 (f : RF) : Statement (.vdot4 f) := by rintro _ ⟨⟩; rfl
theorem vdot8 (f : RF) : Statement (.vdot8 f) := by rintro _ ⟨⟩; rfl
theorem vpk (f : RF) : Statement (.vpk f) := by rintro _ ⟨⟩; rfl
theorem vupk (f : RF) : Statement (.vupk f) := by rintro _ ⟨⟩; rfl
theorem ldZx8 (f : MF) : Statement (.ldZx8 f) := by rintro _ ⟨⟩; rfl
theorem ldSx8 (f : MF) : Statement (.ldSx8 f) := by rintro _ ⟨⟩; rfl
theorem ldZx16 (f : MF) : Statement (.ldZx16 f) := by rintro _ ⟨⟩; rfl
theorem ldSx16 (f : MF) : Statement (.ldSx16 f) := by rintro _ ⟨⟩; rfl
theorem ldB32 (f : MF) : Statement (.ldB32 f) := by rintro _ ⟨⟩; rfl
theorem ldB64 (f : MF) : Statement (.ldB64 f) := by rintro _ ⟨⟩; rfl
theorem ldB128 (f : MF) : Statement (.ldB128 f) := by rintro _ ⟨⟩; rfl
theorem stB8 (f : MF) : Statement (.stB8 f) := by rintro _ ⟨⟩; rfl
theorem stB16 (f : MF) : Statement (.stB16 f) := by rintro _ ⟨⟩; rfl
theorem stB32 (f : MF) : Statement (.stB32 f) := by rintro _ ⟨⟩; rfl
theorem stB64 (f : MF) : Statement (.stB64 f) := by rintro _ ⟨⟩; rfl
theorem stB128 (f : MF) : Statement (.stB128 f) := by rintro _ ⟨⟩; rfl
theorem ldb (f : MF) : Statement (.ldb f) := by rintro _ ⟨⟩; rfl
theorem stb (f : MF) : Statement (.stb f) := by rintro _ ⟨⟩; rfl
theorem ldlB32 (f : MF) : Statement (.ldlB32 f) := by rintro _ ⟨⟩; rfl
theorem ldlB64 (f : MF) : Statement (.ldlB64 f) := by rintro _ ⟨⟩; rfl
theorem ldlB128 (f : MF) : Statement (.ldlB128 f) := by rintro _ ⟨⟩; rfl
theorem stlB32 (f : MF) : Statement (.stlB32 f) := by rintro _ ⟨⟩; rfl
theorem stlB64 (f : MF) : Statement (.stlB64 f) := by rintro _ ⟨⟩; rfl
theorem stlB128 (f : MF) : Statement (.stlB128 f) := by rintro _ ⟨⟩; rfl
theorem atomAdd (f : MF) : Statement (.atomAdd f) := by rintro _ ⟨⟩; rfl
theorem atomSmin (f : MF) : Statement (.atomSmin f) := by rintro _ ⟨⟩; rfl
theorem atomSmax (f : MF) : Statement (.atomSmax f) := by rintro _ ⟨⟩; rfl
theorem atomUmin (f : MF) : Statement (.atomUmin f) := by rintro _ ⟨⟩; rfl
theorem atomUmax (f : MF) : Statement (.atomUmax f) := by rintro _ ⟨⟩; rfl
theorem atomAnd (f : MF) : Statement (.atomAnd f) := by rintro _ ⟨⟩; rfl
theorem atomOr (f : MF) : Statement (.atomOr f) := by rintro _ ⟨⟩; rfl
theorem atomXor (f : MF) : Statement (.atomXor f) := by rintro _ ⟨⟩; rfl
theorem atomXchg (f : MF) : Statement (.atomXchg f) := by rintro _ ⟨⟩; rfl
theorem atomCas (f : MF) : Statement (.atomCas f) := by rintro _ ⟨⟩; rfl
theorem atomFadd (f : MF) : Statement (.atomFadd f) := by rintro _ ⟨⟩; rfl
theorem atomAddB64 (f : MF) : Statement (.atomAddB64 f) := by rintro _ ⟨⟩; rfl
theorem atomUminB64 (f : MF) : Statement (.atomUminB64 f) := by rintro _ ⟨⟩; rfl
theorem atomUmaxB64 (f : MF) : Statement (.atomUmaxB64 f) := by rintro _ ⟨⟩; rfl
theorem atomXchgB64 (f : MF) : Statement (.atomXchgB64 f) := by rintro _ ⟨⟩; rfl
theorem atomCasB64 (f : MF) : Statement (.atomCasB64 f) := by rintro _ ⟨⟩; rfl
theorem redAdd (f : MF) : Statement (.redAdd f) := by rintro _ ⟨⟩; rfl
theorem redSmin (f : MF) : Statement (.redSmin f) := by rintro _ ⟨⟩; rfl
theorem redSmax (f : MF) : Statement (.redSmax f) := by rintro _ ⟨⟩; rfl
theorem redUmin (f : MF) : Statement (.redUmin f) := by rintro _ ⟨⟩; rfl
theorem redUmax (f : MF) : Statement (.redUmax f) := by rintro _ ⟨⟩; rfl
theorem redAnd (f : MF) : Statement (.redAnd f) := by rintro _ ⟨⟩; rfl
theorem redOr (f : MF) : Statement (.redOr f) := by rintro _ ⟨⟩; rfl
theorem redXor (f : MF) : Statement (.redXor f) := by rintro _ ⟨⟩; rfl
theorem redFadd (f : MF) : Statement (.redFadd f) := by rintro _ ⟨⟩; rfl
theorem redAddB64 (f : MF) : Statement (.redAddB64 f) := by rintro _ ⟨⟩; rfl
theorem fence (f : FenceF) : Statement (.fence f) := by rintro _ ⟨⟩; rfl
theorem cinv (f : MF) : Statement (.cinv f) := by rintro _ ⟨⟩; rfl
theorem cflush (f : MF) : Statement (.cflush f) := by rintro _ ⟨⟩; rfl
theorem pref (f : MF) : Statement (.pref f) := by rintro _ ⟨⟩; rfl
theorem hld (f : MF) : Statement (.hld f) := by rintro _ ⟨⟩; rfl
theorem hst (f : MF) : Statement (.hst f) := by rintro _ ⟨⟩; rfl
theorem hsetf (f : RF) : Statement (.hsetf f) := by rintro _ ⟨⟩; rfl
theorem hgetf (f : RF) : Statement (.hgetf f) := by rintro _ ⟨⟩; rfl
theorem copy (f : AF) : Statement (.copy f) := by rintro _ ⟨⟩; rfl
theorem copyc (f : AF) : Statement (.copyc f) := by rintro _ ⟨⟩; rfl
theorem cpfill (f : AF) : Statement (.cpfill f) := by rintro _ ⟨⟩; rfl
theorem bar (f : BarF) : Statement (.bar f) := by rintro _ ⟨⟩; rfl
theorem bara (f : BaraF) : Statement (.bara f) := by rintro _ ⟨⟩; rfl
theorem barw (f : BarwF) : Statement (.barw f) := by rintro _ ⟨⟩; rfl
theorem bcnt (f : BcntF) : Statement (.bcnt f) := by rintro _ ⟨⟩; rfl
theorem barx (f : BarxF) : Statement (.barx f) := by rintro _ ⟨⟩; rfl
theorem aclose (f : AcloseF) : Statement (.aclose f) := by rintro _ ⟨⟩; rfl
theorem wait (f : WaitF) : Statement (.wait f) := by rintro _ ⟨⟩; rfl
theorem mttc (f : RF) : Statement (.mttc f) := by rintro _ ⟨⟩; rfl
theorem tld (f : AF) : Statement (.tld f) := by rintro _ ⟨⟩; rfl
theorem tldc (f : AF) : Statement (.tldc f) := by rintro _ ⟨⟩; rfl
theorem tst (f : AF) : Statement (.tst f) := by rintro _ ⟨⟩; rfl
theorem tzero (f : RF) : Statement (.tzero f) := by rintro _ ⟨⟩; rfl
theorem tmov (f : RF) : Statement (.tmov f) := by rintro _ ⟨⟩; rfl
theorem azero (f : RF) : Statement (.azero f) := by rintro _ ⟨⟩; rfl
theorem mma (f : AF) : Statement (.mma f) := by rintro _ ⟨⟩; rfl
theorem mmas (f : AF) : Statement (.mmas f) := by rintro _ ⟨⟩; rfl
theorem mmap (f : AF) : Statement (.mmap f) := by rintro _ ⟨⟩; rfl
theorem mdrain (f : AF) : Statement (.mdrain f) := by rintro _ ⟨⟩; rfl
theorem mdrainP (f : AF) : Statement (.mdrainP f) := by rintro _ ⟨⟩; rfl
theorem mfenceOp : Statement .mfenceOp := by rintro _ ⟨⟩; rfl
theorem mfenceAcc (f : MfenceAccF) : Statement (.mfenceAcc f) := by rintro _ ⟨⟩; rfl
theorem mact (f : AF) : Statement (.mact f) := by rintro _ ⟨⟩; rfl
theorem mdtab (f : AF) : Statement (.mdtab f) := by rintro _ ⟨⟩; rfl
theorem vcvt (f : RF) : Statement (.vcvt f) := by rintro _ ⟨⟩; rfl
theorem vcvtAcc (f : RF) : Statement (.vcvtAcc f) := by rintro _ ⟨⟩; rfl
theorem bdset (f : RF) : Statement (.bdset f) := by rintro _ ⟨⟩; rfl
theorem ttprog (f : AF) : Statement (.ttprog f) := by rintro _ ⟨⟩; rfl
theorem ttbuf (f : AF) : Statement (.ttbuf f) := by rintro _ ⟨⟩; rfl
theorem ttstep (f : AF) : Statement (.ttstep f) := by rintro _ ⟨⟩; rfl
theorem ttrun (f : AF) : Statement (.ttrun f) := by rintro _ ⟨⟩; rfl
theorem rbox (f : RF) : Statement (.rbox f) := by rintro _ ⟨⟩; rfl
theorem rtri (f : RF) : Statement (.rtri f) := by rintro _ ⟨⟩; rfl
theorem tsinit (f : RF) : Statement (.tsinit f) := by rintro _ ⟨⟩; rfl
theorem tspush (f : RF) : Statement (.tspush f) := by rintro _ ⟨⟩; rfl
theorem tspop (f : RF) : Statement (.tspop f) := by rintro _ ⟨⟩; rfl
theorem nmwalk (f : AF) : Statement (.nmwalk f) := by rintro _ ⟨⟩; rfl
theorem wadd (f : RF) : Statement (.wadd f) := by rintro _ ⟨⟩; rfl
theorem wsub (f : RF) : Statement (.wsub f) := by rintro _ ⟨⟩; rfl
theorem wmul (f : RF) : Statement (.wmul f) := by rintro _ ⟨⟩; rfl
theorem wfma (f : RF) : Statement (.wfma f) := by rintro _ ⟨⟩; rfl
theorem wmin (f : RF) : Statement (.wmin f) := by rintro _ ⟨⟩; rfl
theorem wmax (f : RF) : Statement (.wmax f) := by rintro _ ⟨⟩; rfl
theorem wexp (f : RF) : Statement (.wexp f) := by rintro _ ⟨⟩; rfl
theorem wspl (f : RF) : Statement (.wspl f) := by rintro _ ⟨⟩; rfl
theorem wget (f : RF) : Statement (.wget f) := by rintro _ ⟨⟩; rfl
theorem wset (f : RF) : Statement (.wset f) := by rintro _ ⟨⟩; rfl
theorem wsum (f : RF) : Statement (.wsum f) := by rintro _ ⟨⟩; rfl
theorem wmm (f : RF) : Statement (.wmm f) := by rintro _ ⟨⟩; rfl
theorem sxl (f : RF) : Statement (.sxl f) := by rintro _ ⟨⟩; rfl
theorem sxlg (f : RF) : Statement (.sxlg f) := by rintro _ ⟨⟩; rfl
theorem filmadd (f : MF) : Statement (.filmadd f) := by rintro _ ⟨⟩; rfl
theorem waddV (f : RF) : Statement (.waddV f) := by rintro _ ⟨⟩; rfl
theorem wsubV (f : RF) : Statement (.wsubV f) := by rintro _ ⟨⟩; rfl
theorem wmulV (f : RF) : Statement (.wmulV f) := by rintro _ ⟨⟩; rfl
theorem wfmaV (f : RF) : Statement (.wfmaV f) := by rintro _ ⟨⟩; rfl
theorem wminV (f : RF) : Statement (.wminV f) := by rintro _ ⟨⟩; rfl
theorem wmaxV (f : RF) : Statement (.wmaxV f) := by rintro _ ⟨⟩; rfl
theorem spawn (f : SpawnF) : Statement (.spawn f) := by rintro _ ⟨⟩; rfl
theorem spawnc (f : SpawncF) : Statement (.spawnc f) := by rintro _ ⟨⟩; rfl
theorem spawnr (f : SpawnrF) : Statement (.spawnr f) := by rintro _ ⟨⟩; rfl
theorem tnext (f : TnextF) : Statement (.tnext f) := by rintro _ ⟨⟩; rfl
theorem tres (f : TresF) : Statement (.tres f) := by rintro _ ⟨⟩; rfl
theorem tcommit (f : TdstF) : Statement (.tcommit f) := by rintro _ ⟨⟩; rfl
theorem tcancel (f : TdstF) : Statement (.tcancel f) := by rintro _ ⟨⟩; rfl
theorem tend : Statement .tend := by rintro _ ⟨⟩; rfl
theorem ldred (f : MF) : Statement (.ldred f) := by rintro _ ⟨⟩; rfl
theorem ldredF32 (f : MF) : Statement (.ldredF32 f) := by rintro _ ⟨⟩; rfl
theorem moota (f : MootaF) : Statement (.moota f) := by rintro _ ⟨⟩; rfl
theorem mootd : Statement .mootd := by rintro _ ⟨⟩; rfl
theorem mootq (f : MootqF) : Statement (.mootq f) := by rintro _ ⟨⟩; rfl
theorem mfsr (f : RF) : Statement (.mfsr f) := by rintro _ ⟨⟩; rfl
theorem mtsr (f : RF) : Statement (.mtsr f) := by rintro _ ⟨⟩; rfl
theorem mtsrI (f : IF) : Statement (.mtsrI f) := by rintro _ ⟨⟩; rfl
theorem srm (f : IF) : Statement (.srm f) := by rintro _ ⟨⟩; rfl
theorem trap (f : IF) : Statement (.trap f) := by rintro _ ⟨⟩; rfl
theorem bkpt (f : IF) : Statement (.bkpt f) := by rintro _ ⟨⟩; rfl
theorem eret : Statement .eret := by rintro _ ⟨⟩; rfl
theorem ptprd (f : RF) : Statement (.ptprd f) := by rintro _ ⟨⟩; rfl
theorem framec (f : FramecF) : Statement (.framec f) := by rintro _ ⟨⟩; rfl
theorem snap (f : SnapF) : Statement (.snap f) := by rintro _ ⟨⟩; rfl
theorem clauseStart (core part pipe : Nat) : Statement (.clauseStart core part pipe) := by rintro _ ⟨⟩
theorem pathResume (uid : Nat) (second : Bool) : Statement (.pathResume uid second) := by rintro _ ⟨⟩
theorem memoryResponse (id : Nat) (pieces : List Nat) : Statement (.memoryResponse id pieces) := by rintro _ ⟨⟩
theorem storePerform (id : Nat) (pieces : List Nat) : Statement (.storePerform id pieces) := by rintro _ ⟨⟩
theorem deliveredFault (uid : Nat) (second : Bool) : Statement (.deliveredFault uid second) := by rintro _ ⟨⟩
theorem pagerResolve (token : Nat) : Statement (.pagerResolve token) := by rintro _ ⟨⟩
theorem pagerReject (token : Nat) : Statement (.pagerReject token) := by rintro _ ⟨⟩
theorem copyUnitsLand (op : Nat) (elems : List Nat) : Statement (.copyUnitsLand op elems) := by rintro _ ⟨⟩
theorem copyFault (op elem : Nat) : Statement (.copyFault op elem) := by rintro _ ⟨⟩
theorem asyncOpComplete (op : Nat) : Statement (.asyncOpComplete op) := by rintro _ ⟨⟩
theorem engineOpStart (op : Nat) : Statement (.engineOpStart op) := by rintro _ ⟨⟩
theorem pairOpStart (op : Nat) : Statement (.pairOpStart op) := by rintro _ ⟨⟩
theorem engineOpComplete (op : Nat) : Statement (.engineOpComplete op) := by rintro _ ⟨⟩
theorem sequencerStep (op : Nat) : Statement (.sequencerStep op) := by rintro _ ⟨⟩
theorem nmWalkPass (op ray : Nat) : Statement (.nmWalkPass op ray) := by rintro _ ⟨⟩
theorem nmWalkComplete (op : Nat) : Statement (.nmWalkComplete op) := by rintro _ ⟨⟩
theorem waitEvaluate (uid : Nat) (second : Bool) : Statement (.waitEvaluate uid second) := by rintro _ ⟨⟩
theorem waitTimeout (uid : Nat) (second : Bool) : Statement (.waitTimeout uid second) := by rintro _ ⟨⟩
theorem mootaTimeout (uid : Nat) (second : Bool) : Statement (.mootaTimeout uid second) := by rintro _ ⟨⟩
theorem gangAttachComplete (gid : Nat) : Statement (.gangAttachComplete gid) := by rintro _ ⟨⟩
theorem blockPlace (launch : Nat) (places : List Nat) : Statement (.blockPlace launch places) := by rintro _ ⟨⟩
theorem blockStart (block : Nat) : Statement (.blockStart block) := by rintro _ ⟨⟩
theorem blockExit (block : Nat) : Statement (.blockExit block) := by rintro _ ⟨⟩
theorem launchComplete (launch : Nat) : Statement (.launchComplete launch) := by rintro _ ⟨⟩
theorem launchAccept (queue : Nat) : Statement (.launchAccept queue) := by rintro _ ⟨⟩
theorem dependenceRead (launch dep : Nat) : Statement (.dependenceRead launch dep) := by rintro _ ⟨⟩
theorem doorbell (fn queue addr : Nat) : Statement (.doorbell fn queue addr) := by rintro _ ⟨⟩
theorem qctlWrite (fn queue value : Nat) : Statement (.qctlWrite fn queue value) := by rintro _ ⟨⟩
theorem stfaultClear (fn queue value : Nat) : Statement (.stfaultClear fn queue value) := by rintro _ ⟨⟩
theorem gangTurnGrant (gid : Nat) : Statement (.gangTurnGrant gid) := by rintro _ ⟨⟩
theorem gangStart (gid : Nat) : Statement (.gangStart gid) := by rintro _ ⟨⟩
theorem gangAbandon (gid : Nat) : Statement (.gangAbandon gid) := by rintro _ ⟨⟩
theorem preemptWaitExpiry (launch : Nat) : Statement (.preemptWaitExpiry launch) := by rintro _ ⟨⟩
theorem preemptSwap (launch : Nat) (places : List Nat) : Statement (.preemptSwap launch places) := by rintro _ ⟨⟩
theorem bankExchange (core : Nat) : Statement (.bankExchange core) := by rintro _ ⟨⟩
theorem swapBack (core : Nat) : Statement (.swapBack core) := by rintro _ ⟨⟩
theorem contextSave (block : Nat) : Statement (.contextSave block) := by rintro _ ⟨⟩
theorem contextRestore (block : Nat) (places : List Nat) : Statement (.contextRestore block places) := by rintro _ ⟨⟩
theorem taskWaveStart (core slot record : Nat) : Statement (.taskWaveStart core slot record) := by rintro _ ⟨⟩
theorem taskGatherTimeout (core : Nat) : Statement (.taskGatherTimeout core) := by rintro _ ⟨⟩
theorem workRequest (core donor : Nat) : Statement (.workRequest core donor) := by rintro _ ⟨⟩
theorem futureResume (uid slot : Nat) : Statement (.futureResume uid slot) := by rintro _ ⟨⟩
theorem triggerEvaluate : Statement .triggerEvaluate := by rintro _ ⟨⟩
theorem frameDeadline (stream : Nat) : Statement (.frameDeadline stream) := by rintro _ ⟨⟩
theorem streamEnable (stream : Nat) : Statement (.streamEnable stream) := by rintro _ ⟨⟩
theorem streamDisable (stream : Nat) : Statement (.streamDisable stream) := by rintro _ ⟨⟩
theorem ptpMessageReceive (offset : Int) : Statement (.ptpMessageReceive offset) := by rintro _ ⟨⟩
theorem snapgo (tag : Nat) : Statement (.snapgo tag) := by rintro _ ⟨⟩
theorem snapPtpFire : Statement .snapPtpFire := by rintro _ ⟨⟩
theorem snapBusyClear : Statement .snapBusyClear := by rintro _ ⟨⟩
theorem powerSample (watts : Nat) (temp : Int) : Statement (.powerSample watts temp) := by rintro _ ⟨⟩
theorem thermalTrip : Statement .thermalTrip := by rintro _ ⟨⟩
theorem moduleReset (powerOn : Bool) : Statement (.moduleReset powerOn) := by rintro _ ⟨⟩
theorem modreset (value : Nat) : Statement (.modreset value) := by rintro _ ⟨⟩
theorem vfFunctionLevelReset (fn : Nat) : Statement (.vfFunctionLevelReset fn) := by rintro _ ⟨⟩
theorem bringUpComplete : Statement .bringUpComplete := by rintro _ ⟨⟩
theorem invgo : Statement .invgo := by rintro _ ⟨⟩
theorem invalidationComplete : Statement .invalidationComplete := by rintro _ ⟨⟩
theorem sensors (len tag : Nat) : Statement (.sensors len tag) := by rintro _ ⟨⟩
theorem logread (len tag : Nat) : Statement (.logread len tag) := by rintro _ ⟨⟩
theorem fwstage (len tag : Nat) : Statement (.fwstage len tag) := by rintro _ ⟨⟩
theorem fwcommit (len tag : Nat) : Statement (.fwcommit len tag) := by rintro _ ⟨⟩
theorem measure (len tag : Nat) : Statement (.measure len tag) := by rintro _ ⟨⟩
theorem extend (len tag : Nat) : Statement (.extend len tag) := by rintro _ ⟨⟩
theorem quote (len tag : Nat) : Statement (.quote len tag) := by rintro _ ⟨⟩
theorem ptpcfg (len tag : Nat) : Statement (.ptpcfg len tag) := by rintro _ ⟨⟩
theorem mailboxComplete : Statement .mailboxComplete := by rintro _ ⟨⟩
theorem logPersist (n : Nat) : Statement (.logPersist n) := by rintro _ ⟨⟩
theorem hostAccess (op : Nat) (hostMem : Bool) (addr n data : Nat) : Statement (.hostAccess op hostMem addr n data) := by rintro _ ⟨⟩
theorem registerWrite (fn off n value : Nat) : Statement (.registerWrite fn off n value) := by rintro _ ⟨⟩
theorem fabricLinkUp (pkgid incarn : Nat) : Statement (.fabricLinkUp pkgid incarn) := by rintro _ ⟨⟩
theorem stationStateChange (station : Nat) (up : Bool) : Statement (.stationStateChange station up) := by rintro _ ⟨⟩
theorem fabricPacketReceive (incarn src seq kind gid addr n data : Nat) : Statement (.fabricPacketReceive incarn src seq kind gid addr n data) := by rintro _ ⟨⟩
theorem idleBeat (station : Nat) : Statement (.idleBeat station) := by rintro _ ⟨⟩
theorem fabricResend (id : Nat) : Statement (.fabricResend id) := by rintro _ ⟨⟩
theorem keepWaitingNotice (id : Nat) : Statement (.keepWaitingNotice id) := by rintro _ ⟨⟩
theorem remoteTimeout (id : Nat) : Statement (.remoteTimeout id) := by rintro _ ⟨⟩
theorem departureNotice (gid : Nat) (ranks : List Nat) : Statement (.departureNotice gid ranks) := by rintro _ ⟨⟩
theorem lossOfLock : Statement .lossOfLock := by rintro _ ⟨⟩
theorem checkBitError (place core slot reg lane byte : Nat) (corrected : Bool) : Statement (.checkBitError place core slot reg lane byte corrected) := by rintro _ ⟨⟩
theorem pqtailWrite (value : Nat) : Statement (.pqtailWrite value) := by rintro _ ⟨⟩

end Sys2Proof.Laws.Parts
end

