-- ==== Sys2Proof/Laws/State.lean ====
section
/-! SUPPORT. What each elementary update leaves alone, field by field: the updates of the wave in focus and of its path, of the
counters of free values and names, of a plain register of BAR0, of a launch, of a block, of the operations and of the order kept of
writers; and of each register file of a wave. A line for a field the update changes says its new value. -/

namespace Sys2Proof.Machine

open Sys2Proof (W32 Mask SMap SMap.set SMap.modify)

/-! ## onWave -/

@[simp] theorem onWave_agenda (s : State) (f : Wave → Wave) : (s.onWave f).agenda = s.agenda := rfl
@[simp] theorem onWave_fresh (s : State) (f : Wave → Wave) : (s.onWave f).fresh = s.fresh := rfl
@[simp] theorem onWave_nextId (s : State) (f : Wave → Wave) : (s.onWave f).nextId = s.nextId := rfl
@[simp] theorem onWave_cw (s : State) (f : Wave → Wave) : (s.onWave f).cw = f s.cw := rfl
@[simp] theorem onWave_waves (s : State) (f : Wave → Wave) : (s.onWave f).waves = s.waves := rfl
@[simp] theorem onWave_powered (s : State) (f : Wave → Wave) : (s.onWave f).powered = s.powered := rfl
@[simp] theorem onWave_clk (s : State) (f : Wave → Wave) : (s.onWave f).clk = s.clk := rfl
@[simp] theorem onWave_ref (s : State) (f : Wave → Wave) : (s.onWave f).ref = s.ref := rfl
@[simp] theorem onWave_tickClk (s : State) (f : Wave → Wave) : (s.onWave f).tickClk = s.tickClk := rfl
@[simp] theorem onWave_coreClk (s : State) (f : Wave → Wave) : (s.onWave f).coreClk = s.coreClk := rfl
@[simp] theorem onWave_launches (s : State) (f : Wave → Wave) : (s.onWave f).launches = s.launches := rfl
@[simp] theorem onWave_blocks (s : State) (f : Wave → Wave) : (s.onWave f).blocks = s.blocks := rfl
@[simp] theorem onWave_queues (s : State) (f : Wave → Wave) : (s.onWave f).queues = s.queues := rfl
@[simp] theorem onWave_gangs (s : State) (f : Wave → Wave) : (s.onWave f).gangs = s.gangs := rfl
@[simp] theorem onWave_accepted (s : State) (f : Wave → Wave) : (s.onWave f).accepted = s.accepted := rfl
@[simp] theorem onWave_rotation (s : State) (f : Wave → Wave) : (s.onWave f).rotation = s.rotation := rfl
@[simp] theorem onWave_hbm (s : State) (f : Wave → Wave) : (s.onWave f).hbm = s.hbm := rfl
@[simp] theorem onWave_host (s : State) (f : Wave → Wave) : (s.onWave f).host = s.host := rfl
@[simp] theorem onWave_undef (s : State) (f : Wave → Wave) : (s.onWave f).undef = s.undef := rfl
@[simp] theorem onWave_pool (s : State) (f : Wave → Wave) : (s.onWave f).pool = s.pool := rfl
@[simp] theorem onWave_peers (s : State) (f : Wave → Wave) : (s.onWave f).peers = s.peers := rfl
@[simp] theorem onWave_spd (s : State) (f : Wave → Wave) : (s.onWave f).spd = s.spd := rfl
@[simp] theorem onWave_gran (s : State) (f : Wave → Wave) : (s.onWave f).gran = s.gran := rfl
@[simp] theorem onWave_tiles (s : State) (f : Wave → Wave) : (s.onWave f).tiles = s.tiles := rfl
@[simp] theorem onWave_accm (s : State) (f : Wave → Wave) : (s.onWave f).accm = s.accm := rfl
@[simp] theorem onWave_banks (s : State) (f : Wave → Wave) : (s.onWave f).banks = s.banks := rfl
@[simp] theorem onWave_acts (s : State) (f : Wave → Wave) : (s.onWave f).acts = s.acts := rfl
@[simp] theorem onWave_tctl (s : State) (f : Wave → Wave) : (s.onWave f).tctl = s.tctl := rfl
@[simp] theorem onWave_absent (s : State) (f : Wave → Wave) : (s.onWave f).absent = s.absent := rfl
@[simp] theorem onWave_crossed (s : State) (f : Wave → Wave) : (s.onWave f).crossed = s.crossed := rfl
@[simp] theorem onWave_badWords (s : State) (f : Wave → Wave) : (s.onWave f).badWords = s.badWords := rfl
@[simp] theorem onWave_sectors (s : State) (f : Wave → Wave) : (s.onWave f).sectors = s.sectors := rfl
@[simp] theorem onWave_grants (s : State) (f : Wave → Wave) : (s.onWave f).grants = s.grants := rfl
@[simp] theorem onWave_barriers (s : State) (f : Wave → Wave) : (s.onWave f).barriers = s.barriers := rfl
@[simp] theorem onWave_fragWriters (s : State) (f : Wave → Wave) : (s.onWave f).fragWriters = s.fragWriters := rfl
@[simp] theorem onWave_tileWrites (s : State) (f : Wave → Wave) : (s.onWave f).tileWrites = s.tileWrites := rfl
@[simp] theorem onWave_pairWrites (s : State) (f : Wave → Wave) : (s.onWave f).pairWrites = s.pairWrites := rfl
@[simp] theorem onWave_tlb (s : State) (f : Wave → Wave) : (s.onWave f).tlb = s.tlb := rfl
@[simp] theorem onWave_filters (s : State) (f : Wave → Wave) : (s.onWave f).filters = s.filters := rfl
@[simp] theorem onWave_accs (s : State) (f : Wave → Wave) : (s.onWave f).accs = s.accs := rfl
@[simp] theorem onWave_ops (s : State) (f : Wave → Wave) : (s.onWave f).ops = s.ops := rfl
@[simp] theorem onWave_misses (s : State) (f : Wave → Wave) : (s.onWave f).misses = s.misses := rfl
@[simp] theorem onWave_devMissed (s : State) (f : Wave → Wave) : (s.onWave f).devMissed = s.devMissed := rfl
@[simp] theorem onWave_devDenied (s : State) (f : Wave → Wave) : (s.onWave f).devDenied = s.devDenied := rfl
@[simp] theorem onWave_tasks (s : State) (f : Wave → Wave) : (s.onWave f).tasks = s.tasks := rfl
@[simp] theorem onWave_gather (s : State) (f : Wave → Wave) : (s.onWave f).gather = s.gather := rfl
@[simp] theorem onWave_coreSt (s : State) (f : Wave → Wave) : (s.onWave f).coreSt = s.coreSt := rfl
@[simp] theorem onWave_ptp (s : State) (f : Wave → Wave) : (s.onWave f).ptp = s.ptp := rfl
@[simp] theorem onWave_ptpLocked (s : State) (f : Wave → Wave) : (s.onWave f).ptpLocked = s.ptpLocked := rfl
@[simp] theorem onWave_ptpHoldover (s : State) (f : Wave → Wave) : (s.onWave f).ptpHoldover = s.ptpHoldover := rfl
@[simp] theorem onWave_ptpSteps (s : State) (f : Wave → Wave) : (s.onWave f).ptpSteps = s.ptpSteps := rfl
@[simp] theorem onWave_ptpStepBy (s : State) (f : Wave → Wave) : (s.onWave f).ptpStepBy = s.ptpStepBy := rfl
@[simp] theorem onWave_ptpSlew (s : State) (f : Wave → Wave) : (s.onWave f).ptpSlew = s.ptpSlew := rfl
@[simp] theorem onWave_ptpSlewAt (s : State) (f : Wave → Wave) : (s.onWave f).ptpSlewAt = s.ptpSlewAt := rfl
@[simp] theorem onWave_ptpOffset (s : State) (f : Wave → Wave) : (s.onWave f).ptpOffset = s.ptpOffset := rfl
@[simp] theorem onWave_triggers (s : State) (f : Wave → Wave) : (s.onWave f).triggers = s.triggers := rfl
@[simp] theorem onWave_trigAt (s : State) (f : Wave → Wave) : (s.onWave f).trigAt = s.trigAt := rfl
@[simp] theorem onWave_stewardSubs (s : State) (f : Wave → Wave) : (s.onWave f).stewardSubs = s.stewardSubs := rfl
@[simp] theorem onWave_depsDue (s : State) (f : Wave → Wave) : (s.onWave f).depsDue = s.depsDue := rfl
@[simp] theorem onWave_streams (s : State) (f : Wave → Wave) : (s.onWave f).streams = s.streams := rfl
@[simp] theorem onWave_snapClear (s : State) (f : Wave → Wave) : (s.onWave f).snapClear = s.snapClear := rfl
@[simp] theorem onWave_bar (s : State) (f : Wave → Wave) : (s.onWave f).bar = s.bar := rfl
@[simp] theorem onWave_mbdata (s : State) (f : Wave → Wave) : (s.onWave f).mbdata = s.mbdata := rfl
@[simp] theorem onWave_mbCmd (s : State) (f : Wave → Wave) : (s.onWave f).mbCmd = s.mbCmd := rfl
@[simp] theorem onWave_granSeed (s : State) (f : Wave → Wave) : (s.onWave f).granSeed = s.granSeed := rfl
@[simp] theorem onWave_evlog (s : State) (f : Wave → Wave) : (s.onWave f).evlog = s.evlog := rfl
@[simp] theorem onWave_logPersisted (s : State) (f : Wave → Wave) : (s.onWave f).logPersisted = s.logPersisted := rfl
@[simp] theorem onWave_fw (s : State) (f : Wave → Wave) : (s.onWave f).fw = s.fw := rfl
@[simp] theorem onWave_meas (s : State) (f : Wave → Wave) : (s.onWave f).meas = s.meas := rfl
@[simp] theorem onWave_msi (s : State) (f : Wave → Wave) : (s.onWave f).msi = s.msi := rfl
@[simp] theorem onWave_seqSeen (s : State) (f : Wave → Wave) : (s.onWave f).seqSeen = s.seqSeen := rfl
@[simp] theorem onWave_heldPackets (s : State) (f : Wave → Wave) : (s.onWave f).heldPackets = s.heldPackets := rfl
@[simp] theorem onWave_poolGroups (s : State) (f : Wave → Wave) : (s.onWave f).poolGroups = s.poolGroups := rfl
@[simp] theorem onWave_dirOld (s : State) (f : Wave → Wave) : (s.onWave f).dirOld = s.dirOld := rfl

/-! ## onPa -/

@[simp] theorem onPa_agenda (s : State) (f : PathSt → PathSt) : (s.onPa f).agenda = s.agenda := rfl
@[simp] theorem onPa_fresh (s : State) (f : PathSt → PathSt) : (s.onPa f).fresh = s.fresh := rfl
@[simp] theorem onPa_nextId (s : State) (f : PathSt → PathSt) : (s.onPa f).nextId = s.nextId := rfl
@[simp] theorem onPa_cw (s : State) (f : PathSt → PathSt) : (s.onPa f).cw = { s.cw with pa := f s.cw.pa } := rfl
@[simp] theorem onPa_waves (s : State) (f : PathSt → PathSt) : (s.onPa f).waves = s.waves := rfl
@[simp] theorem onPa_powered (s : State) (f : PathSt → PathSt) : (s.onPa f).powered = s.powered := rfl
@[simp] theorem onPa_clk (s : State) (f : PathSt → PathSt) : (s.onPa f).clk = s.clk := rfl
@[simp] theorem onPa_ref (s : State) (f : PathSt → PathSt) : (s.onPa f).ref = s.ref := rfl
@[simp] theorem onPa_tickClk (s : State) (f : PathSt → PathSt) : (s.onPa f).tickClk = s.tickClk := rfl
@[simp] theorem onPa_coreClk (s : State) (f : PathSt → PathSt) : (s.onPa f).coreClk = s.coreClk := rfl
@[simp] theorem onPa_launches (s : State) (f : PathSt → PathSt) : (s.onPa f).launches = s.launches := rfl
@[simp] theorem onPa_blocks (s : State) (f : PathSt → PathSt) : (s.onPa f).blocks = s.blocks := rfl
@[simp] theorem onPa_queues (s : State) (f : PathSt → PathSt) : (s.onPa f).queues = s.queues := rfl
@[simp] theorem onPa_gangs (s : State) (f : PathSt → PathSt) : (s.onPa f).gangs = s.gangs := rfl
@[simp] theorem onPa_accepted (s : State) (f : PathSt → PathSt) : (s.onPa f).accepted = s.accepted := rfl
@[simp] theorem onPa_rotation (s : State) (f : PathSt → PathSt) : (s.onPa f).rotation = s.rotation := rfl
@[simp] theorem onPa_hbm (s : State) (f : PathSt → PathSt) : (s.onPa f).hbm = s.hbm := rfl
@[simp] theorem onPa_host (s : State) (f : PathSt → PathSt) : (s.onPa f).host = s.host := rfl
@[simp] theorem onPa_undef (s : State) (f : PathSt → PathSt) : (s.onPa f).undef = s.undef := rfl
@[simp] theorem onPa_pool (s : State) (f : PathSt → PathSt) : (s.onPa f).pool = s.pool := rfl
@[simp] theorem onPa_peers (s : State) (f : PathSt → PathSt) : (s.onPa f).peers = s.peers := rfl
@[simp] theorem onPa_spd (s : State) (f : PathSt → PathSt) : (s.onPa f).spd = s.spd := rfl
@[simp] theorem onPa_gran (s : State) (f : PathSt → PathSt) : (s.onPa f).gran = s.gran := rfl
@[simp] theorem onPa_tiles (s : State) (f : PathSt → PathSt) : (s.onPa f).tiles = s.tiles := rfl
@[simp] theorem onPa_accm (s : State) (f : PathSt → PathSt) : (s.onPa f).accm = s.accm := rfl
@[simp] theorem onPa_banks (s : State) (f : PathSt → PathSt) : (s.onPa f).banks = s.banks := rfl
@[simp] theorem onPa_acts (s : State) (f : PathSt → PathSt) : (s.onPa f).acts = s.acts := rfl
@[simp] theorem onPa_tctl (s : State) (f : PathSt → PathSt) : (s.onPa f).tctl = s.tctl := rfl
@[simp] theorem onPa_absent (s : State) (f : PathSt → PathSt) : (s.onPa f).absent = s.absent := rfl
@[simp] theorem onPa_crossed (s : State) (f : PathSt → PathSt) : (s.onPa f).crossed = s.crossed := rfl
@[simp] theorem onPa_badWords (s : State) (f : PathSt → PathSt) : (s.onPa f).badWords = s.badWords := rfl
@[simp] theorem onPa_sectors (s : State) (f : PathSt → PathSt) : (s.onPa f).sectors = s.sectors := rfl
@[simp] theorem onPa_grants (s : State) (f : PathSt → PathSt) : (s.onPa f).grants = s.grants := rfl
@[simp] theorem onPa_barriers (s : State) (f : PathSt → PathSt) : (s.onPa f).barriers = s.barriers := rfl
@[simp] theorem onPa_fragWriters (s : State) (f : PathSt → PathSt) : (s.onPa f).fragWriters = s.fragWriters := rfl
@[simp] theorem onPa_tileWrites (s : State) (f : PathSt → PathSt) : (s.onPa f).tileWrites = s.tileWrites := rfl
@[simp] theorem onPa_pairWrites (s : State) (f : PathSt → PathSt) : (s.onPa f).pairWrites = s.pairWrites := rfl
@[simp] theorem onPa_tlb (s : State) (f : PathSt → PathSt) : (s.onPa f).tlb = s.tlb := rfl
@[simp] theorem onPa_filters (s : State) (f : PathSt → PathSt) : (s.onPa f).filters = s.filters := rfl
@[simp] theorem onPa_accs (s : State) (f : PathSt → PathSt) : (s.onPa f).accs = s.accs := rfl
@[simp] theorem onPa_ops (s : State) (f : PathSt → PathSt) : (s.onPa f).ops = s.ops := rfl
@[simp] theorem onPa_misses (s : State) (f : PathSt → PathSt) : (s.onPa f).misses = s.misses := rfl
@[simp] theorem onPa_devMissed (s : State) (f : PathSt → PathSt) : (s.onPa f).devMissed = s.devMissed := rfl
@[simp] theorem onPa_devDenied (s : State) (f : PathSt → PathSt) : (s.onPa f).devDenied = s.devDenied := rfl
@[simp] theorem onPa_tasks (s : State) (f : PathSt → PathSt) : (s.onPa f).tasks = s.tasks := rfl
@[simp] theorem onPa_gather (s : State) (f : PathSt → PathSt) : (s.onPa f).gather = s.gather := rfl
@[simp] theorem onPa_coreSt (s : State) (f : PathSt → PathSt) : (s.onPa f).coreSt = s.coreSt := rfl
@[simp] theorem onPa_ptp (s : State) (f : PathSt → PathSt) : (s.onPa f).ptp = s.ptp := rfl
@[simp] theorem onPa_ptpLocked (s : State) (f : PathSt → PathSt) : (s.onPa f).ptpLocked = s.ptpLocked := rfl
@[simp] theorem onPa_ptpHoldover (s : State) (f : PathSt → PathSt) : (s.onPa f).ptpHoldover = s.ptpHoldover := rfl
@[simp] theorem onPa_ptpSteps (s : State) (f : PathSt → PathSt) : (s.onPa f).ptpSteps = s.ptpSteps := rfl
@[simp] theorem onPa_ptpStepBy (s : State) (f : PathSt → PathSt) : (s.onPa f).ptpStepBy = s.ptpStepBy := rfl
@[simp] theorem onPa_ptpSlew (s : State) (f : PathSt → PathSt) : (s.onPa f).ptpSlew = s.ptpSlew := rfl
@[simp] theorem onPa_ptpSlewAt (s : State) (f : PathSt → PathSt) : (s.onPa f).ptpSlewAt = s.ptpSlewAt := rfl
@[simp] theorem onPa_ptpOffset (s : State) (f : PathSt → PathSt) : (s.onPa f).ptpOffset = s.ptpOffset := rfl
@[simp] theorem onPa_triggers (s : State) (f : PathSt → PathSt) : (s.onPa f).triggers = s.triggers := rfl
@[simp] theorem onPa_trigAt (s : State) (f : PathSt → PathSt) : (s.onPa f).trigAt = s.trigAt := rfl
@[simp] theorem onPa_stewardSubs (s : State) (f : PathSt → PathSt) : (s.onPa f).stewardSubs = s.stewardSubs := rfl
@[simp] theorem onPa_depsDue (s : State) (f : PathSt → PathSt) : (s.onPa f).depsDue = s.depsDue := rfl
@[simp] theorem onPa_streams (s : State) (f : PathSt → PathSt) : (s.onPa f).streams = s.streams := rfl
@[simp] theorem onPa_snapClear (s : State) (f : PathSt → PathSt) : (s.onPa f).snapClear = s.snapClear := rfl
@[simp] theorem onPa_bar (s : State) (f : PathSt → PathSt) : (s.onPa f).bar = s.bar := rfl
@[simp] theorem onPa_mbdata (s : State) (f : PathSt → PathSt) : (s.onPa f).mbdata = s.mbdata := rfl
@[simp] theorem onPa_mbCmd (s : State) (f : PathSt → PathSt) : (s.onPa f).mbCmd = s.mbCmd := rfl
@[simp] theorem onPa_granSeed (s : State) (f : PathSt → PathSt) : (s.onPa f).granSeed = s.granSeed := rfl
@[simp] theorem onPa_evlog (s : State) (f : PathSt → PathSt) : (s.onPa f).evlog = s.evlog := rfl
@[simp] theorem onPa_logPersisted (s : State) (f : PathSt → PathSt) : (s.onPa f).logPersisted = s.logPersisted := rfl
@[simp] theorem onPa_fw (s : State) (f : PathSt → PathSt) : (s.onPa f).fw = s.fw := rfl
@[simp] theorem onPa_meas (s : State) (f : PathSt → PathSt) : (s.onPa f).meas = s.meas := rfl
@[simp] theorem onPa_msi (s : State) (f : PathSt → PathSt) : (s.onPa f).msi = s.msi := rfl
@[simp] theorem onPa_seqSeen (s : State) (f : PathSt → PathSt) : (s.onPa f).seqSeen = s.seqSeen := rfl
@[simp] theorem onPa_heldPackets (s : State) (f : PathSt → PathSt) : (s.onPa f).heldPackets = s.heldPackets := rfl
@[simp] theorem onPa_poolGroups (s : State) (f : PathSt → PathSt) : (s.onPa f).poolGroups = s.poolGroups := rfl
@[simp] theorem onPa_dirOld (s : State) (f : PathSt → PathSt) : (s.onPa f).dirOld = s.dirOld := rfl

/-! ## draw -/

@[simp] theorem draw_agenda (s : State) : s.draw.2.agenda = s.agenda := rfl
@[simp] theorem draw_fresh (s : State) : s.draw.2.fresh = s.fresh + 1 := rfl
@[simp] theorem draw_nextId (s : State) : s.draw.2.nextId = s.nextId := rfl
@[simp] theorem draw_cw (s : State) : s.draw.2.cw = s.cw := rfl
@[simp] theorem draw_waves (s : State) : s.draw.2.waves = s.waves := rfl
@[simp] theorem draw_powered (s : State) : s.draw.2.powered = s.powered := rfl
@[simp] theorem draw_clk (s : State) : s.draw.2.clk = s.clk := rfl
@[simp] theorem draw_ref (s : State) : s.draw.2.ref = s.ref := rfl
@[simp] theorem draw_tickClk (s : State) : s.draw.2.tickClk = s.tickClk := rfl
@[simp] theorem draw_coreClk (s : State) : s.draw.2.coreClk = s.coreClk := rfl
@[simp] theorem draw_launches (s : State) : s.draw.2.launches = s.launches := rfl
@[simp] theorem draw_blocks (s : State) : s.draw.2.blocks = s.blocks := rfl
@[simp] theorem draw_queues (s : State) : s.draw.2.queues = s.queues := rfl
@[simp] theorem draw_gangs (s : State) : s.draw.2.gangs = s.gangs := rfl
@[simp] theorem draw_accepted (s : State) : s.draw.2.accepted = s.accepted := rfl
@[simp] theorem draw_rotation (s : State) : s.draw.2.rotation = s.rotation := rfl
@[simp] theorem draw_hbm (s : State) : s.draw.2.hbm = s.hbm := rfl
@[simp] theorem draw_host (s : State) : s.draw.2.host = s.host := rfl
@[simp] theorem draw_undef (s : State) : s.draw.2.undef = s.undef := rfl
@[simp] theorem draw_pool (s : State) : s.draw.2.pool = s.pool := rfl
@[simp] theorem draw_peers (s : State) : s.draw.2.peers = s.peers := rfl
@[simp] theorem draw_spd (s : State) : s.draw.2.spd = s.spd := rfl
@[simp] theorem draw_gran (s : State) : s.draw.2.gran = s.gran := rfl
@[simp] theorem draw_tiles (s : State) : s.draw.2.tiles = s.tiles := rfl
@[simp] theorem draw_accm (s : State) : s.draw.2.accm = s.accm := rfl
@[simp] theorem draw_banks (s : State) : s.draw.2.banks = s.banks := rfl
@[simp] theorem draw_acts (s : State) : s.draw.2.acts = s.acts := rfl
@[simp] theorem draw_tctl (s : State) : s.draw.2.tctl = s.tctl := rfl
@[simp] theorem draw_absent (s : State) : s.draw.2.absent = s.absent := rfl
@[simp] theorem draw_crossed (s : State) : s.draw.2.crossed = s.crossed := rfl
@[simp] theorem draw_badWords (s : State) : s.draw.2.badWords = s.badWords := rfl
@[simp] theorem draw_sectors (s : State) : s.draw.2.sectors = s.sectors := rfl
@[simp] theorem draw_grants (s : State) : s.draw.2.grants = s.grants := rfl
@[simp] theorem draw_barriers (s : State) : s.draw.2.barriers = s.barriers := rfl
@[simp] theorem draw_fragWriters (s : State) : s.draw.2.fragWriters = s.fragWriters := rfl
@[simp] theorem draw_tileWrites (s : State) : s.draw.2.tileWrites = s.tileWrites := rfl
@[simp] theorem draw_pairWrites (s : State) : s.draw.2.pairWrites = s.pairWrites := rfl
@[simp] theorem draw_tlb (s : State) : s.draw.2.tlb = s.tlb := rfl
@[simp] theorem draw_filters (s : State) : s.draw.2.filters = s.filters := rfl
@[simp] theorem draw_accs (s : State) : s.draw.2.accs = s.accs := rfl
@[simp] theorem draw_ops (s : State) : s.draw.2.ops = s.ops := rfl
@[simp] theorem draw_misses (s : State) : s.draw.2.misses = s.misses := rfl
@[simp] theorem draw_devMissed (s : State) : s.draw.2.devMissed = s.devMissed := rfl
@[simp] theorem draw_devDenied (s : State) : s.draw.2.devDenied = s.devDenied := rfl
@[simp] theorem draw_tasks (s : State) : s.draw.2.tasks = s.tasks := rfl
@[simp] theorem draw_gather (s : State) : s.draw.2.gather = s.gather := rfl
@[simp] theorem draw_coreSt (s : State) : s.draw.2.coreSt = s.coreSt := rfl
@[simp] theorem draw_ptp (s : State) : s.draw.2.ptp = s.ptp := rfl
@[simp] theorem draw_ptpLocked (s : State) : s.draw.2.ptpLocked = s.ptpLocked := rfl
@[simp] theorem draw_ptpHoldover (s : State) : s.draw.2.ptpHoldover = s.ptpHoldover := rfl
@[simp] theorem draw_ptpSteps (s : State) : s.draw.2.ptpSteps = s.ptpSteps := rfl
@[simp] theorem draw_ptpStepBy (s : State) : s.draw.2.ptpStepBy = s.ptpStepBy := rfl
@[simp] theorem draw_ptpSlew (s : State) : s.draw.2.ptpSlew = s.ptpSlew := rfl
@[simp] theorem draw_ptpSlewAt (s : State) : s.draw.2.ptpSlewAt = s.ptpSlewAt := rfl
@[simp] theorem draw_ptpOffset (s : State) : s.draw.2.ptpOffset = s.ptpOffset := rfl
@[simp] theorem draw_triggers (s : State) : s.draw.2.triggers = s.triggers := rfl
@[simp] theorem draw_trigAt (s : State) : s.draw.2.trigAt = s.trigAt := rfl
@[simp] theorem draw_stewardSubs (s : State) : s.draw.2.stewardSubs = s.stewardSubs := rfl
@[simp] theorem draw_depsDue (s : State) : s.draw.2.depsDue = s.depsDue := rfl
@[simp] theorem draw_streams (s : State) : s.draw.2.streams = s.streams := rfl
@[simp] theorem draw_snapClear (s : State) : s.draw.2.snapClear = s.snapClear := rfl
@[simp] theorem draw_bar (s : State) : s.draw.2.bar = s.bar := rfl
@[simp] theorem draw_mbdata (s : State) : s.draw.2.mbdata = s.mbdata := rfl
@[simp] theorem draw_mbCmd (s : State) : s.draw.2.mbCmd = s.mbCmd := rfl
@[simp] theorem draw_granSeed (s : State) : s.draw.2.granSeed = s.granSeed := rfl
@[simp] theorem draw_evlog (s : State) : s.draw.2.evlog = s.evlog := rfl
@[simp] theorem draw_logPersisted (s : State) : s.draw.2.logPersisted = s.logPersisted := rfl
@[simp] theorem draw_fw (s : State) : s.draw.2.fw = s.fw := rfl
@[simp] theorem draw_meas (s : State) : s.draw.2.meas = s.meas := rfl
@[simp] theorem draw_msi (s : State) : s.draw.2.msi = s.msi := rfl
@[simp] theorem draw_seqSeen (s : State) : s.draw.2.seqSeen = s.seqSeen := rfl
@[simp] theorem draw_heldPackets (s : State) : s.draw.2.heldPackets = s.heldPackets := rfl
@[simp] theorem draw_poolGroups (s : State) : s.draw.2.poolGroups = s.poolGroups := rfl
@[simp] theorem draw_dirOld (s : State) : s.draw.2.dirOld = s.dirOld := rfl

/-! ## newId -/

@[simp] theorem newId_agenda (s : State) : s.newId.2.agenda = s.agenda := rfl
@[simp] theorem newId_fresh (s : State) : s.newId.2.fresh = s.fresh := rfl
@[simp] theorem newId_nextId (s : State) : s.newId.2.nextId = s.nextId + 1 := rfl
@[simp] theorem newId_cw (s : State) : s.newId.2.cw = s.cw := rfl
@[simp] theorem newId_waves (s : State) : s.newId.2.waves = s.waves := rfl
@[simp] theorem newId_powered (s : State) : s.newId.2.powered = s.powered := rfl
@[simp] theorem newId_clk (s : State) : s.newId.2.clk = s.clk := rfl
@[simp] theorem newId_ref (s : State) : s.newId.2.ref = s.ref := rfl
@[simp] theorem newId_tickClk (s : State) : s.newId.2.tickClk = s.tickClk := rfl
@[simp] theorem newId_coreClk (s : State) : s.newId.2.coreClk = s.coreClk := rfl
@[simp] theorem newId_launches (s : State) : s.newId.2.launches = s.launches := rfl
@[simp] theorem newId_blocks (s : State) : s.newId.2.blocks = s.blocks := rfl
@[simp] theorem newId_queues (s : State) : s.newId.2.queues = s.queues := rfl
@[simp] theorem newId_gangs (s : State) : s.newId.2.gangs = s.gangs := rfl
@[simp] theorem newId_accepted (s : State) : s.newId.2.accepted = s.accepted := rfl
@[simp] theorem newId_rotation (s : State) : s.newId.2.rotation = s.rotation := rfl
@[simp] theorem newId_hbm (s : State) : s.newId.2.hbm = s.hbm := rfl
@[simp] theorem newId_host (s : State) : s.newId.2.host = s.host := rfl
@[simp] theorem newId_undef (s : State) : s.newId.2.undef = s.undef := rfl
@[simp] theorem newId_pool (s : State) : s.newId.2.pool = s.pool := rfl
@[simp] theorem newId_peers (s : State) : s.newId.2.peers = s.peers := rfl
@[simp] theorem newId_spd (s : State) : s.newId.2.spd = s.spd := rfl
@[simp] theorem newId_gran (s : State) : s.newId.2.gran = s.gran := rfl
@[simp] theorem newId_tiles (s : State) : s.newId.2.tiles = s.tiles := rfl
@[simp] theorem newId_accm (s : State) : s.newId.2.accm = s.accm := rfl
@[simp] theorem newId_banks (s : State) : s.newId.2.banks = s.banks := rfl
@[simp] theorem newId_acts (s : State) : s.newId.2.acts = s.acts := rfl
@[simp] theorem newId_tctl (s : State) : s.newId.2.tctl = s.tctl := rfl
@[simp] theorem newId_absent (s : State) : s.newId.2.absent = s.absent := rfl
@[simp] theorem newId_crossed (s : State) : s.newId.2.crossed = s.crossed := rfl
@[simp] theorem newId_badWords (s : State) : s.newId.2.badWords = s.badWords := rfl
@[simp] theorem newId_sectors (s : State) : s.newId.2.sectors = s.sectors := rfl
@[simp] theorem newId_grants (s : State) : s.newId.2.grants = s.grants := rfl
@[simp] theorem newId_barriers (s : State) : s.newId.2.barriers = s.barriers := rfl
@[simp] theorem newId_fragWriters (s : State) : s.newId.2.fragWriters = s.fragWriters := rfl
@[simp] theorem newId_tileWrites (s : State) : s.newId.2.tileWrites = s.tileWrites := rfl
@[simp] theorem newId_pairWrites (s : State) : s.newId.2.pairWrites = s.pairWrites := rfl
@[simp] theorem newId_tlb (s : State) : s.newId.2.tlb = s.tlb := rfl
@[simp] theorem newId_filters (s : State) : s.newId.2.filters = s.filters := rfl
@[simp] theorem newId_accs (s : State) : s.newId.2.accs = s.accs := rfl
@[simp] theorem newId_ops (s : State) : s.newId.2.ops = s.ops := rfl
@[simp] theorem newId_misses (s : State) : s.newId.2.misses = s.misses := rfl
@[simp] theorem newId_devMissed (s : State) : s.newId.2.devMissed = s.devMissed := rfl
@[simp] theorem newId_devDenied (s : State) : s.newId.2.devDenied = s.devDenied := rfl
@[simp] theorem newId_tasks (s : State) : s.newId.2.tasks = s.tasks := rfl
@[simp] theorem newId_gather (s : State) : s.newId.2.gather = s.gather := rfl
@[simp] theorem newId_coreSt (s : State) : s.newId.2.coreSt = s.coreSt := rfl
@[simp] theorem newId_ptp (s : State) : s.newId.2.ptp = s.ptp := rfl
@[simp] theorem newId_ptpLocked (s : State) : s.newId.2.ptpLocked = s.ptpLocked := rfl
@[simp] theorem newId_ptpHoldover (s : State) : s.newId.2.ptpHoldover = s.ptpHoldover := rfl
@[simp] theorem newId_ptpSteps (s : State) : s.newId.2.ptpSteps = s.ptpSteps := rfl
@[simp] theorem newId_ptpStepBy (s : State) : s.newId.2.ptpStepBy = s.ptpStepBy := rfl
@[simp] theorem newId_ptpSlew (s : State) : s.newId.2.ptpSlew = s.ptpSlew := rfl
@[simp] theorem newId_ptpSlewAt (s : State) : s.newId.2.ptpSlewAt = s.ptpSlewAt := rfl
@[simp] theorem newId_ptpOffset (s : State) : s.newId.2.ptpOffset = s.ptpOffset := rfl
@[simp] theorem newId_triggers (s : State) : s.newId.2.triggers = s.triggers := rfl
@[simp] theorem newId_trigAt (s : State) : s.newId.2.trigAt = s.trigAt := rfl
@[simp] theorem newId_stewardSubs (s : State) : s.newId.2.stewardSubs = s.stewardSubs := rfl
@[simp] theorem newId_depsDue (s : State) : s.newId.2.depsDue = s.depsDue := rfl
@[simp] theorem newId_streams (s : State) : s.newId.2.streams = s.streams := rfl
@[simp] theorem newId_snapClear (s : State) : s.newId.2.snapClear = s.snapClear := rfl
@[simp] theorem newId_bar (s : State) : s.newId.2.bar = s.bar := rfl
@[simp] theorem newId_mbdata (s : State) : s.newId.2.mbdata = s.mbdata := rfl
@[simp] theorem newId_mbCmd (s : State) : s.newId.2.mbCmd = s.mbCmd := rfl
@[simp] theorem newId_granSeed (s : State) : s.newId.2.granSeed = s.granSeed := rfl
@[simp] theorem newId_evlog (s : State) : s.newId.2.evlog = s.evlog := rfl
@[simp] theorem newId_logPersisted (s : State) : s.newId.2.logPersisted = s.logPersisted := rfl
@[simp] theorem newId_fw (s : State) : s.newId.2.fw = s.fw := rfl
@[simp] theorem newId_meas (s : State) : s.newId.2.meas = s.meas := rfl
@[simp] theorem newId_msi (s : State) : s.newId.2.msi = s.msi := rfl
@[simp] theorem newId_seqSeen (s : State) : s.newId.2.seqSeen = s.seqSeen := rfl
@[simp] theorem newId_heldPackets (s : State) : s.newId.2.heldPackets = s.heldPackets := rfl
@[simp] theorem newId_poolGroups (s : State) : s.newId.2.poolGroups = s.poolGroups := rfl
@[simp] theorem newId_dirOld (s : State) : s.newId.2.dirOld = s.dirOld := rfl

/-! ## setBar -/

@[simp] theorem setBar_agenda (s : State) (off x : Nat) : (s.setBar off x).agenda = s.agenda := rfl
@[simp] theorem setBar_fresh (s : State) (off x : Nat) : (s.setBar off x).fresh = s.fresh := rfl
@[simp] theorem setBar_nextId (s : State) (off x : Nat) : (s.setBar off x).nextId = s.nextId := rfl
@[simp] theorem setBar_cw (s : State) (off x : Nat) : (s.setBar off x).cw = s.cw := rfl
@[simp] theorem setBar_waves (s : State) (off x : Nat) : (s.setBar off x).waves = s.waves := rfl
@[simp] theorem setBar_powered (s : State) (off x : Nat) : (s.setBar off x).powered = s.powered := rfl
@[simp] theorem setBar_clk (s : State) (off x : Nat) : (s.setBar off x).clk = s.clk := rfl
@[simp] theorem setBar_ref (s : State) (off x : Nat) : (s.setBar off x).ref = s.ref := rfl
@[simp] theorem setBar_tickClk (s : State) (off x : Nat) : (s.setBar off x).tickClk = s.tickClk := rfl
@[simp] theorem setBar_coreClk (s : State) (off x : Nat) : (s.setBar off x).coreClk = s.coreClk := rfl
@[simp] theorem setBar_launches (s : State) (off x : Nat) : (s.setBar off x).launches = s.launches := rfl
@[simp] theorem setBar_blocks (s : State) (off x : Nat) : (s.setBar off x).blocks = s.blocks := rfl
@[simp] theorem setBar_queues (s : State) (off x : Nat) : (s.setBar off x).queues = s.queues := rfl
@[simp] theorem setBar_gangs (s : State) (off x : Nat) : (s.setBar off x).gangs = s.gangs := rfl
@[simp] theorem setBar_accepted (s : State) (off x : Nat) : (s.setBar off x).accepted = s.accepted := rfl
@[simp] theorem setBar_rotation (s : State) (off x : Nat) : (s.setBar off x).rotation = s.rotation := rfl
@[simp] theorem setBar_hbm (s : State) (off x : Nat) : (s.setBar off x).hbm = s.hbm := rfl
@[simp] theorem setBar_host (s : State) (off x : Nat) : (s.setBar off x).host = s.host := rfl
@[simp] theorem setBar_undef (s : State) (off x : Nat) : (s.setBar off x).undef = s.undef := rfl
@[simp] theorem setBar_pool (s : State) (off x : Nat) : (s.setBar off x).pool = s.pool := rfl
@[simp] theorem setBar_peers (s : State) (off x : Nat) : (s.setBar off x).peers = s.peers := rfl
@[simp] theorem setBar_spd (s : State) (off x : Nat) : (s.setBar off x).spd = s.spd := rfl
@[simp] theorem setBar_gran (s : State) (off x : Nat) : (s.setBar off x).gran = s.gran := rfl
@[simp] theorem setBar_tiles (s : State) (off x : Nat) : (s.setBar off x).tiles = s.tiles := rfl
@[simp] theorem setBar_accm (s : State) (off x : Nat) : (s.setBar off x).accm = s.accm := rfl
@[simp] theorem setBar_banks (s : State) (off x : Nat) : (s.setBar off x).banks = s.banks := rfl
@[simp] theorem setBar_acts (s : State) (off x : Nat) : (s.setBar off x).acts = s.acts := rfl
@[simp] theorem setBar_tctl (s : State) (off x : Nat) : (s.setBar off x).tctl = s.tctl := rfl
@[simp] theorem setBar_absent (s : State) (off x : Nat) : (s.setBar off x).absent = s.absent := rfl
@[simp] theorem setBar_crossed (s : State) (off x : Nat) : (s.setBar off x).crossed = s.crossed := rfl
@[simp] theorem setBar_badWords (s : State) (off x : Nat) : (s.setBar off x).badWords = s.badWords := rfl
@[simp] theorem setBar_sectors (s : State) (off x : Nat) : (s.setBar off x).sectors = s.sectors := rfl
@[simp] theorem setBar_grants (s : State) (off x : Nat) : (s.setBar off x).grants = s.grants := rfl
@[simp] theorem setBar_barriers (s : State) (off x : Nat) : (s.setBar off x).barriers = s.barriers := rfl
@[simp] theorem setBar_fragWriters (s : State) (off x : Nat) : (s.setBar off x).fragWriters = s.fragWriters := rfl
@[simp] theorem setBar_tileWrites (s : State) (off x : Nat) : (s.setBar off x).tileWrites = s.tileWrites := rfl
@[simp] theorem setBar_pairWrites (s : State) (off x : Nat) : (s.setBar off x).pairWrites = s.pairWrites := rfl
@[simp] theorem setBar_tlb (s : State) (off x : Nat) : (s.setBar off x).tlb = s.tlb := rfl
@[simp] theorem setBar_filters (s : State) (off x : Nat) : (s.setBar off x).filters = s.filters := rfl
@[simp] theorem setBar_accs (s : State) (off x : Nat) : (s.setBar off x).accs = s.accs := rfl
@[simp] theorem setBar_ops (s : State) (off x : Nat) : (s.setBar off x).ops = s.ops := rfl
@[simp] theorem setBar_misses (s : State) (off x : Nat) : (s.setBar off x).misses = s.misses := rfl
@[simp] theorem setBar_devMissed (s : State) (off x : Nat) : (s.setBar off x).devMissed = s.devMissed := rfl
@[simp] theorem setBar_devDenied (s : State) (off x : Nat) : (s.setBar off x).devDenied = s.devDenied := rfl
@[simp] theorem setBar_tasks (s : State) (off x : Nat) : (s.setBar off x).tasks = s.tasks := rfl
@[simp] theorem setBar_gather (s : State) (off x : Nat) : (s.setBar off x).gather = s.gather := rfl
@[simp] theorem setBar_coreSt (s : State) (off x : Nat) : (s.setBar off x).coreSt = s.coreSt := rfl
@[simp] theorem setBar_ptp (s : State) (off x : Nat) : (s.setBar off x).ptp = s.ptp := rfl
@[simp] theorem setBar_ptpLocked (s : State) (off x : Nat) : (s.setBar off x).ptpLocked = s.ptpLocked := rfl
@[simp] theorem setBar_ptpHoldover (s : State) (off x : Nat) : (s.setBar off x).ptpHoldover = s.ptpHoldover := rfl
@[simp] theorem setBar_ptpSteps (s : State) (off x : Nat) : (s.setBar off x).ptpSteps = s.ptpSteps := rfl
@[simp] theorem setBar_ptpStepBy (s : State) (off x : Nat) : (s.setBar off x).ptpStepBy = s.ptpStepBy := rfl
@[simp] theorem setBar_ptpSlew (s : State) (off x : Nat) : (s.setBar off x).ptpSlew = s.ptpSlew := rfl
@[simp] theorem setBar_ptpSlewAt (s : State) (off x : Nat) : (s.setBar off x).ptpSlewAt = s.ptpSlewAt := rfl
@[simp] theorem setBar_ptpOffset (s : State) (off x : Nat) : (s.setBar off x).ptpOffset = s.ptpOffset := rfl
@[simp] theorem setBar_triggers (s : State) (off x : Nat) : (s.setBar off x).triggers = s.triggers := rfl
@[simp] theorem setBar_trigAt (s : State) (off x : Nat) : (s.setBar off x).trigAt = s.trigAt := rfl
@[simp] theorem setBar_stewardSubs (s : State) (off x : Nat) : (s.setBar off x).stewardSubs = s.stewardSubs := rfl
@[simp] theorem setBar_depsDue (s : State) (off x : Nat) : (s.setBar off x).depsDue = s.depsDue := rfl
@[simp] theorem setBar_streams (s : State) (off x : Nat) : (s.setBar off x).streams = s.streams := rfl
@[simp] theorem setBar_snapClear (s : State) (off x : Nat) : (s.setBar off x).snapClear = s.snapClear := rfl
@[simp] theorem setBar_bar (s : State) (off x : Nat) : (s.setBar off x).bar = SMap.set s.bar off (x % 2 ^ 64) := rfl
@[simp] theorem setBar_mbdata (s : State) (off x : Nat) : (s.setBar off x).mbdata = s.mbdata := rfl
@[simp] theorem setBar_mbCmd (s : State) (off x : Nat) : (s.setBar off x).mbCmd = s.mbCmd := rfl
@[simp] theorem setBar_granSeed (s : State) (off x : Nat) : (s.setBar off x).granSeed = s.granSeed := rfl
@[simp] theorem setBar_evlog (s : State) (off x : Nat) : (s.setBar off x).evlog = s.evlog := rfl
@[simp] theorem setBar_logPersisted (s : State) (off x : Nat) : (s.setBar off x).logPersisted = s.logPersisted := rfl
@[simp] theorem setBar_fw (s : State) (off x : Nat) : (s.setBar off x).fw = s.fw := rfl
@[simp] theorem setBar_meas (s : State) (off x : Nat) : (s.setBar off x).meas = s.meas := rfl
@[simp] theorem setBar_msi (s : State) (off x : Nat) : (s.setBar off x).msi = s.msi := rfl
@[simp] theorem setBar_seqSeen (s : State) (off x : Nat) : (s.setBar off x).seqSeen = s.seqSeen := rfl
@[simp] theorem setBar_heldPackets (s : State) (off x : Nat) : (s.setBar off x).heldPackets = s.heldPackets := rfl
@[simp] theorem setBar_poolGroups (s : State) (off x : Nat) : (s.setBar off x).poolGroups = s.poolGroups := rfl
@[simp] theorem setBar_dirOld (s : State) (off x : Nat) : (s.setBar off x).dirOld = s.dirOld := rfl

/-! ## modLaunch -/

@[simp] theorem modLaunch_agenda (s : State) (id : Nat) (f : Launch → Launch) : (s.modLaunch id f).agenda = s.agenda := rfl
@[simp] theorem modLaunch_fresh (s : State) (id : Nat) (f : Launch → Launch) : (s.modLaunch id f).fresh = s.fresh := rfl
@[simp] theorem modLaunch_nextId (s : State) (id : Nat) (f : Launch → Launch) : (s.modLaunch id f).nextId = s.nextId := rfl
@[simp] theorem modLaunch_cw (s : State) (id : Nat) (f : Launch → Launch) : (s.modLaunch id f).cw = s.cw := rfl
@[simp] theorem modLaunch_waves (s : State) (id : Nat) (f : Launch → Launch) : (s.modLaunch id f).waves = s.waves := rfl
@[simp] theorem modLaunch_powered (s : State) (id : Nat) (f : Launch → Launch) : (s.modLaunch id f).powered = s.powered := rfl
@[simp] theorem modLaunch_clk (s : State) (id : Nat) (f : Launch → Launch) : (s.modLaunch id f).clk = s.clk := rfl
@[simp] theorem modLaunch_ref (s : State) (id : Nat) (f : Launch → Launch) : (s.modLaunch id f).ref = s.ref := rfl
@[simp] theorem modLaunch_tickClk (s : State) (id : Nat) (f : Launch → Launch) : (s.modLaunch id f).tickClk = s.tickClk := rfl
@[simp] theorem modLaunch_coreClk (s : State) (id : Nat) (f : Launch → Launch) : (s.modLaunch id f).coreClk = s.coreClk := rfl
@[simp] theorem modLaunch_launches (s : State) (id : Nat) (f : Launch → Launch) : (s.modLaunch id f).launches = SMap.modify s.launches id f := rfl
@[simp] theorem modLaunch_blocks (s : State) (id : Nat) (f : Launch → Launch) : (s.modLaunch id f).blocks = s.blocks := rfl
@[simp] theorem modLaunch_queues (s : State) (id : Nat) (f : Launch → Launch) : (s.modLaunch id f).queues = s.queues := rfl
@[simp] theorem modLaunch_gangs (s : State) (id : Nat) (f : Launch → Launch) : (s.modLaunch id f).gangs = s.gangs := rfl
@[simp] theorem modLaunch_accepted (s : State) (id : Nat) (f : Launch → Launch) : (s.modLaunch id f).accepted = s.accepted := rfl
@[simp] theorem modLaunch_rotation (s : State) (id : Nat) (f : Launch → Launch) : (s.modLaunch id f).rotation = s.rotation := rfl
@[simp] theorem modLaunch_hbm (s : State) (id : Nat) (f : Launch → Launch) : (s.modLaunch id f).hbm = s.hbm := rfl
@[simp] theorem modLaunch_host (s : State) (id : Nat) (f : Launch → Launch) : (s.modLaunch id f).host = s.host := rfl
@[simp] theorem modLaunch_undef (s : State) (id : Nat) (f : Launch → Launch) : (s.modLaunch id f).undef = s.undef := rfl
@[simp] theorem modLaunch_pool (s : State) (id : Nat) (f : Launch → Launch) : (s.modLaunch id f).pool = s.pool := rfl
@[simp] theorem modLaunch_peers (s : State) (id : Nat) (f : Launch → Launch) : (s.modLaunch id f).peers = s.peers := rfl
@[simp] theorem modLaunch_spd (s : State) (id : Nat) (f : Launch → Launch) : (s.modLaunch id f).spd = s.spd := rfl
@[simp] theorem modLaunch_gran (s : State) (id : Nat) (f : Launch → Launch) : (s.modLaunch id f).gran = s.gran := rfl
@[simp] theorem modLaunch_tiles (s : State) (id : Nat) (f : Launch → Launch) : (s.modLaunch id f).tiles = s.tiles := rfl
@[simp] theorem modLaunch_accm (s : State) (id : Nat) (f : Launch → Launch) : (s.modLaunch id f).accm = s.accm := rfl
@[simp] theorem modLaunch_banks (s : State) (id : Nat) (f : Launch → Launch) : (s.modLaunch id f).banks = s.banks := rfl
@[simp] theorem modLaunch_acts (s : State) (id : Nat) (f : Launch → Launch) : (s.modLaunch id f).acts = s.acts := rfl
@[simp] theorem modLaunch_tctl (s : State) (id : Nat) (f : Launch → Launch) : (s.modLaunch id f).tctl = s.tctl := rfl
@[simp] theorem modLaunch_absent (s : State) (id : Nat) (f : Launch → Launch) : (s.modLaunch id f).absent = s.absent := rfl
@[simp] theorem modLaunch_crossed (s : State) (id : Nat) (f : Launch → Launch) : (s.modLaunch id f).crossed = s.crossed := rfl
@[simp] theorem modLaunch_badWords (s : State) (id : Nat) (f : Launch → Launch) : (s.modLaunch id f).badWords = s.badWords := rfl
@[simp] theorem modLaunch_sectors (s : State) (id : Nat) (f : Launch → Launch) : (s.modLaunch id f).sectors = s.sectors := rfl
@[simp] theorem modLaunch_grants (s : State) (id : Nat) (f : Launch → Launch) : (s.modLaunch id f).grants = s.grants := rfl
@[simp] theorem modLaunch_barriers (s : State) (id : Nat) (f : Launch → Launch) : (s.modLaunch id f).barriers = s.barriers := rfl
@[simp] theorem modLaunch_fragWriters (s : State) (id : Nat) (f : Launch → Launch) : (s.modLaunch id f).fragWriters = s.fragWriters := rfl
@[simp] theorem modLaunch_tileWrites (s : State) (id : Nat) (f : Launch → Launch) : (s.modLaunch id f).tileWrites = s.tileWrites := rfl
@[simp] theorem modLaunch_pairWrites (s : State) (id : Nat) (f : Launch → Launch) : (s.modLaunch id f).pairWrites = s.pairWrites := rfl
@[simp] theorem modLaunch_tlb (s : State) (id : Nat) (f : Launch → Launch) : (s.modLaunch id f).tlb = s.tlb := rfl
@[simp] theorem modLaunch_filters (s : State) (id : Nat) (f : Launch → Launch) : (s.modLaunch id f).filters = s.filters := rfl
@[simp] theorem modLaunch_accs (s : State) (id : Nat) (f : Launch → Launch) : (s.modLaunch id f).accs = s.accs := rfl
@[simp] theorem modLaunch_ops (s : State) (id : Nat) (f : Launch → Launch) : (s.modLaunch id f).ops = s.ops := rfl
@[simp] theorem modLaunch_misses (s : State) (id : Nat) (f : Launch → Launch) : (s.modLaunch id f).misses = s.misses := rfl
@[simp] theorem modLaunch_devMissed (s : State) (id : Nat) (f : Launch → Launch) : (s.modLaunch id f).devMissed = s.devMissed := rfl
@[simp] theorem modLaunch_devDenied (s : State) (id : Nat) (f : Launch → Launch) : (s.modLaunch id f).devDenied = s.devDenied := rfl
@[simp] theorem modLaunch_tasks (s : State) (id : Nat) (f : Launch → Launch) : (s.modLaunch id f).tasks = s.tasks := rfl
@[simp] theorem modLaunch_gather (s : State) (id : Nat) (f : Launch → Launch) : (s.modLaunch id f).gather = s.gather := rfl
@[simp] theorem modLaunch_coreSt (s : State) (id : Nat) (f : Launch → Launch) : (s.modLaunch id f).coreSt = s.coreSt := rfl
@[simp] theorem modLaunch_ptp (s : State) (id : Nat) (f : Launch → Launch) : (s.modLaunch id f).ptp = s.ptp := rfl
@[simp] theorem modLaunch_ptpLocked (s : State) (id : Nat) (f : Launch → Launch) : (s.modLaunch id f).ptpLocked = s.ptpLocked := rfl
@[simp] theorem modLaunch_ptpHoldover (s : State) (id : Nat) (f : Launch → Launch) : (s.modLaunch id f).ptpHoldover = s.ptpHoldover := rfl
@[simp] theorem modLaunch_ptpSteps (s : State) (id : Nat) (f : Launch → Launch) : (s.modLaunch id f).ptpSteps = s.ptpSteps := rfl
@[simp] theorem modLaunch_ptpStepBy (s : State) (id : Nat) (f : Launch → Launch) : (s.modLaunch id f).ptpStepBy = s.ptpStepBy := rfl
@[simp] theorem modLaunch_ptpSlew (s : State) (id : Nat) (f : Launch → Launch) : (s.modLaunch id f).ptpSlew = s.ptpSlew := rfl
@[simp] theorem modLaunch_ptpSlewAt (s : State) (id : Nat) (f : Launch → Launch) : (s.modLaunch id f).ptpSlewAt = s.ptpSlewAt := rfl
@[simp] theorem modLaunch_ptpOffset (s : State) (id : Nat) (f : Launch → Launch) : (s.modLaunch id f).ptpOffset = s.ptpOffset := rfl
@[simp] theorem modLaunch_triggers (s : State) (id : Nat) (f : Launch → Launch) : (s.modLaunch id f).triggers = s.triggers := rfl
@[simp] theorem modLaunch_trigAt (s : State) (id : Nat) (f : Launch → Launch) : (s.modLaunch id f).trigAt = s.trigAt := rfl
@[simp] theorem modLaunch_stewardSubs (s : State) (id : Nat) (f : Launch → Launch) : (s.modLaunch id f).stewardSubs = s.stewardSubs := rfl
@[simp] theorem modLaunch_depsDue (s : State) (id : Nat) (f : Launch → Launch) : (s.modLaunch id f).depsDue = s.depsDue := rfl
@[simp] theorem modLaunch_streams (s : State) (id : Nat) (f : Launch → Launch) : (s.modLaunch id f).streams = s.streams := rfl
@[simp] theorem modLaunch_snapClear (s : State) (id : Nat) (f : Launch → Launch) : (s.modLaunch id f).snapClear = s.snapClear := rfl
@[simp] theorem modLaunch_bar (s : State) (id : Nat) (f : Launch → Launch) : (s.modLaunch id f).bar = s.bar := rfl
@[simp] theorem modLaunch_mbdata (s : State) (id : Nat) (f : Launch → Launch) : (s.modLaunch id f).mbdata = s.mbdata := rfl
@[simp] theorem modLaunch_mbCmd (s : State) (id : Nat) (f : Launch → Launch) : (s.modLaunch id f).mbCmd = s.mbCmd := rfl
@[simp] theorem modLaunch_granSeed (s : State) (id : Nat) (f : Launch → Launch) : (s.modLaunch id f).granSeed = s.granSeed := rfl
@[simp] theorem modLaunch_evlog (s : State) (id : Nat) (f : Launch → Launch) : (s.modLaunch id f).evlog = s.evlog := rfl
@[simp] theorem modLaunch_logPersisted (s : State) (id : Nat) (f : Launch → Launch) : (s.modLaunch id f).logPersisted = s.logPersisted := rfl
@[simp] theorem modLaunch_fw (s : State) (id : Nat) (f : Launch → Launch) : (s.modLaunch id f).fw = s.fw := rfl
@[simp] theorem modLaunch_meas (s : State) (id : Nat) (f : Launch → Launch) : (s.modLaunch id f).meas = s.meas := rfl
@[simp] theorem modLaunch_msi (s : State) (id : Nat) (f : Launch → Launch) : (s.modLaunch id f).msi = s.msi := rfl
@[simp] theorem modLaunch_seqSeen (s : State) (id : Nat) (f : Launch → Launch) : (s.modLaunch id f).seqSeen = s.seqSeen := rfl
@[simp] theorem modLaunch_heldPackets (s : State) (id : Nat) (f : Launch → Launch) : (s.modLaunch id f).heldPackets = s.heldPackets := rfl
@[simp] theorem modLaunch_poolGroups (s : State) (id : Nat) (f : Launch → Launch) : (s.modLaunch id f).poolGroups = s.poolGroups := rfl
@[simp] theorem modLaunch_dirOld (s : State) (id : Nat) (f : Launch → Launch) : (s.modLaunch id f).dirOld = s.dirOld := rfl

/-! ## modBlock -/

@[simp] theorem modBlock_agenda (s : State) (id : Nat) (f : Block → Block) : (s.modBlock id f).agenda = s.agenda := rfl
@[simp] theorem modBlock_fresh (s : State) (id : Nat) (f : Block → Block) : (s.modBlock id f).fresh = s.fresh := rfl
@[simp] theorem modBlock_nextId (s : State) (id : Nat) (f : Block → Block) : (s.modBlock id f).nextId = s.nextId := rfl
@[simp] theorem modBlock_cw (s : State) (id : Nat) (f : Block → Block) : (s.modBlock id f).cw = s.cw := rfl
@[simp] theorem modBlock_waves (s : State) (id : Nat) (f : Block → Block) : (s.modBlock id f).waves = s.waves := rfl
@[simp] theorem modBlock_powered (s : State) (id : Nat) (f : Block → Block) : (s.modBlock id f).powered = s.powered := rfl
@[simp] theorem modBlock_clk (s : State) (id : Nat) (f : Block → Block) : (s.modBlock id f).clk = s.clk := rfl
@[simp] theorem modBlock_ref (s : State) (id : Nat) (f : Block → Block) : (s.modBlock id f).ref = s.ref := rfl
@[simp] theorem modBlock_tickClk (s : State) (id : Nat) (f : Block → Block) : (s.modBlock id f).tickClk = s.tickClk := rfl
@[simp] theorem modBlock_coreClk (s : State) (id : Nat) (f : Block → Block) : (s.modBlock id f).coreClk = s.coreClk := rfl
@[simp] theorem modBlock_launches (s : State) (id : Nat) (f : Block → Block) : (s.modBlock id f).launches = s.launches := rfl
@[simp] theorem modBlock_blocks (s : State) (id : Nat) (f : Block → Block) : (s.modBlock id f).blocks = SMap.modify s.blocks id f := rfl
@[simp] theorem modBlock_queues (s : State) (id : Nat) (f : Block → Block) : (s.modBlock id f).queues = s.queues := rfl
@[simp] theorem modBlock_gangs (s : State) (id : Nat) (f : Block → Block) : (s.modBlock id f).gangs = s.gangs := rfl
@[simp] theorem modBlock_accepted (s : State) (id : Nat) (f : Block → Block) : (s.modBlock id f).accepted = s.accepted := rfl
@[simp] theorem modBlock_rotation (s : State) (id : Nat) (f : Block → Block) : (s.modBlock id f).rotation = s.rotation := rfl
@[simp] theorem modBlock_hbm (s : State) (id : Nat) (f : Block → Block) : (s.modBlock id f).hbm = s.hbm := rfl
@[simp] theorem modBlock_host (s : State) (id : Nat) (f : Block → Block) : (s.modBlock id f).host = s.host := rfl
@[simp] theorem modBlock_undef (s : State) (id : Nat) (f : Block → Block) : (s.modBlock id f).undef = s.undef := rfl
@[simp] theorem modBlock_pool (s : State) (id : Nat) (f : Block → Block) : (s.modBlock id f).pool = s.pool := rfl
@[simp] theorem modBlock_peers (s : State) (id : Nat) (f : Block → Block) : (s.modBlock id f).peers = s.peers := rfl
@[simp] theorem modBlock_spd (s : State) (id : Nat) (f : Block → Block) : (s.modBlock id f).spd = s.spd := rfl
@[simp] theorem modBlock_gran (s : State) (id : Nat) (f : Block → Block) : (s.modBlock id f).gran = s.gran := rfl
@[simp] theorem modBlock_tiles (s : State) (id : Nat) (f : Block → Block) : (s.modBlock id f).tiles = s.tiles := rfl
@[simp] theorem modBlock_accm (s : State) (id : Nat) (f : Block → Block) : (s.modBlock id f).accm = s.accm := rfl
@[simp] theorem modBlock_banks (s : State) (id : Nat) (f : Block → Block) : (s.modBlock id f).banks = s.banks := rfl
@[simp] theorem modBlock_acts (s : State) (id : Nat) (f : Block → Block) : (s.modBlock id f).acts = s.acts := rfl
@[simp] theorem modBlock_tctl (s : State) (id : Nat) (f : Block → Block) : (s.modBlock id f).tctl = s.tctl := rfl
@[simp] theorem modBlock_absent (s : State) (id : Nat) (f : Block → Block) : (s.modBlock id f).absent = s.absent := rfl
@[simp] theorem modBlock_crossed (s : State) (id : Nat) (f : Block → Block) : (s.modBlock id f).crossed = s.crossed := rfl
@[simp] theorem modBlock_badWords (s : State) (id : Nat) (f : Block → Block) : (s.modBlock id f).badWords = s.badWords := rfl
@[simp] theorem modBlock_sectors (s : State) (id : Nat) (f : Block → Block) : (s.modBlock id f).sectors = s.sectors := rfl
@[simp] theorem modBlock_grants (s : State) (id : Nat) (f : Block → Block) : (s.modBlock id f).grants = s.grants := rfl
@[simp] theorem modBlock_barriers (s : State) (id : Nat) (f : Block → Block) : (s.modBlock id f).barriers = s.barriers := rfl
@[simp] theorem modBlock_fragWriters (s : State) (id : Nat) (f : Block → Block) : (s.modBlock id f).fragWriters = s.fragWriters := rfl
@[simp] theorem modBlock_tileWrites (s : State) (id : Nat) (f : Block → Block) : (s.modBlock id f).tileWrites = s.tileWrites := rfl
@[simp] theorem modBlock_pairWrites (s : State) (id : Nat) (f : Block → Block) : (s.modBlock id f).pairWrites = s.pairWrites := rfl
@[simp] theorem modBlock_tlb (s : State) (id : Nat) (f : Block → Block) : (s.modBlock id f).tlb = s.tlb := rfl
@[simp] theorem modBlock_filters (s : State) (id : Nat) (f : Block → Block) : (s.modBlock id f).filters = s.filters := rfl
@[simp] theorem modBlock_accs (s : State) (id : Nat) (f : Block → Block) : (s.modBlock id f).accs = s.accs := rfl
@[simp] theorem modBlock_ops (s : State) (id : Nat) (f : Block → Block) : (s.modBlock id f).ops = s.ops := rfl
@[simp] theorem modBlock_misses (s : State) (id : Nat) (f : Block → Block) : (s.modBlock id f).misses = s.misses := rfl
@[simp] theorem modBlock_devMissed (s : State) (id : Nat) (f : Block → Block) : (s.modBlock id f).devMissed = s.devMissed := rfl
@[simp] theorem modBlock_devDenied (s : State) (id : Nat) (f : Block → Block) : (s.modBlock id f).devDenied = s.devDenied := rfl
@[simp] theorem modBlock_tasks (s : State) (id : Nat) (f : Block → Block) : (s.modBlock id f).tasks = s.tasks := rfl
@[simp] theorem modBlock_gather (s : State) (id : Nat) (f : Block → Block) : (s.modBlock id f).gather = s.gather := rfl
@[simp] theorem modBlock_coreSt (s : State) (id : Nat) (f : Block → Block) : (s.modBlock id f).coreSt = s.coreSt := rfl
@[simp] theorem modBlock_ptp (s : State) (id : Nat) (f : Block → Block) : (s.modBlock id f).ptp = s.ptp := rfl
@[simp] theorem modBlock_ptpLocked (s : State) (id : Nat) (f : Block → Block) : (s.modBlock id f).ptpLocked = s.ptpLocked := rfl
@[simp] theorem modBlock_ptpHoldover (s : State) (id : Nat) (f : Block → Block) : (s.modBlock id f).ptpHoldover = s.ptpHoldover := rfl
@[simp] theorem modBlock_ptpSteps (s : State) (id : Nat) (f : Block → Block) : (s.modBlock id f).ptpSteps = s.ptpSteps := rfl
@[simp] theorem modBlock_ptpStepBy (s : State) (id : Nat) (f : Block → Block) : (s.modBlock id f).ptpStepBy = s.ptpStepBy := rfl
@[simp] theorem modBlock_ptpSlew (s : State) (id : Nat) (f : Block → Block) : (s.modBlock id f).ptpSlew = s.ptpSlew := rfl
@[simp] theorem modBlock_ptpSlewAt (s : State) (id : Nat) (f : Block → Block) : (s.modBlock id f).ptpSlewAt = s.ptpSlewAt := rfl
@[simp] theorem modBlock_ptpOffset (s : State) (id : Nat) (f : Block → Block) : (s.modBlock id f).ptpOffset = s.ptpOffset := rfl
@[simp] theorem modBlock_triggers (s : State) (id : Nat) (f : Block → Block) : (s.modBlock id f).triggers = s.triggers := rfl
@[simp] theorem modBlock_trigAt (s : State) (id : Nat) (f : Block → Block) : (s.modBlock id f).trigAt = s.trigAt := rfl
@[simp] theorem modBlock_stewardSubs (s : State) (id : Nat) (f : Block → Block) : (s.modBlock id f).stewardSubs = s.stewardSubs := rfl
@[simp] theorem modBlock_depsDue (s : State) (id : Nat) (f : Block → Block) : (s.modBlock id f).depsDue = s.depsDue := rfl
@[simp] theorem modBlock_streams (s : State) (id : Nat) (f : Block → Block) : (s.modBlock id f).streams = s.streams := rfl
@[simp] theorem modBlock_snapClear (s : State) (id : Nat) (f : Block → Block) : (s.modBlock id f).snapClear = s.snapClear := rfl
@[simp] theorem modBlock_bar (s : State) (id : Nat) (f : Block → Block) : (s.modBlock id f).bar = s.bar := rfl
@[simp] theorem modBlock_mbdata (s : State) (id : Nat) (f : Block → Block) : (s.modBlock id f).mbdata = s.mbdata := rfl
@[simp] theorem modBlock_mbCmd (s : State) (id : Nat) (f : Block → Block) : (s.modBlock id f).mbCmd = s.mbCmd := rfl
@[simp] theorem modBlock_granSeed (s : State) (id : Nat) (f : Block → Block) : (s.modBlock id f).granSeed = s.granSeed := rfl
@[simp] theorem modBlock_evlog (s : State) (id : Nat) (f : Block → Block) : (s.modBlock id f).evlog = s.evlog := rfl
@[simp] theorem modBlock_logPersisted (s : State) (id : Nat) (f : Block → Block) : (s.modBlock id f).logPersisted = s.logPersisted := rfl
@[simp] theorem modBlock_fw (s : State) (id : Nat) (f : Block → Block) : (s.modBlock id f).fw = s.fw := rfl
@[simp] theorem modBlock_meas (s : State) (id : Nat) (f : Block → Block) : (s.modBlock id f).meas = s.meas := rfl
@[simp] theorem modBlock_msi (s : State) (id : Nat) (f : Block → Block) : (s.modBlock id f).msi = s.msi := rfl
@[simp] theorem modBlock_seqSeen (s : State) (id : Nat) (f : Block → Block) : (s.modBlock id f).seqSeen = s.seqSeen := rfl
@[simp] theorem modBlock_heldPackets (s : State) (id : Nat) (f : Block → Block) : (s.modBlock id f).heldPackets = s.heldPackets := rfl
@[simp] theorem modBlock_poolGroups (s : State) (id : Nat) (f : Block → Block) : (s.modBlock id f).poolGroups = s.poolGroups := rfl
@[simp] theorem modBlock_dirOld (s : State) (id : Nat) (f : Block → Block) : (s.modBlock id f).dirOld = s.dirOld := rfl

/-! ## dropOp -/

@[simp] theorem dropOp_agenda (s : State) (id : Nat) : (s.dropOp id).agenda = s.agenda := rfl
@[simp] theorem dropOp_fresh (s : State) (id : Nat) : (s.dropOp id).fresh = s.fresh := rfl
@[simp] theorem dropOp_nextId (s : State) (id : Nat) : (s.dropOp id).nextId = s.nextId := rfl
@[simp] theorem dropOp_cw (s : State) (id : Nat) : (s.dropOp id).cw = s.cw := rfl
@[simp] theorem dropOp_waves (s : State) (id : Nat) : (s.dropOp id).waves = s.waves := rfl
@[simp] theorem dropOp_powered (s : State) (id : Nat) : (s.dropOp id).powered = s.powered := rfl
@[simp] theorem dropOp_clk (s : State) (id : Nat) : (s.dropOp id).clk = s.clk := rfl
@[simp] theorem dropOp_ref (s : State) (id : Nat) : (s.dropOp id).ref = s.ref := rfl
@[simp] theorem dropOp_tickClk (s : State) (id : Nat) : (s.dropOp id).tickClk = s.tickClk := rfl
@[simp] theorem dropOp_coreClk (s : State) (id : Nat) : (s.dropOp id).coreClk = s.coreClk := rfl
@[simp] theorem dropOp_launches (s : State) (id : Nat) : (s.dropOp id).launches = s.launches := rfl
@[simp] theorem dropOp_blocks (s : State) (id : Nat) : (s.dropOp id).blocks = s.blocks := rfl
@[simp] theorem dropOp_queues (s : State) (id : Nat) : (s.dropOp id).queues = s.queues := rfl
@[simp] theorem dropOp_gangs (s : State) (id : Nat) : (s.dropOp id).gangs = s.gangs := rfl
@[simp] theorem dropOp_accepted (s : State) (id : Nat) : (s.dropOp id).accepted = s.accepted := rfl
@[simp] theorem dropOp_rotation (s : State) (id : Nat) : (s.dropOp id).rotation = s.rotation := rfl
@[simp] theorem dropOp_hbm (s : State) (id : Nat) : (s.dropOp id).hbm = s.hbm := rfl
@[simp] theorem dropOp_host (s : State) (id : Nat) : (s.dropOp id).host = s.host := rfl
@[simp] theorem dropOp_undef (s : State) (id : Nat) : (s.dropOp id).undef = s.undef := rfl
@[simp] theorem dropOp_pool (s : State) (id : Nat) : (s.dropOp id).pool = s.pool := rfl
@[simp] theorem dropOp_peers (s : State) (id : Nat) : (s.dropOp id).peers = s.peers := rfl
@[simp] theorem dropOp_spd (s : State) (id : Nat) : (s.dropOp id).spd = s.spd := rfl
@[simp] theorem dropOp_gran (s : State) (id : Nat) : (s.dropOp id).gran = s.gran := rfl
@[simp] theorem dropOp_tiles (s : State) (id : Nat) : (s.dropOp id).tiles = s.tiles := rfl
@[simp] theorem dropOp_accm (s : State) (id : Nat) : (s.dropOp id).accm = s.accm := rfl
@[simp] theorem dropOp_banks (s : State) (id : Nat) : (s.dropOp id).banks = s.banks := rfl
@[simp] theorem dropOp_acts (s : State) (id : Nat) : (s.dropOp id).acts = s.acts := rfl
@[simp] theorem dropOp_tctl (s : State) (id : Nat) : (s.dropOp id).tctl = s.tctl := rfl
@[simp] theorem dropOp_absent (s : State) (id : Nat) : (s.dropOp id).absent = s.absent := rfl
@[simp] theorem dropOp_crossed (s : State) (id : Nat) : (s.dropOp id).crossed = s.crossed := rfl
@[simp] theorem dropOp_badWords (s : State) (id : Nat) : (s.dropOp id).badWords = s.badWords := rfl
@[simp] theorem dropOp_sectors (s : State) (id : Nat) : (s.dropOp id).sectors = s.sectors := rfl
@[simp] theorem dropOp_grants (s : State) (id : Nat) : (s.dropOp id).grants = s.grants := rfl
@[simp] theorem dropOp_barriers (s : State) (id : Nat) : (s.dropOp id).barriers = s.barriers := rfl
@[simp] theorem dropOp_fragWriters (s : State) (id : Nat) : (s.dropOp id).fragWriters = s.fragWriters := rfl
@[simp] theorem dropOp_tileWrites (s : State) (id : Nat) : (s.dropOp id).tileWrites = s.tileWrites := rfl
@[simp] theorem dropOp_pairWrites (s : State) (id : Nat) : (s.dropOp id).pairWrites = s.pairWrites := rfl
@[simp] theorem dropOp_tlb (s : State) (id : Nat) : (s.dropOp id).tlb = s.tlb := rfl
@[simp] theorem dropOp_filters (s : State) (id : Nat) : (s.dropOp id).filters = s.filters := rfl
@[simp] theorem dropOp_accs (s : State) (id : Nat) : (s.dropOp id).accs = s.accs := rfl
@[simp] theorem dropOp_ops (s : State) (id : Nat) : (s.dropOp id).ops = s.ops.filter fun (o : AOp) => o.id != id := rfl
@[simp] theorem dropOp_misses (s : State) (id : Nat) : (s.dropOp id).misses = s.misses := rfl
@[simp] theorem dropOp_devMissed (s : State) (id : Nat) : (s.dropOp id).devMissed = s.devMissed := rfl
@[simp] theorem dropOp_devDenied (s : State) (id : Nat) : (s.dropOp id).devDenied = s.devDenied := rfl
@[simp] theorem dropOp_tasks (s : State) (id : Nat) : (s.dropOp id).tasks = s.tasks := rfl
@[simp] theorem dropOp_gather (s : State) (id : Nat) : (s.dropOp id).gather = s.gather := rfl
@[simp] theorem dropOp_coreSt (s : State) (id : Nat) : (s.dropOp id).coreSt = s.coreSt := rfl
@[simp] theorem dropOp_ptp (s : State) (id : Nat) : (s.dropOp id).ptp = s.ptp := rfl
@[simp] theorem dropOp_ptpLocked (s : State) (id : Nat) : (s.dropOp id).ptpLocked = s.ptpLocked := rfl
@[simp] theorem dropOp_ptpHoldover (s : State) (id : Nat) : (s.dropOp id).ptpHoldover = s.ptpHoldover := rfl
@[simp] theorem dropOp_ptpSteps (s : State) (id : Nat) : (s.dropOp id).ptpSteps = s.ptpSteps := rfl
@[simp] theorem dropOp_ptpStepBy (s : State) (id : Nat) : (s.dropOp id).ptpStepBy = s.ptpStepBy := rfl
@[simp] theorem dropOp_ptpSlew (s : State) (id : Nat) : (s.dropOp id).ptpSlew = s.ptpSlew := rfl
@[simp] theorem dropOp_ptpSlewAt (s : State) (id : Nat) : (s.dropOp id).ptpSlewAt = s.ptpSlewAt := rfl
@[simp] theorem dropOp_ptpOffset (s : State) (id : Nat) : (s.dropOp id).ptpOffset = s.ptpOffset := rfl
@[simp] theorem dropOp_triggers (s : State) (id : Nat) : (s.dropOp id).triggers = s.triggers := rfl
@[simp] theorem dropOp_trigAt (s : State) (id : Nat) : (s.dropOp id).trigAt = s.trigAt := rfl
@[simp] theorem dropOp_stewardSubs (s : State) (id : Nat) : (s.dropOp id).stewardSubs = s.stewardSubs := rfl
@[simp] theorem dropOp_depsDue (s : State) (id : Nat) : (s.dropOp id).depsDue = s.depsDue := rfl
@[simp] theorem dropOp_streams (s : State) (id : Nat) : (s.dropOp id).streams = s.streams := rfl
@[simp] theorem dropOp_snapClear (s : State) (id : Nat) : (s.dropOp id).snapClear = s.snapClear := rfl
@[simp] theorem dropOp_bar (s : State) (id : Nat) : (s.dropOp id).bar = s.bar := rfl
@[simp] theorem dropOp_mbdata (s : State) (id : Nat) : (s.dropOp id).mbdata = s.mbdata := rfl
@[simp] theorem dropOp_mbCmd (s : State) (id : Nat) : (s.dropOp id).mbCmd = s.mbCmd := rfl
@[simp] theorem dropOp_granSeed (s : State) (id : Nat) : (s.dropOp id).granSeed = s.granSeed := rfl
@[simp] theorem dropOp_evlog (s : State) (id : Nat) : (s.dropOp id).evlog = s.evlog := rfl
@[simp] theorem dropOp_logPersisted (s : State) (id : Nat) : (s.dropOp id).logPersisted = s.logPersisted := rfl
@[simp] theorem dropOp_fw (s : State) (id : Nat) : (s.dropOp id).fw = s.fw := rfl
@[simp] theorem dropOp_meas (s : State) (id : Nat) : (s.dropOp id).meas = s.meas := rfl
@[simp] theorem dropOp_msi (s : State) (id : Nat) : (s.dropOp id).msi = s.msi := rfl
@[simp] theorem dropOp_seqSeen (s : State) (id : Nat) : (s.dropOp id).seqSeen = s.seqSeen := rfl
@[simp] theorem dropOp_heldPackets (s : State) (id : Nat) : (s.dropOp id).heldPackets = s.heldPackets := rfl
@[simp] theorem dropOp_poolGroups (s : State) (id : Nat) : (s.dropOp id).poolGroups = s.poolGroups := rfl
@[simp] theorem dropOp_dirOld (s : State) (id : Nat) : (s.dropOp id).dirOld = s.dirOld := rfl

/-! ## modOrder -/

@[simp] theorem modOrder_agenda (s : State) (f : Written → Written) : (s.modOrder f).agenda = s.agenda := rfl
@[simp] theorem modOrder_fresh (s : State) (f : Written → Written) : (s.modOrder f).fresh = s.fresh := rfl
@[simp] theorem modOrder_nextId (s : State) (f : Written → Written) : (s.modOrder f).nextId = s.nextId := rfl
@[simp] theorem modOrder_cw (s : State) (f : Written → Written) : (s.modOrder f).cw = s.cw := rfl
@[simp] theorem modOrder_waves (s : State) (f : Written → Written) : (s.modOrder f).waves = s.waves := rfl
@[simp] theorem modOrder_powered (s : State) (f : Written → Written) : (s.modOrder f).powered = s.powered := rfl
@[simp] theorem modOrder_clk (s : State) (f : Written → Written) : (s.modOrder f).clk = s.clk := rfl
@[simp] theorem modOrder_ref (s : State) (f : Written → Written) : (s.modOrder f).ref = s.ref := rfl
@[simp] theorem modOrder_tickClk (s : State) (f : Written → Written) : (s.modOrder f).tickClk = s.tickClk := rfl
@[simp] theorem modOrder_coreClk (s : State) (f : Written → Written) : (s.modOrder f).coreClk = s.coreClk := rfl
@[simp] theorem modOrder_launches (s : State) (f : Written → Written) : (s.modOrder f).launches = s.launches := rfl
@[simp] theorem modOrder_blocks (s : State) (f : Written → Written) : (s.modOrder f).blocks = s.blocks := rfl
@[simp] theorem modOrder_queues (s : State) (f : Written → Written) : (s.modOrder f).queues = s.queues := rfl
@[simp] theorem modOrder_gangs (s : State) (f : Written → Written) : (s.modOrder f).gangs = s.gangs := rfl
@[simp] theorem modOrder_accepted (s : State) (f : Written → Written) : (s.modOrder f).accepted = s.accepted := rfl
@[simp] theorem modOrder_rotation (s : State) (f : Written → Written) : (s.modOrder f).rotation = s.rotation := rfl
@[simp] theorem modOrder_hbm (s : State) (f : Written → Written) : (s.modOrder f).hbm = s.hbm := rfl
@[simp] theorem modOrder_host (s : State) (f : Written → Written) : (s.modOrder f).host = s.host := rfl
@[simp] theorem modOrder_undef (s : State) (f : Written → Written) : (s.modOrder f).undef = s.undef := rfl
@[simp] theorem modOrder_pool (s : State) (f : Written → Written) : (s.modOrder f).pool = s.pool := rfl
@[simp] theorem modOrder_peers (s : State) (f : Written → Written) : (s.modOrder f).peers = s.peers := rfl
@[simp] theorem modOrder_spd (s : State) (f : Written → Written) : (s.modOrder f).spd = s.spd := rfl
@[simp] theorem modOrder_gran (s : State) (f : Written → Written) : (s.modOrder f).gran = s.gran := rfl
@[simp] theorem modOrder_tiles (s : State) (f : Written → Written) : (s.modOrder f).tiles = s.tiles := rfl
@[simp] theorem modOrder_accm (s : State) (f : Written → Written) : (s.modOrder f).accm = s.accm := rfl
@[simp] theorem modOrder_banks (s : State) (f : Written → Written) : (s.modOrder f).banks = s.banks := rfl
@[simp] theorem modOrder_acts (s : State) (f : Written → Written) : (s.modOrder f).acts = s.acts := rfl
@[simp] theorem modOrder_tctl (s : State) (f : Written → Written) : (s.modOrder f).tctl = s.tctl := rfl
@[simp] theorem modOrder_absent (s : State) (f : Written → Written) : (s.modOrder f).absent = s.absent := rfl
@[simp] theorem modOrder_crossed (s : State) (f : Written → Written) : (s.modOrder f).crossed = s.crossed := rfl
@[simp] theorem modOrder_badWords (s : State) (f : Written → Written) : (s.modOrder f).badWords = s.badWords := rfl
@[simp] theorem modOrder_sectors (s : State) (f : Written → Written) : (s.modOrder f).sectors = s.sectors := rfl
@[simp] theorem modOrder_grants (s : State) (f : Written → Written) : (s.modOrder f).grants = s.grants := rfl
@[simp] theorem modOrder_barriers (s : State) (f : Written → Written) : (s.modOrder f).barriers = s.barriers := rfl
@[simp] theorem modOrder_fragWriters (s : State) (f : Written → Written) : (s.modOrder f).fragWriters = s.fragWriters := rfl
@[simp] theorem modOrder_tileWrites (s : State) (f : Written → Written) :
    (s.modOrder f).tileWrites = s.tileWrites.map fun x => (x.1, f x.2) := rfl
@[simp] theorem modOrder_pairWrites (s : State) (f : Written → Written) :
    (s.modOrder f).pairWrites = s.pairWrites.map fun x => (x.1, f x.2) := rfl
@[simp] theorem modOrder_tlb (s : State) (f : Written → Written) : (s.modOrder f).tlb = s.tlb := rfl
@[simp] theorem modOrder_filters (s : State) (f : Written → Written) : (s.modOrder f).filters = s.filters := rfl
@[simp] theorem modOrder_accs (s : State) (f : Written → Written) : (s.modOrder f).accs = s.accs := rfl
@[simp] theorem modOrder_ops (s : State) (f : Written → Written) : (s.modOrder f).ops = s.ops := rfl
@[simp] theorem modOrder_misses (s : State) (f : Written → Written) : (s.modOrder f).misses = s.misses := rfl
@[simp] theorem modOrder_devMissed (s : State) (f : Written → Written) : (s.modOrder f).devMissed = s.devMissed := rfl
@[simp] theorem modOrder_devDenied (s : State) (f : Written → Written) : (s.modOrder f).devDenied = s.devDenied := rfl
@[simp] theorem modOrder_tasks (s : State) (f : Written → Written) : (s.modOrder f).tasks = s.tasks := rfl
@[simp] theorem modOrder_gather (s : State) (f : Written → Written) : (s.modOrder f).gather = s.gather := rfl
@[simp] theorem modOrder_coreSt (s : State) (f : Written → Written) : (s.modOrder f).coreSt = s.coreSt := rfl
@[simp] theorem modOrder_ptp (s : State) (f : Written → Written) : (s.modOrder f).ptp = s.ptp := rfl
@[simp] theorem modOrder_ptpLocked (s : State) (f : Written → Written) : (s.modOrder f).ptpLocked = s.ptpLocked := rfl
@[simp] theorem modOrder_ptpHoldover (s : State) (f : Written → Written) : (s.modOrder f).ptpHoldover = s.ptpHoldover := rfl
@[simp] theorem modOrder_ptpSteps (s : State) (f : Written → Written) : (s.modOrder f).ptpSteps = s.ptpSteps := rfl
@[simp] theorem modOrder_ptpStepBy (s : State) (f : Written → Written) : (s.modOrder f).ptpStepBy = s.ptpStepBy := rfl
@[simp] theorem modOrder_ptpSlew (s : State) (f : Written → Written) : (s.modOrder f).ptpSlew = s.ptpSlew := rfl
@[simp] theorem modOrder_ptpSlewAt (s : State) (f : Written → Written) : (s.modOrder f).ptpSlewAt = s.ptpSlewAt := rfl
@[simp] theorem modOrder_ptpOffset (s : State) (f : Written → Written) : (s.modOrder f).ptpOffset = s.ptpOffset := rfl
@[simp] theorem modOrder_triggers (s : State) (f : Written → Written) : (s.modOrder f).triggers = s.triggers := rfl
@[simp] theorem modOrder_trigAt (s : State) (f : Written → Written) : (s.modOrder f).trigAt = s.trigAt := rfl
@[simp] theorem modOrder_stewardSubs (s : State) (f : Written → Written) : (s.modOrder f).stewardSubs = s.stewardSubs := rfl
@[simp] theorem modOrder_depsDue (s : State) (f : Written → Written) : (s.modOrder f).depsDue = s.depsDue := rfl
@[simp] theorem modOrder_streams (s : State) (f : Written → Written) : (s.modOrder f).streams = s.streams := rfl
@[simp] theorem modOrder_snapClear (s : State) (f : Written → Written) : (s.modOrder f).snapClear = s.snapClear := rfl
@[simp] theorem modOrder_bar (s : State) (f : Written → Written) : (s.modOrder f).bar = s.bar := rfl
@[simp] theorem modOrder_mbdata (s : State) (f : Written → Written) : (s.modOrder f).mbdata = s.mbdata := rfl
@[simp] theorem modOrder_mbCmd (s : State) (f : Written → Written) : (s.modOrder f).mbCmd = s.mbCmd := rfl
@[simp] theorem modOrder_granSeed (s : State) (f : Written → Written) : (s.modOrder f).granSeed = s.granSeed := rfl
@[simp] theorem modOrder_evlog (s : State) (f : Written → Written) : (s.modOrder f).evlog = s.evlog := rfl
@[simp] theorem modOrder_logPersisted (s : State) (f : Written → Written) : (s.modOrder f).logPersisted = s.logPersisted := rfl
@[simp] theorem modOrder_fw (s : State) (f : Written → Written) : (s.modOrder f).fw = s.fw := rfl
@[simp] theorem modOrder_meas (s : State) (f : Written → Written) : (s.modOrder f).meas = s.meas := rfl
@[simp] theorem modOrder_msi (s : State) (f : Written → Written) : (s.modOrder f).msi = s.msi := rfl
@[simp] theorem modOrder_seqSeen (s : State) (f : Written → Written) : (s.modOrder f).seqSeen = s.seqSeen := rfl
@[simp] theorem modOrder_heldPackets (s : State) (f : Written → Written) : (s.modOrder f).heldPackets = s.heldPackets := rfl
@[simp] theorem modOrder_poolGroups (s : State) (f : Written → Written) : (s.modOrder f).poolGroups = s.poolGroups := rfl
@[simp] theorem modOrder_dirOld (s : State) (f : Written → Written) : (s.modOrder f).dirOld = s.dirOld := rfl
@[simp] theorem putOrder_cw (s : State) (p : Place3) : (s.putOrder p).cw = s.cw := rfl
@[simp] theorem takeOrder_cw (s : State) (p : Place3) : (s.takeOrder p).cw = s.cw := rfl

/-! ## setS -/

@[simp] theorem setS_uid (w : Wave) (i : Nat) (x : W32) : (w.setS i x).uid = w.uid := rfl
@[simp] theorem setS_core (w : Wave) (i : Nat) (x : W32) : (w.setS i x).core = w.core := rfl
@[simp] theorem setS_slot (w : Wave) (i : Nat) (x : W32) : (w.setS i x).slot = w.slot := rfl
@[simp] theorem setS_resid (w : Wave) (i : Nat) (x : W32) : (w.setS i x).resid = w.resid := rfl
@[simp] theorem setS_launch (w : Wave) (i : Nat) (x : W32) : (w.setS i x).launch = w.launch := rfl
@[simp] theorem setS_block (w : Wave) (i : Nat) (x : W32) : (w.setS i x).block = w.block := rfl
@[simp] theorem setS_widx (w : Wave) (i : Nat) (x : W32) : (w.setS i x).widx = w.widx := rfl
@[simp] theorem setS_startAt (w : Wave) (i : Nat) (x : W32) : (w.setS i x).startAt = w.startAt := rfl
@[simp] theorem setS_sregs (w : Wave) (i : Nat) (x : W32) : (w.setS i x).sregs = SMap.set w.sregs i x := rfl
@[simp] theorem setS_vregs (w : Wave) (i : Nat) (x : W32) : (w.setS i x).vregs = w.vregs := rfl
@[simp] theorem setS_vseed (w : Wave) (i : Nat) (x : W32) : (w.setS i x).vseed = w.vseed := rfl
@[simp] theorem setS_vundef (w : Wave) (i : Nat) (x : W32) : (w.setS i x).vundef = w.vundef := rfl
@[simp] theorem setS_pflags (w : Wave) (i : Nat) (x : W32) : (w.setS i x).pflags = w.pflags := rfl
@[simp] theorem setS_wregs (w : Wave) (i : Nat) (x : W32) : (w.setS i x).wregs = w.wregs := rfl
@[simp] theorem setS_wseed (w : Wave) (i : Nat) (x : W32) : (w.setS i x).wseed = w.wseed := rfl
@[simp] theorem setS_eregs (w : Wave) (i : Nat) (x : W32) : (w.setS i x).eregs = w.eregs := rfl
@[simp] theorem setS_eseed (w : Wave) (i : Nat) (x : W32) : (w.setS i x).eseed = w.eseed := rfl
@[simp] theorem setS_hregs (w : Wave) (i : Nat) (x : W32) : (w.setS i x).hregs = w.hregs := rfl
@[simp] theorem setS_dregs (w : Wave) (i : Nat) (x : W32) : (w.setS i x).dregs = w.dregs := rfl
@[simp] theorem setS_wbase (w : Wave) (i : Nat) (x : W32) : (w.setS i x).wbase = w.wbase := rfl
@[simp] theorem setS_wsize (w : Wave) (i : Nat) (x : W32) : (w.setS i x).wsize = w.wsize := rfl
@[simp] theorem setS_links (w : Wave) (i : Nat) (x : W32) : (w.setS i x).links = w.links := rfl
@[simp] theorem setS_spills (w : Wave) (i : Nat) (x : W32) : (w.setS i x).spills = w.spills := rfl
@[simp] theorem setS_wsr (w : Wave) (i : Nat) (x : W32) : (w.setS i x).wsr = w.wsr := rfl
@[simp] theorem setS_tcause (w : Wave) (i : Nat) (x : W32) : (w.setS i x).tcause = w.tcause := rfl
@[simp] theorem setS_tclause (w : Wave) (i : Nat) (x : W32) : (w.setS i x).tclause = w.tclause := rfl
@[simp] theorem setS_tslot (w : Wave) (i : Nat) (x : W32) : (w.setS i x).tslot = w.tslot := rfl
@[simp] theorem setS_taddrlo (w : Wave) (i : Nat) (x : W32) : (w.setS i x).taddrlo = w.taddrlo := rfl
@[simp] theorem setS_taddrhi (w : Wave) (i : Nat) (x : W32) : (w.setS i x).taddrhi = w.taddrhi := rfl
@[simp] theorem setS_tdata (w : Wave) (i : Nat) (x : W32) : (w.setS i x).tdata = w.tdata := rfl
@[simp] theorem setS_tlanes (w : Wave) (i : Nat) (x : W32) : (w.setS i x).tlanes = w.tlanes := rfl
@[simp] theorem setS_heldTrap (w : Wave) (i : Nat) (x : W32) : (w.setS i x).heldTrap = w.heldTrap := rfl
@[simp] theorem setS_fork (w : Wave) (i : Nat) (x : W32) : (w.setS i x).fork = w.fork := rfl
@[simp] theorem setS_second (w : Wave) (i : Nat) (x : W32) : (w.setS i x).second = w.second := rfl
@[simp] theorem setS_pa (w : Wave) (i : Nat) (x : W32) : (w.setS i x).pa = w.pa := rfl
@[simp] theorem setS_pb (w : Wave) (i : Nat) (x : W32) : (w.setS i x).pb = w.pb := rfl
@[simp] theorem setS_tbase (w : Wave) (i : Nat) (x : W32) : (w.setS i x).tbase = w.tbase := rfl
@[simp] theorem setS_seqr (w : Wave) (i : Nat) (x : W32) : (w.setS i x).seqr = w.seqr := rfl
@[simp] theorem setS_resv (w : Wave) (i : Nat) (x : W32) : (w.setS i x).resv = w.resv := rfl
@[simp] theorem setS_task (w : Wave) (i : Nat) (x : W32) : (w.setS i x).task = w.task := rfl
@[simp] theorem setS_poison (w : Wave) (i : Nat) (x : W32) : (w.setS i x).poison = (w.clean 1 i 0).poison := rfl
@[simp] theorem setS_openScope (w : Wave) (i : Nat) (x : W32) : (w.setS i x).openScope = w.openScope := rfl
@[simp] theorem setS_batchScope (w : Wave) (i : Nat) (x : W32) : (w.setS i x).batchScope = w.batchScope := rfl

/-! ## setV -/

@[simp] theorem setV_uid (w : Wave) (r l : Nat) (x : W32) : (w.setV r l x).uid = w.uid := rfl
@[simp] theorem setV_core (w : Wave) (r l : Nat) (x : W32) : (w.setV r l x).core = w.core := rfl
@[simp] theorem setV_slot (w : Wave) (r l : Nat) (x : W32) : (w.setV r l x).slot = w.slot := rfl
@[simp] theorem setV_resid (w : Wave) (r l : Nat) (x : W32) : (w.setV r l x).resid = w.resid := rfl
@[simp] theorem setV_launch (w : Wave) (r l : Nat) (x : W32) : (w.setV r l x).launch = w.launch := rfl
@[simp] theorem setV_block (w : Wave) (r l : Nat) (x : W32) : (w.setV r l x).block = w.block := rfl
@[simp] theorem setV_widx (w : Wave) (r l : Nat) (x : W32) : (w.setV r l x).widx = w.widx := rfl
@[simp] theorem setV_startAt (w : Wave) (r l : Nat) (x : W32) : (w.setV r l x).startAt = w.startAt := rfl
@[simp] theorem setV_sregs (w : Wave) (r l : Nat) (x : W32) : (w.setV r l x).sregs = w.sregs := rfl
@[simp] theorem setV_vregs (w : Wave) (r l : Nat) (x : W32) : (w.setV r l x).vregs = SMap.set w.vregs (r * 32 + l) x := rfl
@[simp] theorem setV_vseed (w : Wave) (r l : Nat) (x : W32) : (w.setV r l x).vseed = w.vseed := rfl
@[simp] theorem setV_vundef (w : Wave) (r l : Nat) (x : W32) : (w.setV r l x).vundef = w.vundef := rfl
@[simp] theorem setV_pflags (w : Wave) (r l : Nat) (x : W32) : (w.setV r l x).pflags = w.pflags := rfl
@[simp] theorem setV_wregs (w : Wave) (r l : Nat) (x : W32) : (w.setV r l x).wregs = w.wregs := rfl
@[simp] theorem setV_wseed (w : Wave) (r l : Nat) (x : W32) : (w.setV r l x).wseed = w.wseed := rfl
@[simp] theorem setV_eregs (w : Wave) (r l : Nat) (x : W32) : (w.setV r l x).eregs = w.eregs := rfl
@[simp] theorem setV_eseed (w : Wave) (r l : Nat) (x : W32) : (w.setV r l x).eseed = w.eseed := rfl
@[simp] theorem setV_hregs (w : Wave) (r l : Nat) (x : W32) : (w.setV r l x).hregs = w.hregs := rfl
@[simp] theorem setV_dregs (w : Wave) (r l : Nat) (x : W32) : (w.setV r l x).dregs = w.dregs := rfl
@[simp] theorem setV_wbase (w : Wave) (r l : Nat) (x : W32) : (w.setV r l x).wbase = w.wbase := rfl
@[simp] theorem setV_wsize (w : Wave) (r l : Nat) (x : W32) : (w.setV r l x).wsize = w.wsize := rfl
@[simp] theorem setV_links (w : Wave) (r l : Nat) (x : W32) : (w.setV r l x).links = w.links := rfl
@[simp] theorem setV_spills (w : Wave) (r l : Nat) (x : W32) : (w.setV r l x).spills = w.spills := rfl
@[simp] theorem setV_wsr (w : Wave) (r l : Nat) (x : W32) : (w.setV r l x).wsr = w.wsr := rfl
@[simp] theorem setV_tcause (w : Wave) (r l : Nat) (x : W32) : (w.setV r l x).tcause = w.tcause := rfl
@[simp] theorem setV_tclause (w : Wave) (r l : Nat) (x : W32) : (w.setV r l x).tclause = w.tclause := rfl
@[simp] theorem setV_tslot (w : Wave) (r l : Nat) (x : W32) : (w.setV r l x).tslot = w.tslot := rfl
@[simp] theorem setV_taddrlo (w : Wave) (r l : Nat) (x : W32) : (w.setV r l x).taddrlo = w.taddrlo := rfl
@[simp] theorem setV_taddrhi (w : Wave) (r l : Nat) (x : W32) : (w.setV r l x).taddrhi = w.taddrhi := rfl
@[simp] theorem setV_tdata (w : Wave) (r l : Nat) (x : W32) : (w.setV r l x).tdata = w.tdata := rfl
@[simp] theorem setV_tlanes (w : Wave) (r l : Nat) (x : W32) : (w.setV r l x).tlanes = w.tlanes := rfl
@[simp] theorem setV_heldTrap (w : Wave) (r l : Nat) (x : W32) : (w.setV r l x).heldTrap = w.heldTrap := rfl
@[simp] theorem setV_fork (w : Wave) (r l : Nat) (x : W32) : (w.setV r l x).fork = w.fork := rfl
@[simp] theorem setV_second (w : Wave) (r l : Nat) (x : W32) : (w.setV r l x).second = w.second := rfl
@[simp] theorem setV_pa (w : Wave) (r l : Nat) (x : W32) : (w.setV r l x).pa = w.pa := rfl
@[simp] theorem setV_pb (w : Wave) (r l : Nat) (x : W32) : (w.setV r l x).pb = w.pb := rfl
@[simp] theorem setV_tbase (w : Wave) (r l : Nat) (x : W32) : (w.setV r l x).tbase = w.tbase := rfl
@[simp] theorem setV_seqr (w : Wave) (r l : Nat) (x : W32) : (w.setV r l x).seqr = w.seqr := rfl
@[simp] theorem setV_resv (w : Wave) (r l : Nat) (x : W32) : (w.setV r l x).resv = w.resv := rfl
@[simp] theorem setV_task (w : Wave) (r l : Nat) (x : W32) : (w.setV r l x).task = w.task := rfl
@[simp] theorem setV_poison (w : Wave) (r l : Nat) (x : W32) : (w.setV r l x).poison = (w.clean 0 r l).poison := rfl
@[simp] theorem setV_openScope (w : Wave) (r l : Nat) (x : W32) : (w.setV r l x).openScope = w.openScope := rfl
@[simp] theorem setV_batchScope (w : Wave) (r l : Nat) (x : W32) : (w.setV r l x).batchScope = w.batchScope := rfl

/-! ## setP -/

@[simp] theorem setP_uid (w : Wave) (i : Nat) (m : Mask) : (w.setP i m).uid = w.uid := rfl
@[simp] theorem setP_core (w : Wave) (i : Nat) (m : Mask) : (w.setP i m).core = w.core := rfl
@[simp] theorem setP_slot (w : Wave) (i : Nat) (m : Mask) : (w.setP i m).slot = w.slot := rfl
@[simp] theorem setP_resid (w : Wave) (i : Nat) (m : Mask) : (w.setP i m).resid = w.resid := rfl
@[simp] theorem setP_launch (w : Wave) (i : Nat) (m : Mask) : (w.setP i m).launch = w.launch := rfl
@[simp] theorem setP_block (w : Wave) (i : Nat) (m : Mask) : (w.setP i m).block = w.block := rfl
@[simp] theorem setP_widx (w : Wave) (i : Nat) (m : Mask) : (w.setP i m).widx = w.widx := rfl
@[simp] theorem setP_startAt (w : Wave) (i : Nat) (m : Mask) : (w.setP i m).startAt = w.startAt := rfl
@[simp] theorem setP_sregs (w : Wave) (i : Nat) (m : Mask) : (w.setP i m).sregs = w.sregs := rfl
@[simp] theorem setP_vregs (w : Wave) (i : Nat) (m : Mask) : (w.setP i m).vregs = w.vregs := rfl
@[simp] theorem setP_vseed (w : Wave) (i : Nat) (m : Mask) : (w.setP i m).vseed = w.vseed := rfl
@[simp] theorem setP_vundef (w : Wave) (i : Nat) (m : Mask) : (w.setP i m).vundef = w.vundef := rfl
@[simp] theorem setP_pflags (w : Wave) (i : Nat) (m : Mask) : (w.setP i m).pflags = SMap.set w.pflags i m := rfl
@[simp] theorem setP_wregs (w : Wave) (i : Nat) (m : Mask) : (w.setP i m).wregs = w.wregs := rfl
@[simp] theorem setP_wseed (w : Wave) (i : Nat) (m : Mask) : (w.setP i m).wseed = w.wseed := rfl
@[simp] theorem setP_eregs (w : Wave) (i : Nat) (m : Mask) : (w.setP i m).eregs = w.eregs := rfl
@[simp] theorem setP_eseed (w : Wave) (i : Nat) (m : Mask) : (w.setP i m).eseed = w.eseed := rfl
@[simp] theorem setP_hregs (w : Wave) (i : Nat) (m : Mask) : (w.setP i m).hregs = w.hregs := rfl
@[simp] theorem setP_dregs (w : Wave) (i : Nat) (m : Mask) : (w.setP i m).dregs = w.dregs := rfl
@[simp] theorem setP_wbase (w : Wave) (i : Nat) (m : Mask) : (w.setP i m).wbase = w.wbase := rfl
@[simp] theorem setP_wsize (w : Wave) (i : Nat) (m : Mask) : (w.setP i m).wsize = w.wsize := rfl
@[simp] theorem setP_links (w : Wave) (i : Nat) (m : Mask) : (w.setP i m).links = w.links := rfl
@[simp] theorem setP_spills (w : Wave) (i : Nat) (m : Mask) : (w.setP i m).spills = w.spills := rfl
@[simp] theorem setP_wsr (w : Wave) (i : Nat) (m : Mask) : (w.setP i m).wsr = w.wsr := rfl
@[simp] theorem setP_tcause (w : Wave) (i : Nat) (m : Mask) : (w.setP i m).tcause = w.tcause := rfl
@[simp] theorem setP_tclause (w : Wave) (i : Nat) (m : Mask) : (w.setP i m).tclause = w.tclause := rfl
@[simp] theorem setP_tslot (w : Wave) (i : Nat) (m : Mask) : (w.setP i m).tslot = w.tslot := rfl
@[simp] theorem setP_taddrlo (w : Wave) (i : Nat) (m : Mask) : (w.setP i m).taddrlo = w.taddrlo := rfl
@[simp] theorem setP_taddrhi (w : Wave) (i : Nat) (m : Mask) : (w.setP i m).taddrhi = w.taddrhi := rfl
@[simp] theorem setP_tdata (w : Wave) (i : Nat) (m : Mask) : (w.setP i m).tdata = w.tdata := rfl
@[simp] theorem setP_tlanes (w : Wave) (i : Nat) (m : Mask) : (w.setP i m).tlanes = w.tlanes := rfl
@[simp] theorem setP_heldTrap (w : Wave) (i : Nat) (m : Mask) : (w.setP i m).heldTrap = w.heldTrap := rfl
@[simp] theorem setP_fork (w : Wave) (i : Nat) (m : Mask) : (w.setP i m).fork = w.fork := rfl
@[simp] theorem setP_second (w : Wave) (i : Nat) (m : Mask) : (w.setP i m).second = w.second := rfl
@[simp] theorem setP_pa (w : Wave) (i : Nat) (m : Mask) : (w.setP i m).pa = w.pa := rfl
@[simp] theorem setP_pb (w : Wave) (i : Nat) (m : Mask) : (w.setP i m).pb = w.pb := rfl
@[simp] theorem setP_tbase (w : Wave) (i : Nat) (m : Mask) : (w.setP i m).tbase = w.tbase := rfl
@[simp] theorem setP_seqr (w : Wave) (i : Nat) (m : Mask) : (w.setP i m).seqr = w.seqr := rfl
@[simp] theorem setP_resv (w : Wave) (i : Nat) (m : Mask) : (w.setP i m).resv = w.resv := rfl
@[simp] theorem setP_task (w : Wave) (i : Nat) (m : Mask) : (w.setP i m).task = w.task := rfl
@[simp] theorem setP_poison (w : Wave) (i : Nat) (m : Mask) : (w.setP i m).poison = w.poison := rfl
@[simp] theorem setP_openScope (w : Wave) (i : Nat) (m : Mask) : (w.setP i m).openScope = w.openScope := rfl
@[simp] theorem setP_batchScope (w : Wave) (i : Nat) (m : Mask) : (w.setP i m).batchScope = w.batchScope := rfl

/-! ## setW -/

@[simp] theorem setW_uid (w : Wave) (r l k : Nat) (x : W32) : (w.setW r l k x).uid = w.uid := rfl
@[simp] theorem setW_core (w : Wave) (r l k : Nat) (x : W32) : (w.setW r l k x).core = w.core := rfl
@[simp] theorem setW_slot (w : Wave) (r l k : Nat) (x : W32) : (w.setW r l k x).slot = w.slot := rfl
@[simp] theorem setW_resid (w : Wave) (r l k : Nat) (x : W32) : (w.setW r l k x).resid = w.resid := rfl
@[simp] theorem setW_launch (w : Wave) (r l k : Nat) (x : W32) : (w.setW r l k x).launch = w.launch := rfl
@[simp] theorem setW_block (w : Wave) (r l k : Nat) (x : W32) : (w.setW r l k x).block = w.block := rfl
@[simp] theorem setW_widx (w : Wave) (r l k : Nat) (x : W32) : (w.setW r l k x).widx = w.widx := rfl
@[simp] theorem setW_startAt (w : Wave) (r l k : Nat) (x : W32) : (w.setW r l k x).startAt = w.startAt := rfl
@[simp] theorem setW_sregs (w : Wave) (r l k : Nat) (x : W32) : (w.setW r l k x).sregs = w.sregs := rfl
@[simp] theorem setW_vregs (w : Wave) (r l k : Nat) (x : W32) : (w.setW r l k x).vregs = w.vregs := rfl
@[simp] theorem setW_vseed (w : Wave) (r l k : Nat) (x : W32) : (w.setW r l k x).vseed = w.vseed := rfl
@[simp] theorem setW_vundef (w : Wave) (r l k : Nat) (x : W32) : (w.setW r l k x).vundef = w.vundef := rfl
@[simp] theorem setW_pflags (w : Wave) (r l k : Nat) (x : W32) : (w.setW r l k x).pflags = w.pflags := rfl
@[simp] theorem setW_wregs (w : Wave) (r l k : Nat) (x : W32) : (w.setW r l k x).wregs = SMap.set w.wregs ((r * 32 + l) * 8 + k) x := rfl
@[simp] theorem setW_wseed (w : Wave) (r l k : Nat) (x : W32) : (w.setW r l k x).wseed = w.wseed := rfl
@[simp] theorem setW_eregs (w : Wave) (r l k : Nat) (x : W32) : (w.setW r l k x).eregs = w.eregs := rfl
@[simp] theorem setW_eseed (w : Wave) (r l k : Nat) (x : W32) : (w.setW r l k x).eseed = w.eseed := rfl
@[simp] theorem setW_hregs (w : Wave) (r l k : Nat) (x : W32) : (w.setW r l k x).hregs = w.hregs := rfl
@[simp] theorem setW_dregs (w : Wave) (r l k : Nat) (x : W32) : (w.setW r l k x).dregs = w.dregs := rfl
@[simp] theorem setW_wbase (w : Wave) (r l k : Nat) (x : W32) : (w.setW r l k x).wbase = w.wbase := rfl
@[simp] theorem setW_wsize (w : Wave) (r l k : Nat) (x : W32) : (w.setW r l k x).wsize = w.wsize := rfl
@[simp] theorem setW_links (w : Wave) (r l k : Nat) (x : W32) : (w.setW r l k x).links = w.links := rfl
@[simp] theorem setW_spills (w : Wave) (r l k : Nat) (x : W32) : (w.setW r l k x).spills = w.spills := rfl
@[simp] theorem setW_wsr (w : Wave) (r l k : Nat) (x : W32) : (w.setW r l k x).wsr = w.wsr := rfl
@[simp] theorem setW_tcause (w : Wave) (r l k : Nat) (x : W32) : (w.setW r l k x).tcause = w.tcause := rfl
@[simp] theorem setW_tclause (w : Wave) (r l k : Nat) (x : W32) : (w.setW r l k x).tclause = w.tclause := rfl
@[simp] theorem setW_tslot (w : Wave) (r l k : Nat) (x : W32) : (w.setW r l k x).tslot = w.tslot := rfl
@[simp] theorem setW_taddrlo (w : Wave) (r l k : Nat) (x : W32) : (w.setW r l k x).taddrlo = w.taddrlo := rfl
@[simp] theorem setW_taddrhi (w : Wave) (r l k : Nat) (x : W32) : (w.setW r l k x).taddrhi = w.taddrhi := rfl
@[simp] theorem setW_tdata (w : Wave) (r l k : Nat) (x : W32) : (w.setW r l k x).tdata = w.tdata := rfl
@[simp] theorem setW_tlanes (w : Wave) (r l k : Nat) (x : W32) : (w.setW r l k x).tlanes = w.tlanes := rfl
@[simp] theorem setW_heldTrap (w : Wave) (r l k : Nat) (x : W32) : (w.setW r l k x).heldTrap = w.heldTrap := rfl
@[simp] theorem setW_fork (w : Wave) (r l k : Nat) (x : W32) : (w.setW r l k x).fork = w.fork := rfl
@[simp] theorem setW_second (w : Wave) (r l k : Nat) (x : W32) : (w.setW r l k x).second = w.second := rfl
@[simp] theorem setW_pa (w : Wave) (r l k : Nat) (x : W32) : (w.setW r l k x).pa = w.pa := rfl
@[simp] theorem setW_pb (w : Wave) (r l k : Nat) (x : W32) : (w.setW r l k x).pb = w.pb := rfl
@[simp] theorem setW_tbase (w : Wave) (r l k : Nat) (x : W32) : (w.setW r l k x).tbase = w.tbase := rfl
@[simp] theorem setW_seqr (w : Wave) (r l k : Nat) (x : W32) : (w.setW r l k x).seqr = w.seqr := rfl
@[simp] theorem setW_resv (w : Wave) (r l k : Nat) (x : W32) : (w.setW r l k x).resv = w.resv := rfl
@[simp] theorem setW_task (w : Wave) (r l k : Nat) (x : W32) : (w.setW r l k x).task = w.task := rfl
@[simp] theorem setW_poison (w : Wave) (r l k : Nat) (x : W32) : (w.setW r l k x).poison = w.poison := rfl
@[simp] theorem setW_openScope (w : Wave) (r l k : Nat) (x : W32) : (w.setW r l k x).openScope = w.openScope := rfl
@[simp] theorem setW_batchScope (w : Wave) (r l k : Nat) (x : W32) : (w.setW r l k x).batchScope = w.batchScope := rfl

/-! ## setE -/

@[simp] theorem setE_uid (w : Wave) (i : Nat) (x : W32) : (w.setE i x).uid = w.uid := rfl
@[simp] theorem setE_core (w : Wave) (i : Nat) (x : W32) : (w.setE i x).core = w.core := rfl
@[simp] theorem setE_slot (w : Wave) (i : Nat) (x : W32) : (w.setE i x).slot = w.slot := rfl
@[simp] theorem setE_resid (w : Wave) (i : Nat) (x : W32) : (w.setE i x).resid = w.resid := rfl
@[simp] theorem setE_launch (w : Wave) (i : Nat) (x : W32) : (w.setE i x).launch = w.launch := rfl
@[simp] theorem setE_block (w : Wave) (i : Nat) (x : W32) : (w.setE i x).block = w.block := rfl
@[simp] theorem setE_widx (w : Wave) (i : Nat) (x : W32) : (w.setE i x).widx = w.widx := rfl
@[simp] theorem setE_startAt (w : Wave) (i : Nat) (x : W32) : (w.setE i x).startAt = w.startAt := rfl
@[simp] theorem setE_sregs (w : Wave) (i : Nat) (x : W32) : (w.setE i x).sregs = w.sregs := rfl
@[simp] theorem setE_vregs (w : Wave) (i : Nat) (x : W32) : (w.setE i x).vregs = w.vregs := rfl
@[simp] theorem setE_vseed (w : Wave) (i : Nat) (x : W32) : (w.setE i x).vseed = w.vseed := rfl
@[simp] theorem setE_vundef (w : Wave) (i : Nat) (x : W32) : (w.setE i x).vundef = w.vundef := rfl
@[simp] theorem setE_pflags (w : Wave) (i : Nat) (x : W32) : (w.setE i x).pflags = w.pflags := rfl
@[simp] theorem setE_wregs (w : Wave) (i : Nat) (x : W32) : (w.setE i x).wregs = w.wregs := rfl
@[simp] theorem setE_wseed (w : Wave) (i : Nat) (x : W32) : (w.setE i x).wseed = w.wseed := rfl
@[simp] theorem setE_eregs (w : Wave) (i : Nat) (x : W32) : (w.setE i x).eregs = SMap.set w.eregs i x := rfl
@[simp] theorem setE_eseed (w : Wave) (i : Nat) (x : W32) : (w.setE i x).eseed = w.eseed := rfl
@[simp] theorem setE_hregs (w : Wave) (i : Nat) (x : W32) : (w.setE i x).hregs = w.hregs := rfl
@[simp] theorem setE_dregs (w : Wave) (i : Nat) (x : W32) : (w.setE i x).dregs = w.dregs := rfl
@[simp] theorem setE_wbase (w : Wave) (i : Nat) (x : W32) : (w.setE i x).wbase = w.wbase := rfl
@[simp] theorem setE_wsize (w : Wave) (i : Nat) (x : W32) : (w.setE i x).wsize = w.wsize := rfl
@[simp] theorem setE_links (w : Wave) (i : Nat) (x : W32) : (w.setE i x).links = w.links := rfl
@[simp] theorem setE_spills (w : Wave) (i : Nat) (x : W32) : (w.setE i x).spills = w.spills := rfl
@[simp] theorem setE_wsr (w : Wave) (i : Nat) (x : W32) : (w.setE i x).wsr = w.wsr := rfl
@[simp] theorem setE_tcause (w : Wave) (i : Nat) (x : W32) : (w.setE i x).tcause = w.tcause := rfl
@[simp] theorem setE_tclause (w : Wave) (i : Nat) (x : W32) : (w.setE i x).tclause = w.tclause := rfl
@[simp] theorem setE_tslot (w : Wave) (i : Nat) (x : W32) : (w.setE i x).tslot = w.tslot := rfl
@[simp] theorem setE_taddrlo (w : Wave) (i : Nat) (x : W32) : (w.setE i x).taddrlo = w.taddrlo := rfl
@[simp] theorem setE_taddrhi (w : Wave) (i : Nat) (x : W32) : (w.setE i x).taddrhi = w.taddrhi := rfl
@[simp] theorem setE_tdata (w : Wave) (i : Nat) (x : W32) : (w.setE i x).tdata = w.tdata := rfl
@[simp] theorem setE_tlanes (w : Wave) (i : Nat) (x : W32) : (w.setE i x).tlanes = w.tlanes := rfl
@[simp] theorem setE_heldTrap (w : Wave) (i : Nat) (x : W32) : (w.setE i x).heldTrap = w.heldTrap := rfl
@[simp] theorem setE_fork (w : Wave) (i : Nat) (x : W32) : (w.setE i x).fork = w.fork := rfl
@[simp] theorem setE_second (w : Wave) (i : Nat) (x : W32) : (w.setE i x).second = w.second := rfl
@[simp] theorem setE_pa (w : Wave) (i : Nat) (x : W32) : (w.setE i x).pa = w.pa := rfl
@[simp] theorem setE_pb (w : Wave) (i : Nat) (x : W32) : (w.setE i x).pb = w.pb := rfl
@[simp] theorem setE_tbase (w : Wave) (i : Nat) (x : W32) : (w.setE i x).tbase = w.tbase := rfl
@[simp] theorem setE_seqr (w : Wave) (i : Nat) (x : W32) : (w.setE i x).seqr = w.seqr := rfl
@[simp] theorem setE_resv (w : Wave) (i : Nat) (x : W32) : (w.setE i x).resv = w.resv := rfl
@[simp] theorem setE_task (w : Wave) (i : Nat) (x : W32) : (w.setE i x).task = w.task := rfl
@[simp] theorem setE_poison (w : Wave) (i : Nat) (x : W32) : (w.setE i x).poison = (w.clean 2 i 0).poison := rfl
@[simp] theorem setE_openScope (w : Wave) (i : Nat) (x : W32) : (w.setE i x).openScope = w.openScope := rfl
@[simp] theorem setE_batchScope (w : Wave) (i : Nat) (x : W32) : (w.setE i x).batchScope = w.batchScope := rfl

/-! ## setH -/

@[simp] theorem setH_uid (w : Wave) (i : Nat) (x : BitVec 512) : (w.setH i x).uid = w.uid := rfl
@[simp] theorem setH_core (w : Wave) (i : Nat) (x : BitVec 512) : (w.setH i x).core = w.core := rfl
@[simp] theorem setH_slot (w : Wave) (i : Nat) (x : BitVec 512) : (w.setH i x).slot = w.slot := rfl
@[simp] theorem setH_resid (w : Wave) (i : Nat) (x : BitVec 512) : (w.setH i x).resid = w.resid := rfl
@[simp] theorem setH_launch (w : Wave) (i : Nat) (x : BitVec 512) : (w.setH i x).launch = w.launch := rfl
@[simp] theorem setH_block (w : Wave) (i : Nat) (x : BitVec 512) : (w.setH i x).block = w.block := rfl
@[simp] theorem setH_widx (w : Wave) (i : Nat) (x : BitVec 512) : (w.setH i x).widx = w.widx := rfl
@[simp] theorem setH_startAt (w : Wave) (i : Nat) (x : BitVec 512) : (w.setH i x).startAt = w.startAt := rfl
@[simp] theorem setH_sregs (w : Wave) (i : Nat) (x : BitVec 512) : (w.setH i x).sregs = w.sregs := rfl
@[simp] theorem setH_vregs (w : Wave) (i : Nat) (x : BitVec 512) : (w.setH i x).vregs = w.vregs := rfl
@[simp] theorem setH_vseed (w : Wave) (i : Nat) (x : BitVec 512) : (w.setH i x).vseed = w.vseed := rfl
@[simp] theorem setH_vundef (w : Wave) (i : Nat) (x : BitVec 512) : (w.setH i x).vundef = w.vundef := rfl
@[simp] theorem setH_pflags (w : Wave) (i : Nat) (x : BitVec 512) : (w.setH i x).pflags = w.pflags := rfl
@[simp] theorem setH_wregs (w : Wave) (i : Nat) (x : BitVec 512) : (w.setH i x).wregs = w.wregs := rfl
@[simp] theorem setH_wseed (w : Wave) (i : Nat) (x : BitVec 512) : (w.setH i x).wseed = w.wseed := rfl
@[simp] theorem setH_eregs (w : Wave) (i : Nat) (x : BitVec 512) : (w.setH i x).eregs = w.eregs := rfl
@[simp] theorem setH_eseed (w : Wave) (i : Nat) (x : BitVec 512) : (w.setH i x).eseed = w.eseed := rfl
@[simp] theorem setH_hregs (w : Wave) (i : Nat) (x : BitVec 512) : (w.setH i x).hregs = SMap.set w.hregs i x := rfl
@[simp] theorem setH_dregs (w : Wave) (i : Nat) (x : BitVec 512) : (w.setH i x).dregs = w.dregs := rfl
@[simp] theorem setH_wbase (w : Wave) (i : Nat) (x : BitVec 512) : (w.setH i x).wbase = w.wbase := rfl
@[simp] theorem setH_wsize (w : Wave) (i : Nat) (x : BitVec 512) : (w.setH i x).wsize = w.wsize := rfl
@[simp] theorem setH_links (w : Wave) (i : Nat) (x : BitVec 512) : (w.setH i x).links = w.links := rfl
@[simp] theorem setH_spills (w : Wave) (i : Nat) (x : BitVec 512) : (w.setH i x).spills = w.spills := rfl
@[simp] theorem setH_wsr (w : Wave) (i : Nat) (x : BitVec 512) : (w.setH i x).wsr = w.wsr := rfl
@[simp] theorem setH_tcause (w : Wave) (i : Nat) (x : BitVec 512) : (w.setH i x).tcause = w.tcause := rfl
@[simp] theorem setH_tclause (w : Wave) (i : Nat) (x : BitVec 512) : (w.setH i x).tclause = w.tclause := rfl
@[simp] theorem setH_tslot (w : Wave) (i : Nat) (x : BitVec 512) : (w.setH i x).tslot = w.tslot := rfl
@[simp] theorem setH_taddrlo (w : Wave) (i : Nat) (x : BitVec 512) : (w.setH i x).taddrlo = w.taddrlo := rfl
@[simp] theorem setH_taddrhi (w : Wave) (i : Nat) (x : BitVec 512) : (w.setH i x).taddrhi = w.taddrhi := rfl
@[simp] theorem setH_tdata (w : Wave) (i : Nat) (x : BitVec 512) : (w.setH i x).tdata = w.tdata := rfl
@[simp] theorem setH_tlanes (w : Wave) (i : Nat) (x : BitVec 512) : (w.setH i x).tlanes = w.tlanes := rfl
@[simp] theorem setH_heldTrap (w : Wave) (i : Nat) (x : BitVec 512) : (w.setH i x).heldTrap = w.heldTrap := rfl
@[simp] theorem setH_fork (w : Wave) (i : Nat) (x : BitVec 512) : (w.setH i x).fork = w.fork := rfl
@[simp] theorem setH_second (w : Wave) (i : Nat) (x : BitVec 512) : (w.setH i x).second = w.second := rfl
@[simp] theorem setH_pa (w : Wave) (i : Nat) (x : BitVec 512) : (w.setH i x).pa = w.pa := rfl
@[simp] theorem setH_pb (w : Wave) (i : Nat) (x : BitVec 512) : (w.setH i x).pb = w.pb := rfl
@[simp] theorem setH_tbase (w : Wave) (i : Nat) (x : BitVec 512) : (w.setH i x).tbase = w.tbase := rfl
@[simp] theorem setH_seqr (w : Wave) (i : Nat) (x : BitVec 512) : (w.setH i x).seqr = w.seqr := rfl
@[simp] theorem setH_resv (w : Wave) (i : Nat) (x : BitVec 512) : (w.setH i x).resv = w.resv := rfl
@[simp] theorem setH_task (w : Wave) (i : Nat) (x : BitVec 512) : (w.setH i x).task = w.task := rfl
@[simp] theorem setH_poison (w : Wave) (i : Nat) (x : BitVec 512) : (w.setH i x).poison = w.poison := rfl
@[simp] theorem setH_openScope (w : Wave) (i : Nat) (x : BitVec 512) : (w.setH i x).openScope = w.openScope := rfl
@[simp] theorem setH_batchScope (w : Wave) (i : Nat) (x : BitVec 512) : (w.setH i x).batchScope = w.batchScope := rfl

/-! ## setD -/

@[simp] theorem setD_uid (w : Wave) (i : Nat) (x : W32) : (w.setD i x).uid = w.uid := rfl
@[simp] theorem setD_core (w : Wave) (i : Nat) (x : W32) : (w.setD i x).core = w.core := rfl
@[simp] theorem setD_slot (w : Wave) (i : Nat) (x : W32) : (w.setD i x).slot = w.slot := rfl
@[simp] theorem setD_resid (w : Wave) (i : Nat) (x : W32) : (w.setD i x).resid = w.resid := rfl
@[simp] theorem setD_launch (w : Wave) (i : Nat) (x : W32) : (w.setD i x).launch = w.launch := rfl
@[simp] theorem setD_block (w : Wave) (i : Nat) (x : W32) : (w.setD i x).block = w.block := rfl
@[simp] theorem setD_widx (w : Wave) (i : Nat) (x : W32) : (w.setD i x).widx = w.widx := rfl
@[simp] theorem setD_startAt (w : Wave) (i : Nat) (x : W32) : (w.setD i x).startAt = w.startAt := rfl
@[simp] theorem setD_sregs (w : Wave) (i : Nat) (x : W32) : (w.setD i x).sregs = w.sregs := rfl
@[simp] theorem setD_vregs (w : Wave) (i : Nat) (x : W32) : (w.setD i x).vregs = w.vregs := rfl
@[simp] theorem setD_vseed (w : Wave) (i : Nat) (x : W32) : (w.setD i x).vseed = w.vseed := rfl
@[simp] theorem setD_vundef (w : Wave) (i : Nat) (x : W32) : (w.setD i x).vundef = w.vundef := rfl
@[simp] theorem setD_pflags (w : Wave) (i : Nat) (x : W32) : (w.setD i x).pflags = w.pflags := rfl
@[simp] theorem setD_wregs (w : Wave) (i : Nat) (x : W32) : (w.setD i x).wregs = w.wregs := rfl
@[simp] theorem setD_wseed (w : Wave) (i : Nat) (x : W32) : (w.setD i x).wseed = w.wseed := rfl
@[simp] theorem setD_eregs (w : Wave) (i : Nat) (x : W32) : (w.setD i x).eregs = w.eregs := rfl
@[simp] theorem setD_eseed (w : Wave) (i : Nat) (x : W32) : (w.setD i x).eseed = w.eseed := rfl
@[simp] theorem setD_hregs (w : Wave) (i : Nat) (x : W32) : (w.setD i x).hregs = w.hregs := rfl
@[simp] theorem setD_dregs (w : Wave) (i : Nat) (x : W32) : (w.setD i x).dregs = SMap.set w.dregs i x := rfl
@[simp] theorem setD_wbase (w : Wave) (i : Nat) (x : W32) : (w.setD i x).wbase = w.wbase := rfl
@[simp] theorem setD_wsize (w : Wave) (i : Nat) (x : W32) : (w.setD i x).wsize = w.wsize := rfl
@[simp] theorem setD_links (w : Wave) (i : Nat) (x : W32) : (w.setD i x).links = w.links := rfl
@[simp] theorem setD_spills (w : Wave) (i : Nat) (x : W32) : (w.setD i x).spills = w.spills := rfl
@[simp] theorem setD_wsr (w : Wave) (i : Nat) (x : W32) : (w.setD i x).wsr = w.wsr := rfl
@[simp] theorem setD_tcause (w : Wave) (i : Nat) (x : W32) : (w.setD i x).tcause = w.tcause := rfl
@[simp] theorem setD_tclause (w : Wave) (i : Nat) (x : W32) : (w.setD i x).tclause = w.tclause := rfl
@[simp] theorem setD_tslot (w : Wave) (i : Nat) (x : W32) : (w.setD i x).tslot = w.tslot := rfl
@[simp] theorem setD_taddrlo (w : Wave) (i : Nat) (x : W32) : (w.setD i x).taddrlo = w.taddrlo := rfl
@[simp] theorem setD_taddrhi (w : Wave) (i : Nat) (x : W32) : (w.setD i x).taddrhi = w.taddrhi := rfl
@[simp] theorem setD_tdata (w : Wave) (i : Nat) (x : W32) : (w.setD i x).tdata = w.tdata := rfl
@[simp] theorem setD_tlanes (w : Wave) (i : Nat) (x : W32) : (w.setD i x).tlanes = w.tlanes := rfl
@[simp] theorem setD_heldTrap (w : Wave) (i : Nat) (x : W32) : (w.setD i x).heldTrap = w.heldTrap := rfl
@[simp] theorem setD_fork (w : Wave) (i : Nat) (x : W32) : (w.setD i x).fork = w.fork := rfl
@[simp] theorem setD_second (w : Wave) (i : Nat) (x : W32) : (w.setD i x).second = w.second := rfl
@[simp] theorem setD_pa (w : Wave) (i : Nat) (x : W32) : (w.setD i x).pa = w.pa := rfl
@[simp] theorem setD_pb (w : Wave) (i : Nat) (x : W32) : (w.setD i x).pb = w.pb := rfl
@[simp] theorem setD_tbase (w : Wave) (i : Nat) (x : W32) : (w.setD i x).tbase = w.tbase := rfl
@[simp] theorem setD_seqr (w : Wave) (i : Nat) (x : W32) : (w.setD i x).seqr = w.seqr := rfl
@[simp] theorem setD_resv (w : Wave) (i : Nat) (x : W32) : (w.setD i x).resv = w.resv := rfl
@[simp] theorem setD_task (w : Wave) (i : Nat) (x : W32) : (w.setD i x).task = w.task := rfl
@[simp] theorem setD_poison (w : Wave) (i : Nat) (x : W32) : (w.setD i x).poison = w.poison := rfl
@[simp] theorem setD_openScope (w : Wave) (i : Nat) (x : W32) : (w.setD i x).openScope = w.openScope := rfl
@[simp] theorem setD_batchScope (w : Wave) (i : Nat) (x : W32) : (w.setD i x).batchScope = w.batchScope := rfl

end Sys2Proof.Machine
end

