-- ==== Sys2Proof/Tests/Slice0.lean ====
section
/-! SUPPORT. Tests: ill-formed terms refused, words written out from the spec's encodings decoded, results worked by hand from the
rules, and for each statement with hypotheses a state and operands that meet them. -/

namespace Sys2Proof.Tests

set_option Elab.async false

open Sys2Proof Sys2Proof.Machine

/-! ## States -/

/-- A launch of two waves with a handler at 0x80, an argument of 16 bytes, four tiles and one circle of wave 1. -/
def testLaunch : Launch :=
  { newLaunch 1 { LRec.unset with
      codesize := 0x100, trapentry := 0x80, entry := 0x40, argsize := 16, threads := 64, privbytes := 4096, spdbytes := 4096, asid := 1
      tiles := 4, acckib := 64, circcount := 1, statusptr := 0x200 } 0 0 0 0 0 with
    circles := [2], args := (List.range 16).map fun i => BitVec.ofNat 8 (i + 1), placed := 1 }

def testBlock : Block :=
  { id := 2, launch := 1, index := 0, isTask := false, cores := [0], slots := [0, 1], banks := [false], saved := false
    phase := .running, nwaves := 2, ended := [], circles := [], attached := false, arriving := false, detached := false }

/-- A path that issues slot 0 of the one-slot clause at offset 0x40 that holds the word `w`. -/
def testPath (w : Nat) : PathSt :=
  { PathSt.absent with
    pc := 0x40, phase := .issuing, elig := true
    clause := some { off := 0x40, cls := classOfOp (opcodeOf w), bwait := 0, yld := 0, words := [w] } }

/-- A wave of a block of two, with code at 0 in HBM (headers of one-slot clauses at 0x40 and at 0x80, with an END after the first)
and its page mapped one to one. -/
def testState (w : Nat) : State :=
  { State.reset with
    nextId := 10
    cw := { Wave.free with uid := 1, resid := .active, launch := 1, block := 2, pa := testPath w }
    launches := [(1, testLaunch)], blocks := [(2, testBlock)]
    tlb := [{ die := 0, asid := 1, va := 0, size := 65536, pa := 0, perms := 15, casid := 1, cva := 0, hid := false }]
    hbm := [(0x46, 0x80), (0x47, 0xFF), (0x4E, 0x80), (0x4F, 0x2A), (0x86, 0x80), (0x87, 0xFF)] }

/-- The state with some scalars set. -/
def withS (s : State) (l : List (Nat × W32)) : State := s.onWave fun w => { w with sregs := l }

/-- The state with the path in focus changed. -/
def withPa (s : State) (f : PathSt → PathSt) : State := s.onPa f

/-- A scalar R form, a lane R form. -/
def fS (sub : Fin 32) : RF := ⟨.s 4, .s 5, .s 6, .s 7, 0, 0, false, sub⟩
def fV (sub : Fin 32) : RF := ⟨.v 4, .v 5, .v 6, .v 7, 0, 0, false, sub⟩

/-! ## Ill-formed terms -/

theorem test_reserved_field_refused : (Instr.sadd ⟨.s 0, .s 0, .s 0, .s 0, 0, 0, true, 0⟩).fieldsOk = false := by decide +kernel
theorem test_illegal_operand_refused : (Instr.sadd ⟨.v 0, .s 0, .s 0, .s 0, 0, 0, false, 0⟩).operandsOk = false := by decide +kernel
theorem test_ill_formed_not_well_formed :
    (Instr.sadd ⟨.s 0, .s 0, .s 0, .s 0, 0, 0, true, 0⟩).wellFormed = false ∧
    (Instr.sadd ⟨.v 0, .s 0, .s 0, .s 0, 0, 0, false, 0⟩).wellFormed = false ∧
    (Instr.sadd ⟨.s 0, .s 0, .s 0, .s 0, 0, 0, false, 0⟩).wellFormed = true := by decide +kernel

/-! ## Words written out from the encodings of 01 R26-R37 and the programs of the spec -/

theorem test_decode_nop : decodeWord 0 = .ok .nop := rfl
theorem test_decode_fmul : decodeWord 0x6140B027D0000000 = .ok (.fmul ⟨.v 5, .v 4, .c 0x68, .s 0, 0, 0, false, 0⟩) := rfl
theorem test_decode_brc : decodeWord 0x2880A800FFFFFFF0 = .ok (.brc ⟨.s 5, 2, 0, 0xFFFFFFF0#32⟩) := rfl
theorem test_decode_load : decodeWord 0x824080A200FF0010 = .ok (.ldB32 ⟨.v 4, .s 20, 2, 0, 0, 0, 255, 16#16⟩) := rfl
theorem test_decode_atomic : decodeWord 0x8EC1501A30FF0000 = .ok (.atomCas ⟨.v 10, .v 3, 2, 1, 4, 0, 255, 0#16⟩) := rfl
theorem test_decode_copy : decodeWord 0x9B08060002E00003 = .ok (.copy ⟨1, 0, .s 48, .s 0, 2, 0xE00003#24⟩) := rfl
theorem test_decode_wait : decodeWord 0x9F83C043000003E8 = .ok (.wait ⟨.s 30, .s 8, 1, true, 1000#32⟩) := rfl
theorem test_decode_matrix : decodeWord 0xA41064190B000050 = .ok (.mmas ⟨2, 0, .t 0, .t 1, 3, 0x000050#24⟩) := rfl
theorem test_decode_ray : decodeWord 0xC0431084101E0000 = .ok (.rbox ⟨.v 24, .v 16, .v 8, .s 60, 0, 0, false, 0⟩) := rfl
theorem test_decode_packet : decodeWord 0xCDE0980420000000 = .ok (.wmm ⟨.w 4, .w 0, .v 16, .s 0, 0, 0, false, 0⟩) := rfl
theorem test_decode_spawn : decodeWord 0xE088D0A180000000 = .ok (.spawnc ⟨.s 70, .v 20, 6, false⟩) := rfl
theorem test_decode_moota : decodeWord 0xE9014000FFFFFFFF = .ok (.moota ⟨.s 10, 0xFFFFFFFF#32⟩) := rfl
theorem test_decode_eret : decodeWord 0xF300000000000000 = .ok .eret := rfl
theorem test_decode_unassigned : decodeWord (0x1F8 * 2 ^ 55) = .error .illegalOpcode := rfl
theorem test_decode_reserved : decodeWord 1 = .error .reservedField := rfl
/-- The table numbers bits as the word does (01 R15), and the word placed runs as the first instruction. -/
theorem test_table_word : decodeTableWord 64 0x0100000702000000 = some (.ssub ⟨.s 0, .s 0, .c 1, .s 0, 0, 0, false, 0⟩) := rfl

/-! ## Hypotheses met: encoding, decoding and the step -/

theorem witness_EncodeThenDecode :
    (Instr.sadd ⟨.s 0, .s 0, .c 1, .s 0, 0, 0, false, 0⟩).wellFormed = true ∧ (encode (.sadd ⟨.s 0, .s 0, .c 1, .s 0, 0, 0, false, 0⟩)) = some 0x0080000702000000 := by
  decide +kernel
theorem witness_DecodeThenEncode : 0x2A80000000000000 < 2 ^ 64 ∧ decodeWord 0x2A80000000000000 = .ok (.endP ⟨.s 0, 0, 0, 0#32⟩) :=
  ⟨by decide, rfl⟩

/-- One word for each check of 01 R39, in its order: an opcode no row has, an F instruction in a class V clause, an operand field
that names nothing and a reserved bit, a scalar operation on a vector, a pair at an odd register and ERET outside trap mode, a
vector at the window's size and a CALL of 64 registers under a cap of 32, an END before the last slot, and words that pass. -/
theorem witness_DecodeCheckOrder :
    opAssigned (opcodeOf (0x1F8 * 2 ^ 55)) = false ∧
    (opAssigned (opcodeOf 0x9F30000000000000) = true ∧ classLegal 0 (opcodeOf 0x9F30000000000000) = false) ∧
    slotFields ⟨0, false, 64, 64, true⟩ (0x0100000702000000 + 2 ^ 24) = .error .reservedField ∧
    (fieldsOf (opcodeOf (0x0100000702000000 + 0x1FF * 2 ^ 45)) (fld (0x0100000702000000 + 0x1FF * 2 ^ 45) 0 55) = none ∧
      slotFields ⟨0, false, 64, 64, true⟩ (0x0100000702000000 + 0x1FF * 2 ^ 45) = .error .reservedField) ∧
    slotFields ⟨0, false, 64, 64, true⟩ (0x0100000702000000 + 0x200 * 2 ^ 45) = .error .illegalOperand ∧
    slotFields ⟨5, false, 64, 64, true⟩ 0xF300000000000000 = .error .illegalOperand ∧
    (aboveCap (.b ⟨.s 0, 0, 64, 19#32⟩) (opcodeOf 0x2900020000000013) 32 = true ∧
      slotFields ⟨0, false, 64, 32, true⟩ 0x2900020000000013 = .error .registerWindow) ∧
    slotFields ⟨0, false, 64, 64, false⟩ 0x2A80000000000000 = .error .branchPlacement ∧
    slotFields ⟨0, false, 5, 64, true⟩ 0x6140B027D0000000 = .error .registerWindow ∧
    slotFields ⟨0, false, 6, 64, true⟩ 0x6140B027D0000000 = .ok (.r ⟨.v 5, .v 4, .c 0x68, .s 0, 0, 0, false, 0⟩) :=
  ⟨rfl, ⟨rfl, rfl⟩, rfl, ⟨rfl, rfl⟩, rfl, rfl, ⟨rfl, rfl⟩, rfl, rfl, rfl⟩
theorem witness_ControlTransfersStandLast :
    slotFields ⟨0, false, 64, 64, true⟩ 0x2A80000000000000 = .ok (.b ⟨.s 0, 0, 0, 0#32⟩) ∧
    instrOf (opcodeOf 0x2A80000000000000) (.b ⟨.s 0, 0, 0, 0#32⟩) = some (.endP ⟨.s 0, 0, 0, 0#32⟩) ∧
    slotFields ⟨0, false, 64, 64, false⟩ 0x2A80000000000000 = .error .branchPlacement := ⟨rfl, rfl, rfl⟩

/-- The state whose next turn issues an SSUB. -/
def testIssue : State := { testState 0x0100000702000000 with agenda := [.issue 1 false] }

/-- That state with the path in focus. -/
def testFocus : State := ({ testIssue with agenda := [] }).focus 1 false
def testSsub : Fmt := .r ⟨.s 0, .s 0, .c 1, .s 0, 0, 0, false, 0⟩

theorem witness_StepRunsDecoded :
    testIssue.powered = true ∧ testIssue.agenda = .issue 1 false :: [] ∧
    testFocus.cw.pa.clause = some { off := 0x40, cls := 0, bwait := 0, yld := 0, words := [0x0100000702000000] } ∧
    testFocus.cw.pa.slot = 0 ∧ testFocus.cw.pa.phase = .issuing ∧ (testFocus.cw.tm && !testFocus.cw.pa.inTrap) = false ∧
    testFocus.cw.pa.pend = [] ∧ testFocus.missing 1 false = false ∧
    slotFields { testFocus.decodeCtx 0 testFocus.cw.pa.lastSlot with window := 256 } 0x0100000702000000 = .ok testSsub ∧
    (testFocus.posRegs ((chkFmt 2 testSsub).reads ++ (chkFmt 2 testSsub).writes)).any (testFocus.owed 1 false).contains = false ∧
    (allOf 2 testSsub && testFocus.cw.forked && !testFocus.cw.tm) = false ∧
    testFocus.poisonTrap 2 testSsub (chkFmt 2 testSsub) = none :=
  ⟨rfl, rfl, rfl, rfl, rfl, rfl, rfl, rfl, rfl, rfl, rfl, rfl⟩
theorem witness_StepRunsDecoded_settles :
    testIssue.heldPackets = [] ∧ testIssue.depsDue = false ∧ testIssue.waiters = [] ∧
    (testIssue.launches.any fun l => l.2.aborted) = false ∧ testIssue.accs = [] ∧ testIssue.ops = [] := ⟨rfl, rfl, rfl, rfl, rfl, rfl⟩
theorem test_step_runs_ssub : ∃ t, step testIssue = .next t ∧ t.rdS (.s 0) = 0xFFFFFFFF := ⟨_, rfl, by decide +kernel⟩
theorem test_placed_word_runs : ∃ t, step (State.reset.withFetchWord 64 0x0100000702000000) = .next t ∧ t.rdS (.s 0) = 0xFFFFFFFF :=
  ⟨_, rfl, by decide +kernel⟩

/-- The path before the clause at 0x40, ready. -/
def testReady : State := withPa (testState 0) fun p => { p with clause := none, phase := .ready }

theorem witness_ClauseIsFetchedAtPc :
    testReady.fetchWord testReady.cw.core testReady.lrec testReady.cw.pa.pc = .word 0xFF80000000000000 ∧
    opcodeOf 0xFF80000000000000 = 0x1FF ∧
    testReady.fetchWords (countOf 0xFF80000000000000) (testReady.cw.pa.pc + 8) [] = (.word 0, [0x2A80000000000000], 0x50) ∧
    fld 0xFF80000000000000 52 3 < 6 ∧ fld 0xFF80000000000000 38 2 ≠ 3 ∧ fld 0xFF80000000000000 0 38 = 0 ∧
    testReady.decodeErr 0 1 0 [0x2A80000000000000] = none ∧ testReady.owed 1 false = [] ∧ testReady.cw.pa.replay = none ∧
    (bwaitSet (fld 0xFF80000000000000 40 8)).all
      (fun n => testReady.batchDone 1 n && (testReady.batchFault 1 n).isNone) = true := by
  refine ⟨rfl, rfl, rfl, ?_⟩; decide +kernel

theorem witness_PoweredStepGoesOn :
    State.reset.powered = true ∧ ({ State.reset with powered := false }).powered = false ∧
    ({ State.reset with powered := false, agenda := [.event (.moduleReset true)] }).agenda = .event (.moduleReset true) :: [] :=
  ⟨rfl, rfl, rfl⟩
theorem witness_StepKeepsMemoryForm : (testIssue).memWf = true ∧ ∃ t, step testIssue = .next t := ⟨by decide +kernel, _, rfl⟩

/-! ## Hypotheses met: registers and traps -/

theorem witness_RegisterReadsWhatWasWritten : (382 : Nat) + 1 < 384 ∧ (255 : Nat) < (testState 0).stackRegs ∧ (31 : Nat) < 32 := by
  decide +kernel
theorem witness_SystemRegisters :
    (⟨.s 4, .s 0x1A, .s 0, .s 0, 0, 0, false, 0⟩ : RF).a = .s 0x1A ∧ (17#32 : W32).toNat ≤ 17 ∧ 17 < (18#32 : W32).toNat ∧
    (⟨.s 0, .s 3, .s 6, .s 0, 0, 0, false, 0⟩ : RF).a = .s 3 ∧ (testState 0).rdS (.s 6) = 0 := by decide +kernel
theorem witness_TrapEntry : (testState 0).cw.tm = false ∧ (testState 0).lrec.trapentry ≠ 0xFFFFFFFF := by decide +kernel
theorem test_trap_saves_cause : ((testState 0).trap ⟨0x20, 0x123, 7, 1⟩ 0x40 3).cw.tcause = 0x20 ∧
    ((testState 0).trap ⟨0x20, 0x123, 7, 1⟩ 0x40 3).cw.tslot = 3 ∧
    ((testState 0).trap ⟨0x20, 0x123, 7, 1⟩ 0x40 3).cw.pa.pc = 0x80 := by decide +kernel

/-- The same wave in trap mode, and a launch without a handler, and one that is debugged. -/
def testTm : State := (testState 0).onWave fun w => { (w.setTm true) with tclause := 0x40, tslot := 16, pa := { w.pa with inTrap := true } }
def testNoHandler : State :=
  (testState 0).modLaunch 1 fun l => { l with rec_ := { l.rec_ with trapentry := 0xFFFFFFFF } }
def testDebug : State := (testState 0).modLaunch 1 fun l => { l with rec_ := { l.rec_ with debug := true } }

theorem witness_SoftwareAndUnhandledTraps :
    (testState 0).lrec.debug = false ∧
    (testDebug.cw.tm = false ∧ testDebug.lrec.trapentry ≠ 0xFFFFFFFF ∧ testDebug.lrec.debug = true) ∧
    ((testTm.launchOf testTm.cw.launch).any (fun l => l.lerr == 0 && l.err.isNone) = true ∧ testTm.cw.tm = true) ∧
    ((testNoHandler.launchOf testNoHandler.cw.launch).any (fun l => l.lerr == 0 && l.err.isNone && l.rec_.trapentry == 0xFFFFFFFF) = true ∧
      testNoHandler.cw.tm = false) := by decide +kernel
theorem test_trap_last_slot : ∃ t, exec (.trap ⟨.s 0, .s 0, 0, 99#32⟩) (testState 0) = .next t ∧ t.cw.tslot = 17 ∧ t.cw.tdata = 99 :=
  ⟨_, rfl, by decide +kernel⟩

/-- TSLOT 16 (the header), 0 (below COUNT), 1 and 17 (the successor). -/
theorem witness_TrapReturn : testTm.checkTarget testTm.cw.tclause.toNat = .ok 0xFF80000000000000 ∧ testTm.cw.tslot.toNat = 16 ∧
    (0 : Nat) < countOf 0xFF80000000000000 ∧ countOf 0xFF80000000000000 ≤ 1 ∧ countOf 0xFF80000000000000 ≤ 17 ∧ (17 : Nat) ≠ 16 :=
  ⟨rfl, by decide +kernel⟩

/-! ## Hypotheses met: scalars, branches, calls, forks and predicates -/

theorem witness_NopChangesNothing : opcodeOf 0 = 0 ∧ fld 0 0 55 = 0 ∧ opcodeOf 1 = 0 ∧ fld 1 0 55 ≠ 0 := by decide +kernel
/-- SLDK at the last word and pair of the argument, off the grid, and beyond it. -/
theorem witness_ScalarPairsAndArguments :
    let s := testState 0
    ((s.rdS (.s 5)).toNat + (12#32).toNat = 12 ∧ 12 % 4 = 0 ∧ 12 + 4 ≤ s.lrec.argsize) ∧
    ((s.rdS (.s 5)).toNat + (8#32).toNat = 8 ∧ 8 % 8 = 0 ∧ 8 + 8 ≤ s.lrec.argsize) ∧
    (13 % 4 ≠ 0 ∧ s.lrec.argsize < 16 + 4) ∧ (12 % 8 ≠ 0) := by decide +kernel
theorem test_sldk : ∃ t, exec (.sldk ⟨.s 4, .s 5, 0, 12#32⟩) (testState 0) = .next t ∧ t.rdS (.s 4) = 0x100F0E0D :=
  ⟨_, rfl, by decide +kernel⟩
theorem witness_IntegerResultsInNumbers : (0#32 : W32) = 0 ∧ (1#32 : W32) ≠ 0 := by decide +kernel
theorem test_ssra_by_width : ∃ t, exec (.ssra (fS 0)) (withS (testState 0) [(5, 0x80000000), (6, 32)]) = .next t ∧
    t.rdS (.s 4) = 0xFFFFFFFF := ⟨_, rfl, by decide +kernel⟩
theorem test_sdivu_by_zero : ∃ t, exec (.sdivu (fS 0)) (withS (testState 0) [(5, 7)]) = .next t ∧ t.rdS (.s 4) = 0xFFFFFFFF :=
  ⟨_, rfl, by decide +kernel⟩
theorem test_smulh_signed : ∃ t, exec (.smulh (fS 1)) (withS (testState 0) [(5, 0xFFFFFFFF), (6, 2)]) = .next t ∧
    t.rdS (.s 4) = 0xFFFFFFFF := ⟨_, rfl, by decide +kernel⟩
theorem test_sadda_sign_extends : ∃ t, exec (.saddaI ⟨.s 4, .s 6, 0, 0xFFFFFFFF#32⟩) (withS (testState 0) [(7, 1)]) = .next t ∧
    t.rd64 (.s 4) = 0x00000000FFFFFFFF := ⟨_, rfl, by decide +kernel⟩

/-- A branch of +64 bytes from 0x40 reaches the header at 0x80; CC 2 (not zero) holds of 1 and fails of 0. -/
theorem witness_BranchesReachTargets :
    let s := testState 0
    s.checkTarget 0x80 = .ok 0xFF80000000000000 ∧ (s.cw.pa.here + 8 * (8#32).toNat) % 2 ^ 32 = 0x80 ∧
    branchCond 2 1 s.execMask = true ∧ branchCond 2 (s.rdS (.s 5)) s.execMask = false ∧ s.cw.forked = false ∧
    ((withS s [(5, 0x80)]).rdS (.s 5)).toNat = 0x80 := by
  refine ⟨rfl, ?_⟩; decide +kernel
theorem test_brc_lands : ∃ t, exec (.brc ⟨.s 5, 2, 0, 8#32⟩) (withS (testState 0) [(5, 1)]) = .next t ∧ t.cw.pa.pc = 0x80 :=
  ⟨_, rfl, by decide +kernel⟩

/-- A forked wave that issues in path 0. -/
def testFork : State := (testState 0).onWave fun w => { (w.setForked true) with
  fork := some { base := 0xFFFFFFFF, stack := [], depth := 0 }, pa := { w.pa with base := 0x0000FFFF }
  pb := { PathSt.absent with phase := .ready, pc := 0x80, base := 0xFFFF0000 } }

theorem witness_ControlTraps :
    let s := testState 0
    (s.checkTarget 0x44 = .trap ⟨0x08, 0x44, 0, 0⟩ ∧ 0x44 % 8 ≠ 0) ∧
    (s.checkTarget 0x100 = .trap ⟨0x09, 0x100, 0, 0⟩ ∧ s.lrec.codesize < 0x100 + 8) ∧
    (s.checkTarget 0x48 = .trap ⟨0x08, 0x48, 0, 0⟩ ∧ s.fetchWord s.cw.core s.lrec 0x48 = .word 0x2A80000000000000) ∧
    (testFork.cw.forked = true ∧ testFork.cw.tm = false) ∧ (s.cw.forked = false ∧ s.cw.links = []) ∧
    ((s.onWave fun w => { w with links := List.replicate 127 (64, 0) }).cw.links.length = 127) ∧
    ((withPa s fun p => { p with stack := List.replicate 16 ⟨0, .plain⟩ }).cw.pa.stack.length = 16) ∧
    (s.cw.pa.stack = [] ∧ s.cw.pa.stack.length < 0 + 1) ∧
    ((withPa s fun p => { p with stack := [⟨0, .run1⟩] }).cw.pa.stack.head?.any (fun e => e.kind != .plain) = true) := by
  refine ⟨⟨rfl, ?_⟩, ⟨rfl, ?_⟩, ⟨rfl, rfl⟩, ?_⟩ <;> decide +kernel
theorem test_ret_without_link : ∃ t, exec (.ret ⟨.s 0, 0, 0, 0#32⟩) (testState 0) = .next t ∧ t.cw.tcause = 0x13 :=
  ⟨_, rfl, by decide +kernel⟩

/-- A caller of window 16, and its callee of window 32 before RET. -/
def testCall : State := (testState 0).onWave fun w => { w with wsize := 16 }
def testRet : State := (testState 0).onWave fun w =>
  { w with wsize := 32, wbase := 8, links := [(16, 0x77)], sregs := [(383, 0x80)] }

theorem witness_CallsAndReturns :
    ((testCall.cw.pa.here + 8 * (8#32).toNat) % 2 ^ 32 = 0x80 ∧ testCall.cw.forked = false ∧
      branchCond 0 0 testCall.execMask = true ∧ testCall.cw.links.length < 127 ∧
      segmentsFor (testCall.cw.residentCallers ++ [testCall.cw.wsize]) (testCall.cw.span - 8 + 32) testCall.stackRegs = []) ∧
    (testRet.cw.links = (16, 0x77#32) :: [] ∧ testRet.cw.forked = false ∧ testRet.cw.spills.length < testRet.cw.links.length) := by
  decide +kernel
theorem witness_CallsAndReturns_targets : testCall.checkTarget 0x80 = .ok 0xFF80000000000000 ∧
    testRet.checkTarget (testRet.cw.sreg 383).toNat = .ok 0xFF80000000000000 := ⟨rfl, rfl⟩
theorem test_call_shares_eight : ∃ t, exec (.call ⟨.s 0, 0, 32, 8#32⟩) testCall = .next t ∧ t.cw.wbase = 8 ∧ t.cw.wsize = 32 ∧
    t.cw.sreg 383 = 0x50 := ⟨_, rfl, by decide +kernel⟩
theorem test_ret_restores : ∃ t, exec (.ret ⟨.s 0, 0, 0, 0#32⟩) testRet = .next t ∧ t.cw.wbase = 0 ∧ t.cw.wsize = 16 ∧
    t.cw.sreg 383 = 0x77 ∧ t.cw.pa.pc = 0x80 := ⟨_, rfl, by decide +kernel⟩

/-- An access in flight of the wave. -/
def testAcc (k : AKind) (space : Nat) (dst : List (Cls × Nat)) (p : Piece) : Access :=
  { id := 5, uid := 1, second := false, both := false, core := 0, launch := 1, block := 2, kind := k, space := space, scope := 0
    order := 0, cache := 0, asid := 1, word := 0x48, rm := 0, ftz := false, wpk := false, scalar := true, dst := dst, extra := []
    pieces := [p], since := 0, sent := [(0, 0)] }
def testTask : State := (testState 0).onWave fun w =>
  { w with task := some { target := 0x40, recs := [3], range := false, first := true, sliceNo := 0 } }

theorem witness_EndFreesTheSlot :
    let s := testState 0
    s.cw.resid ≠ .free ∧ s.cw.pb.phase = .idle ∧ s.cw.pa.pend = [] ∧ s.cw.pb.pend = [] ∧ s.accs = [] ∧ s.cw.task = none ∧
    (∃ a ∈ [testAcc (.load 4 false) 0 [(.s, 4)] (Piece.fresh 0 0 0 0)], a.uid = s.cw.uid ∧ a.kind.ofWave = true) ∧
    testTask.cw.task.isSome = true :=
  ⟨by decide +kernel, rfl, rfl, rfl, rfl, rfl, ⟨_, List.mem_singleton.2 rfl, rfl, rfl⟩, rfl⟩
theorem test_end_frees : ∃ t, exec (.endP ⟨.s 0, 0, 0, 0#32⟩) (testState 0) = .next t ∧ t.cw.resid = .free := ⟨_, rfl, by decide +kernel⟩

theorem witness_ForksMakePaths :
    (testState 0).cw.forked = false ∧ testFork.cw.forked = true ∧
    (testState 0).execMask &&& (testState 0).cw.preg 0 = 0 ∧
    ((testState 0).onWave fun w => { w with pflags := [(0, 1)] }).execMask &&& 1 ≠ 0 ∧
    (testFork.onWave fun w => { w with pflags := [(0, 0xFFFF)] }).execMask &&& ~~~(0xFFFF : Mask) = 0 ∧
    testFork.execMask &&& ~~~(testFork.cw.preg 0) ≠ 0 ∧ testFork.cw.pa.stack.length < 15 ∧
    (withPa testFork fun p => { p with stack := List.replicate 15 ⟨0xFFFF, .plain⟩ }).cw.pa.stack.length = 15 ∧
    (testFork.cw.pa.here + 8 * (8#32).toNat) % 2 ^ 32 = 0x80 := by decide +kernel
theorem witness_ForksMakePaths_target : testFork.checkTarget 0x80 = .ok 0xFF80000000000000 := rfl
theorem test_fork_masks : ∃ t, exec (.fork ⟨.p 0, 0, 0, 8#32⟩) ((testState 0).onWave fun w => { w with pflags := [(0, 3)] }) = .next t ∧
    t.cw.pa.base = 0xFFFFFFFC ∧ t.cw.pb.base = 3 ∧ t.cw.pb.pc = 0x80 := ⟨_, rfl, by decide +kernel⟩

theorem witness_JoinMeetsItsFork :
    let run1 (m : Mask) := withPa testFork fun p => { p with stack := [⟨1, .run1⟩, ⟨m, .pend 0x80⟩] }
    ((run1 0).cw.pa.stack = ⟨1, .run1⟩ :: ⟨0, .pend 0x80⟩ :: [] ∧ (run1 2).cw.pa.stack = ⟨1, .run1⟩ :: ⟨2, .pend 0x80⟩ :: []) ∧
    (withPa testFork fun p => { p with stack := [⟨1, .run2⟩] }).cw.pa.stack = ⟨1, .run2⟩ :: [] ∧
    (testFork.cw.fork.any (fun fk => fk.depth == testFork.cw.pa.stack.length) = true ∧ testFork.cw.forked = true ∧
      testFork.cw.pb.phase = .ready) ∧
    (testFork.onWave fun w => { w with pb := { w.pb with phase := .arrived 0x80 false } }).cw.pb.phase = .arrived 0x80 false ∧
    ((testFork.noteFetch 0x80).checkTarget 0x44 matches .trap _) = true ∧
    (testState 0).cw.pa.stack.head?.all (fun e => e.kind == .plain) = true := by decide +kernel
theorem witness_JoinMeetsItsFork_resume :
    (testFork.noteFetch 0x80).checkTarget 0x40 = .ok 0xFF80000000000000 := rfl
theorem test_join_without_fork : ∃ t, exec (.join ⟨.s 0, 0, 0, 8#32⟩) (testState 0) = .next t ∧ t.cw.tcause = 0x12 ∧ t.cw.tdata = 3 :=
  ⟨_, rfl, by decide +kernel⟩

theorem witness_PredicatesAndFlags :
    (withPa (testState 0) fun p => { p with stack := List.replicate 15 ⟨1, .plain⟩ }).cw.pa.stack.length < 16 ∧
    (withPa (testState 0) fun p => { p with stack := [⟨1, .plain⟩] }).cw.pa.stack = ⟨1, .plain⟩ :: [] ∧
    (0 + 1 ≤ [PEntry.mk 1 .plain].length ∧ ([PEntry.mk 1 .plain].take 1).all (fun e => e.kind == .plain) = true) ∧
    (fS 0).sub.val = 0 ∧ (fS 1).sub.val = 1 := by decide +kernel
theorem test_ppush_and : ∃ t, exec (.ppush ⟨.s 0, .p 0, .s 0, .s 0, 0, 0, false, 1⟩)
    ((testState 0).onWave fun w => { w with pflags := [(0, 3)] }) = .next t ∧ t.execMask = 0xFFFFFFFC := ⟨_, rfl, by decide +kernel⟩

/-! ## Hypotheses met: lanes and floating point -/

theorem witness_LanesCrossed : ∃ k : Nat → W32 → Nat → Nat, ∀ mode b l, k mode b l = match mode with
    | 0 => b.toNat % 32
    | 1 => Nat.xor l (b.toNat % 32)
    | 2 => if b.toNat ≤ l then l - b.toNat else l
    | _ => if l + b.toNat ≤ 31 then l + b.toNat else l := ⟨_, fun _ _ _ => rfl⟩

/-- A lane state: v5 of lane 0 and v6 of lane 0 set. -/
def testV (a b : W32) : State := (testState 0).onWave fun w => { w with vregs := [(5 * 32, a), (6 * 32, b), (7 * 32, 1)] }
/-- Lane 0 alone. -/
def lane0 (s : State) : State := s.onPa fun p => { p with base := 1 }

theorem test_vadd_saturates : ∃ t, exec (.vadd ⟨.v 4, .v 5, .v 6, .s 0, 0, 1, false, 0⟩) (lane0 (testV 0x7FFFFFFF 1)) = .next t ∧
    t.rdL (.v 4) 0 = 0x7FFFFFFF := ⟨_, rfl, by decide +kernel⟩
theorem test_vshl_by_width : ∃ t, exec (.vshl (fV 0)) (lane0 (testV 1 32)) = .next t ∧ t.rdL (.v 4) 0 = 0 :=
  ⟨_, rfl, by decide +kernel⟩
theorem test_vmad : ∃ t, exec (.vmad (fV 0)) (lane0 (testV 3 5)) = .next t ∧ t.rdL (.v 4) 0 = 16 := ⟨_, rfl, by decide +kernel⟩
theorem test_vred_adds : ∃ t, exec (.vred ⟨.s 4, .c 3, .s 0, .s 0, 0, 0, false, 0⟩) (testState 0) = .next t ∧ t.rdS (.s 4) = 96 :=
  ⟨_, rfl, by decide +kernel⟩
/-- 1.0 + 2.0 = 3.0; 1.0 / 3.0 to nearest is 0x3EAAAAAB; minus zero is less than plus zero for FMIN (02 R71). -/
theorem test_fadd : ∃ t, exec (.fadd (fV 0)) (lane0 (testV 0x3F800000 0x40000000)) = .next t ∧ t.rdL (.v 4) 0 = 0x40400000 :=
  ⟨_, rfl, by decide +kernel⟩
theorem test_frcp : ∃ t, exec (.frcp (fV 0)) (lane0 (testV 0x40400000 0)) = .next t ∧ t.rdL (.v 4) 0 = 0x3EAAAAAB :=
  ⟨_, rfl, by decide +kernel⟩
theorem test_fmul_nan : ∃ t, exec (.fmul (fV 0)) (lane0 (testV 0x7F800000 0)) = .next t ∧ t.rdL (.v 4) 0 = 0x7FC00000 :=
  ⟨_, rfl, by decide +kernel⟩

/-- A forked wave at VADD with ALL. -/
def testAll : State := { testFork with cw := { testFork.cw with pa := { testPath 0x4040902C0C000020 with base := 0x0000FFFF } } }
theorem witness_MaskedLanesAreKept :
    (testAll.cw.pa.clause.any fun c => c.words[testAll.cw.pa.slot]? == some 0x4040902C0C000020) = true ∧
    testAll.cw.pa.phase = .issuing ∧ testAll.cw.pa.pend = [] ∧ testAll.missing 1 false = false ∧ testAll.cw.tm = false ∧
    slotFields { testAll.decodeCtx 0 testAll.cw.pa.lastSlot with window := 256 } 0x4040902C0C000020 = .ok (.r ⟨.v 4, .v 5, .v 6, .s 0, 0, 0, true, 0⟩) ∧
    testAll.owed 1 false = [] ∧ allOf (opcodeOf 0x4040902C0C000020) (.r ⟨.v 4, .v 5, .v 6, .s 0, 0, 0, true, 0⟩) = true ∧
    testAll.cw.forked = true ∧ 5 < testAll.stackRegs ∧ testAll.execMask.getLsbD 31 = false :=
  ⟨rfl, rfl, rfl, rfl, rfl, rfl, rfl, rfl, rfl, by decide +kernel, rfl⟩
theorem witness_FpArithmetic : (testState 0).rmOf (fV 0).sub.val = 0 := rfl
theorem witness_FixedFunctionResults : (testState 0).rmOf (fV 3).sub.val = 2 := rfl
/-- Slot 0 of the launch is E4M3 (four elements a register), slot 1 FP32, which VPK and VUPK refuse. -/
def testSlots : State := (testState 0).modLaunch 1 fun l => { l with rec_ := { l.rec_ with slots := [4, 1] } }
theorem witness_DotsAndPacks :
    (pkOk (slotEnc (testSlots.slotDesc 0)) 3 = true ∧ testSlots.cw.poison = []) ∧ pkOk (slotEnc (testSlots.slotDesc 0)) 4 = false ∧
    pkOk (slotEnc (testSlots.slotDesc 1)) 0 = false ∧ (fV 6).sub.val = 6 := by decide +kernel
theorem witness_NaNsAreCanonical :
    ((fV 0).dst = .v 4 ∧ (fS 0).dst = .s 4 ∧ 2 ≤ (fV 3).sub.val ∧ (fV 3).sub.val ≠ 4 ∧ (fV 4).sub.val = 4 ∧ (fV 7).sub.val = 7) ∧
    pkOk (slotEnc (testSlots.slotDesc (fV 0).fslot.val)) ((fV 3).sub.val % 8) = true := by decide +kernel
/-- A NaN alone in VRED.F, and a signalling NaN half in FADD.H2 beside a 1.0 (02 R49, R74, R75). -/
theorem test_vredf_canonical : ∃ t, exec (.vredF ⟨.s 4, .v 5, .s 0, .s 0, 0, 0, false, 1⟩) (lane0 (testV 0xFF800001 0)) = .next t ∧
    t.rdS (.s 4) = 0x7FC00000 := ⟨_, rfl, by decide +kernel⟩
theorem test_faddh2_canonical : ∃ t, exec (.faddH2 (fV 0)) (lane0 (testV 0x3C007C01 0)) = .next t ∧
    t.rdL (.v 4) 0 = 0x3C007E00 := ⟨_, rfl, by decide +kernel⟩

/-! ## Hypotheses met: memory instructions -/

/-- A scalar access of s4 at [s20], with space, record and offset; a vector one. -/
def fM (space : Fin 8) (rcd : Fin 256) : MF := ⟨.s 4, .s 20, space, 0, 0, 0, rcd, 0⟩
def fMv (space : Fin 8) : MF := ⟨.v 4, .v 5, space, 0, 0, 0, 255, 0⟩

/-- No lane; an invalid space; a misaligned and an outside address; the last word of the scratchpad. -/
theorem witness_LoadsAndStoresIssue :
    let s := testState 0
    (fM 2 255).rcd.val = 255 ∧
    (withPa s fun p => { p with base := 0 }).laneAddrs (fMv 2) 4 = [] ∧
    (s.laneAddrs (fM 2 255) 4 ≠ [] ∧ s.badSpace [0, 1, 2, 3, 4, 5, 6] 7 = true ∧ s.badSpace [0, 1, 2, 3, 4, 5, 6] 2 = false) ∧
    (withS s [(20, 4094)]).accessTrap (fM 2 255) 4 = some ⟨0x20, 4094, 0, 0⟩ ∧
    (withS s [(20, 4096)]).accessTrap (fM 2 255) 4 = some ⟨0x21, 4096, 0, 0⟩ ∧
    (withS s [(20, 4092)]).accessTrap (fM 2 255) 4 = none ∧
    (withS s [(20, 4092)]).granulesOk 2 ((withS s [(20, 4092)]).laneAddrs (fM 2 255) 4) 4 = true := by decide +kernel
theorem test_load_issues : ∃ t, exec (.ldB32 (fM 2 255)) (testState 0) = .next t ∧ t.accs.length = 1 ∧
    t.owed 1 false = [(.s, 4)] := ⟨_, rfl, by decide +kernel⟩
theorem witness_AccessChecks : (0 : Nat) < 4 ∧ clsOf (fM 2 255).data ≠ .v ∧ clsOf (fM 2 255).addr ≠ .v ∧ clsOf (fMv 2).data = .v ∧
    (lane0 (testV 2 0)).accessTrap (fMv 2) 4 = some ⟨0x20, 2, 0, 1⟩ := by decide +kernel
theorem witness_AtomicsIssue : (fM 2 255).rcd.val = 255 ∧ (withS (testState 0) [(20, 4092)]).accessTrap (fM 2 255) 4 = none ∧
    (withS (testState 0) [(20, 4092)]).badSpace [0, 2, 3, 4, 5, 6] 2 = false := by decide +kernel

/-- A private access of lane 0 at the last word of 4096 bytes, beyond it, and with no lane. -/
def fP (cache : Fin 4) : MF := ⟨.v 4, .v 5, 1, 0, 0, cache, 255, 0⟩
theorem witness_PrivateAccessesIssue :
    let xs (s : State) (e : Nat) := (s.active false).map fun l => (l, s.effAddr (fP 0).addr 1 (fP 0).off e l)
    let trap (s : State) (e limit : Nat) := laneTrap 1 false (xs s e) (fun x => x % e != 0) fun x => x < 0 || x.toNat + e > limit
    (trap (lane0 (testV 4092 0)) 4 4096 = none ∧ (lane0 (testV 4092 0)).active false ≠ []) ∧
    (trap (lane0 (testV 4096 0)) 4 4096).isSome = true ∧ (trap (lane0 (testV 508 0)) 4 512 = none) ∧
    (trap (withPa (testState 0) fun p => { p with base := 0 }) 4 4096 = none ∧
      (withPa (testState 0) fun p => { p with base := 0 }).active false = []) := by decide +kernel
theorem witness_BlockAndShapeInstructions :
    let s := withS (testState 0) [(20, 3968)]
    (s.effAddr (.s 20) 2 0 128 0 = 3968 ∧ s.active false ≠ [] ∧ s.badSpace [0, 2, 3, 4, 5, 6] 2 = false ∧ (3968 : Int) % 128 = 0 ∧
      s.outOfRange 2 3968 128 = false ∧ s.granulesOk 2 [(0, 3968)] 128 = true) ∧
    (s.badSpace [0, 2, 3, 4] 2 = false ∧ s.outOfRange 2 4032 64 = false ∧ s.granulesOk 2 [(0, 4032)] 64 = true) ∧
    shapeField 0 = (0, 56) := by decide +kernel
theorem test_hsetf_keeps_others : ∃ t, exec (.hsetf ⟨.h 1, .s 5, .s 0, .s 0, 0, 0, false, 2⟩)
    ((withS (testState 0) [(5, 3)]).onWave fun w => { w with hregs := [(1, 0xFF)] }) = .next t ∧
    (t.cw.hreg 1).toNat % 256 = 0xFF := ⟨_, rfl, by decide +kernel⟩
theorem witness_FencesAndCacheHints :
    ((if clsOf (fMv 0).addr == .v then (withPa (testState 0) fun p => { p with base := 0 }).active false else [0]) = []) ∧
    ((⟨0, 0⟩ : FenceF).kind.val = 0 ∧ (⟨0, 0⟩ : FenceF).scope.val = 0 ∧ (⟨5, 1⟩ : FenceF).kind.val ≠ 0) ∧
    (clsOf (fM 0 255).addr ≠ .v ∧ (testState 0).badSpace [0, 5] (fM 0 255).space.val = false ∧ (testState 0).accs = [] ∧
      (testState 0).sectors = []) := by decide +kernel

/-- One access of one lane in flight. -/
def withAcc (k : AKind) (space : Nat) (dst : List (Cls × Nat)) (addr data : Nat) : State :=
  { testState 0 with accs := [testAcc k space dst (Piece.fresh 0 0 addr data)] }
theorem witness_LocalAccessesPerform :
    let s := withAcc (.load 4 false) 2 [(.s, 4)] 4092 0
    (s.accs = [testAcc (.load 4 false) 2 [(.s, 4)] (Piece.fresh 0 0 4092 0)] ∧
      (testAcc (.load 4 false) 2 [(.s, 4)] (Piece.fresh 0 0 4092 0)).uid = s.cw.uid ∧ (Piece.fresh 0 0 4092 0).done = false ∧
      s.cw.pa.over = false ∧ s.ops = [] ∧ s.absent = [] ∧ s.barriers = []) ∧
    (rmwNew 9 4 5 (5 + 2 ^ 32 * 7) = some 7 ∧ rmwNew 9 4 6 (5 + 2 ^ 32 * 7) = none) ∧
    (s.granOk 0 1 0x01F00FFC 2 false = true ∧ s.granOk 0 1 0x01F01000 2 false = false ∧
      ({ s with bar := [(0x30000, 0x8003_0001_0001_0000)] }).granOk 0 1 0xFFFC 2 false = true) := by decide +kernel
/-- A load, a store and an atomic of a word of HBM, with nothing cached and with the sector in the L1; one of the circle's
scratchpad. -/
theorem witness_LocalAccessesPerform_caches :
    let s := withAcc (.load 4 false) 0 [(.s, 4)] 0x44 0
    let a := testAcc (.load 4 false) 0 [(.s, 4)] (Piece.fresh 0 0 0x44 0)
    let h : Home := Home.of false 0x44 1 0x44
    let w : How := ⟨false, false, 0, false⟩
    (a.via = none ∧ a.isBlock = false ∧ a.order = 0 ∧ s.findFor a (Piece.fresh 0 0 0x44 0) 0x44 needRD = .at (.sec h 0x44) ∧
      s.locBad (.sec h 0x44) 4 = false ∧ s.sectors = [] ∧ s.ops = []) ∧
    ((w.pt h = .l1 ∧ (⟨true, false, 5, false⟩ : How).pt { h with kind := 1 } = .home) ∧
      (let t := (s.readLoc a.asker w (.sec h 0x44) 4).1
       ((t.sect? 0 h).isSome, (t.sect? (l2Of 0) h).isSome, (s.readLoc a.asker w (.sec h 0x44) 4).2) = (true, true, 0xFF800000))) ∧
    ((withAcc (.load 4 false) 3 [(.s, 4)] 4 0).findFor (testAcc (.load 4 false) 3 [(.s, 4)] (Piece.fresh 0 0 4 0)) (Piece.fresh 0 0 4 0) 4
      needRD = .at (.spd (2 * 8 * 2 ^ 20 + 4))) := by decide +kernel
theorem test_load_of_hbm : ∃ t, exec (.memoryResponse 5 [0]) (withAcc (.load 4 false) 0 [(.s, 4)] 0x44 0) = .next t ∧
    t.rdS (.s 4) = 0xFF800000 := ⟨_, rfl, by decide +kernel⟩
theorem test_store_performs : ∃ t, exec (.storePerform 5 [0]) (withAcc (.store 4) 2 [] 8 0x11223344) = .next t ∧ t.accs = [] ∧
    localRead Config.seedSpd t.spd (spdKey 2 0 8) 4 = 0x11223344 := ⟨_, rfl, by decide +kernel⟩
theorem test_load_performs : ∃ t, exec (.memoryResponse 5 [0])
    { withAcc (.load 1 true) 2 [(.s, 4)] 8 0 with spd := [(spdKey 2 0 8, 0x80)] } = .next t ∧ t.rdS (.s 4) = 0xFFFFFF80 :=
  ⟨_, rfl, by decide +kernel⟩
theorem witness_AtomicValues : (4 = 4 ∨ 4 = 8) ∧ 0xFFFFFFFF < 2 ^ (8 * 4) ∧ (8 = 4 ∨ 8 = 8) ∧ 0 < 2 ^ (8 * 8) ∧
    isNaN32 (BitVec.ofNat 32 0x7FC00000) = true := by decide +kernel

/-! ## Hypotheses met: records, rays, textures, packets and stacks -/

/-- A launch of one record: base 0, extent 64, FP32, interleave 0, no scales (08 R200). -/
def testRec : State := (testState 0).modLaunch 1 fun l =>
  { l with rec_ := { l.rec_ with reccount := 1 }, recs := [64 * 2 ^ 56 + 64 * 2 ^ 96 + 1 * 2 ^ 128] }
/-- The only descriptor page: a texture of 1 × 1 × 1 texel of one FP32 sample, at 0x1000 (13 R316). -/
def testTex : State := { withS (testState 0) [(6, 0x1000)] with
  hbm := [(0x1008, 1), (0x100A, 1), (0x100C, 1), (0x100E, 1), (0x1016, 0x80), (0x1017, 0x3F), (0x1018, 1)] }
def fRay : RF := ⟨.v 8, .v 16, .v 4, .s 6, 0, 0, false, 0⟩

theorem witness_RecordsRaysAndTexturesIssue :
    (fM 2 0).rcd.val ≠ 255 ∧ (testRec.accessLanes (fM 2 0).data (fM 2 0).addr).2 ≠ [] ∧
    testRec.badSpace [0, 1, 2, 3, 4, 5, 6] 2 = false ∧ testRec.recTrap 1 2 0 true false = none ∧
    testRec.recTrap 1 2 0 false false = some ⟨0x25, 0, 0, 0⟩ ∧ testRec.recTrap 1 2 1 true false = some ⟨0x27, 0, 1, 0⟩ ∧
    (0 < testRec.lrec.reccount ∧ (testRec.bufRec 1 0).malformed false = false) ∧
    ((testRec.recAddrs (fM 2 0)).all (fun x => (x.2 - (testRec.bufRec 1 0).base) % (testRec.bufRec 1 0).esize == 0 &&
      !testRec.outOfRange 2 x.2 (testRec.bufRec 1 0).esize) = true) ∧
    ((testRec.recTouched (fM 2 0) 1 false).all (fun y => !testRec.outOfRange 2 y.2 1) = true) ∧
    testRec.granulesOk 2 (testRec.recTouched (fM 2 0) 1 false) 1 = true := by decide +kernel
theorem witness_RecordsRaysAndTexturesIssue_rays :
    ((testState 0).laneAddrs (fM 5 255) 2 ≠ [] ∧ (testState 0).badSpace [5] 5 = false ∧ (testState 0).badSpace [5] 2 = true) ∧
    ((testState 0).rd64 fRay.c).toNat % 128 = 0 ∧ (testState 0).active false ≠ [] ∧
    ((withS (testState 0) [(6, 8)]).rd64 fRay.c).toNat % 16 ≠ 0 ∧ (testTex.rd64 fRay.c).toNat % 64 = 0 ∧ testTex.accs = [] ∧
    (match testTex.readTexDesc 0x1000 with | .ok _ x => (TexDesc.of x).malformed | _ => true) = false ∧
    (match testTex.readTexDesc 0x2000 with | .ok _ x => (TexDesc.of x).malformed | _ => false) = true := by decide +kernel

theorem witness_PacketResults : (testState 0).rmOf (fV 0).sub.val = 0 ∧ (fV 1).sub.val ≠ 0 ∧ (28 : Nat) + 3 < 32 := by decide +kernel
/-- 1.0 + 2.0 on every sample of lane 0. -/
theorem test_wadd : ∃ t, exec (.wadd ⟨.w 2, .w 0, .w 1, .s 0, 0, 0, false, 0⟩)
    (lane0 ((testState 0).onWave fun w => { w with wregs := [(0, 0x3F800000), (256, 0x40000000)] })) = .next t ∧
    t.cw.wsamp 2 0 0 = 0x40400000 := ⟨_, rfl, by decide +kernel⟩

/-- The stack of lane 0 in the pair (v4, v5): base 0, capacity 2, with `n` entries. -/
def testStack (n : Nat) : State := lane0 ((testState 0).onWave fun w =>
  { w with vregs := [(4 * 32, 0), (5 * 32, BitVec.ofNat 32 (2 * 2 ^ 16 + n)), (8 * 32, 0), (9 * 32, 0x40000000)] })
/-- TSPUSH of v8 and v9 onto that stack, and with DROP. -/
def fPush (sub : Fin 32) : RF := ⟨.v 4, .s 0, .v 8, .v 9, 0, 0, false, sub⟩
/-- TSINIT of 512 entries at 0, at 8, which is beyond 4096 bytes, and at 4, and of 4097; a malformed stack; a push with room, one
without and one of a miss; a stack that pops and one that is empty. -/
theorem witness_TraversalStacks :
    let s := testState 0
    let fits (s : State) := (s.active false).all fun l => !(s.tstack (.v 4) l).malformed s.lrec.privbytes
    (((withS s [(5, 0), (6, 512)]).rdS (.s 6)).toNat = 512 ∧ 0 + 8 * 512 ≤ s.lrec.privbytes ∧ 4 % 8 ≠ 0 ∧ 4096 < 4097 ∧
      8 % 8 = 0 ∧ s.lrec.privbytes < 8 + 8 * 512) ∧
    ((testStack 3).tstack (.v 4) 0).malformed 4096 = true ∧
    (fits (testStack 1) = true ∧ ((testStack 1).tstack (.v 4) 0).cap - ((testStack 1).tstack (.v 4) 0).count = 1 ∧
      (testStack 1).rdWords (.v 8) 1 0 = [0] ∧ (fPush 0).sub.val / 4 % 2 = 0 ∧ (fPush 4).sub.val / 4 % 2 = 1) ∧
    (fits (testStack 2) = true ∧ ((testStack 2).tstack (.v 4) 0).cap - ((testStack 2).tstack (.v 4) 0).count = 0) ∧
    (((testStack 1).tstack (.v 4) 0).count ≠ 0 ∧ ((testStack 0).active false).all (fun l => ((testStack 0).tstack (.v 4) l).count == 0) = true ∧
      fits (testStack 0) = true) := by decide +kernel
theorem test_tspush_stores : ∃ t, exec (.tspush (fPush 0)) (testStack 1) = .next t ∧ (t.tstack (.v 4) 0).count = 2 ∧
    (t.accs.flatMap fun a => a.pieces.map fun p => (p.addr, p.data)) = [((testStack 1).sliceAddr (testStack 1).cw 8 0, 0x4000000000000000)] :=
  ⟨_, rfl, by decide +kernel⟩
theorem test_tspush_overflows : ∃ t, exec (.tspush (fPush 0)) (testStack 2) = .next t ∧ t.cw.tcause = 0x21 ∧ t.cw.taddrlo = 16 ∧
    t.cw.tlanes = 1 := ⟨_, rfl, by decide +kernel⟩
theorem test_tsinit : ∃ t, exec (.tsinit ⟨.v 4, .s 5, .s 6, .s 0, 0, 0, false, 0⟩) (withS (testState 0) [(5, 8), (6, 2)]) = .next t ∧
    t.rd64L (.v 4) 0 = 0x0002000000000008 := ⟨_, rfl, by decide +kernel⟩
theorem test_tspop_empty : ∃ t, exec (.tspop ⟨.v 6, .v 4, .s 0, .s 0, 0, 0, false, 0⟩) (testStack 0) = .next t ∧
    t.rd64L (.v 6) 0 = 0x7F800000FFFFFFFF := ⟨_, rfl, by decide +kernel⟩

/-! ## Hypotheses met: asynchronous operations -/

/-- A shape: space, base, rank, encoding, two dimensions, the stride of the second and two box extents (05 R129). -/
def testShape (space base rank enc d0 d1 stride b0 b1 : Nat) : BitVec 512 :=
  BitVec.ofNat 512 (base + space * 2 ^ 56 + rank * 2 ^ 59 + enc * 2 ^ 64 + d0 * 2 ^ 128 + d1 * 2 ^ 152 + stride * 2 ^ 256 +
    b0 * 2 ^ 416 + b1 * 2 ^ 428)
/-- Shapes of eight FP32 elements at 0 and 64 of the scratchpad, and the arguments of NMWALK: one ray. -/
def testCopy : State := (withS (testState 0) [(50, 1)]).onWave fun w =>
  { w with hregs := [(0, testShape 2 64 1 1 8 0 0 8 0), (1, testShape 2 0 1 1 8 0 0 8 0)] }
def fCopy : AF := ⟨1, 0, .s 48, .s 0, 0, 0⟩

theorem witness_CopiesIssue :
    testCopy.copyTrap (testCopy.copyOp .copy fCopy) = none ∧
    (testState 0).copyTrap ((testState 0).copyOp .copy fCopy) = some ⟨0x27, 0, 0x341, 0⟩ ∧ testCopy.outstanding 1 < 64 ∧
    (let w := { testCopy.newOp .nmwalk with args := testCopy.argGroup fCopy.opa }
     w.rayBase % 32 = 0 ∧ w.result % 16 = 0 ∧ w.descAt % 32 = 0 ∧ 1 ≤ w.nray ∧ w.nray ≤ 65536 ∧ w.cape ≤ 16777215) ∧
    ({ (withS testCopy [(48, 1)]).newOp .nmwalk with args := (withS testCopy [(48, 1)]).argGroup fCopy.opa }).rayBase % 32 ≠ 0 ∧
    ({ (testState 0).newOp .nmwalk with args := (testState 0).argGroup fCopy.opa }).nray = 0 := by
  decide +kernel
theorem test_copy_lists : ∃ t, exec (.copy fCopy) testCopy = .next t ∧ t.ops.length = 1 := ⟨_, rfl, by decide +kernel⟩

/-- Tiles 0 and 1: 16 rows of 32 FP16; slot 0 FP16; a 16 × 16 FP16 shape at 0 of the scratchpad in h2, one of 16 × 32 in h3. -/
def testTiles : State := { (withS (testState 0) [(51, 16 + 16 * 65536), (8, 1), (9, 16)]) with
  tctl := [(tileKey 2 0 0, 2 + 16 * 64 + 32 * 8192), (tileKey 2 0 1, 2 + 16 * 64 + 32 * 8192)]
  launches := [(1, { testLaunch with rec_ := { testLaunch.rec_ with slots := [2] } })]
  cw := { (testState 0).cw with
    sregs := [(8, 1), (9, 16), (51, 16 + 16 * 65536)]
    hregs := [(2, testShape 2 0 2 2 16 16 32 16 16), (3, testShape 2 0 2 2 32 16 64 32 16)] } }
def fTile (ha hb : Fin 16) (opa opb : Operand) : AF := ⟨ha, hb, opa, opb, 0, 0⟩

theorem witness_EngineOperationsIssue :
    let s := testTiles
    (s.nameTrap (.t 3) = none ∧ s.nameTrap (.t 4) = some ⟨0x26, 0, toField (.t 4), 0⟩ ∧ s.nameTrap (.acc 3) = none ∧
      (s.nameTrap (.acc 4)).isSome = true) ∧
    s.scaleTrap (s.rdS (.s 0)).toNat 2064 16 = none ∧
    (1 ≤ (s.rdS (.s 8)).toNat ∧ (s.rdS (.s 8)).toNat ≤ 16 ∧ (s.rdS (.s 0)).toNat % 4 = 0 ∧ s.scaleTrap 0 4 4 = none) ∧
    ((s.rdS (.s 9)).toNat % 16 = 0 ∧ (s.rdS (.s 0)).toNat + 2 * (s.rdS (.s 9)).toNat + 16 ≤ s.spdOf s.cw.block) ∧
    (ctlTrap (s.ctlOf s.cw.block s.cw.core (s.tileNo (.t 0))) (toField (.t 0)) = none ∧
      (Shp.of (s.cw.hreg 3)).malformed = false ∧ tileSpaces.contains (Shp.of (s.cw.hreg 3)).space = true ∧
      (Shp.of (s.cw.hreg 3)).flat false = false ∧ (Shp.of (s.cw.hreg 3)).rank = 2 ∧ isCbEnc 2 = false ∧
      ctlEnc (s.ctlOf s.cw.block s.cw.core 0) = (Shp.of (s.cw.hreg 3)).enc) ∧
    (let t := { s.tileOp .tld (fTile 0 3 (.t 0) (.s 0)) 3 with slotDesc := 2 }; s.rangeTrap t t.hb t.ha = none) ∧
    s.engineRoom [0] = true := by decide +kernel
theorem witness_MatrixOperationsIssue :
    let s := testTiles
    let ca := s.ctlOf s.cw.block s.cw.core (s.tileNo (.t 0))
    (s.nameTrap (.acc 0) = none ∧ s.nameTrap (.t 0) = none ∧ s.nameTrap (.t 1) = none ∧ ctlTrap ca (toField (.t 0)) = none ∧
      mmaClass (ctlEnc ca) = 1 ∧ ctlCols (s.ctlOf s.cw.block s.cw.core (s.tileNo (.t 1))) = ctlCols ca ∧
      ctlRows (s.ctlOf s.cw.block s.cw.core (s.tileNo (.t 1))) ≤ 64) ∧
    (let o := { s.newOp .mdrain with
        ha := 2, flags := 0, slotDesc := 2, shapes := [s.cw.hreg 2], args := s.argGroup (.s 48), names := [0] }
     o.comp = false ∧ o.bias = false ∧ o.drainM = 16 ∧ o.drainN = 16 ∧ o.dshape.malformed = false ∧
      tileSpaces.contains o.dshape.space = true ∧ o.dshape.flat false = false ∧ o.dshape.rank = 2 ∧ o.dshape.enc = slotEnc 2 ∧
      s.rangeTrap o o.hb o.ha = none) := by decide +kernel
theorem test_mma_lists : ∃ t, exec (.mma ⟨0, 0, .t 0, .t 1, 0, 0⟩) testTiles = .next t ∧ t.ops.length = 1 ∧ t.cw.tm = false :=
  ⟨_, rfl, by decide +kernel⟩

/-- An open operation and one of batch 3. -/
def testOp (id : Nat) (kind : OKind) (batch : Option Nat) : AOp := { testCopy.newOp kind with id := id, batch := batch, names := [1] }
theorem witness_AcloseMovesTheOpenSet :
    (∃ o ∈ [testOp 5 .tzero none], o.uid = 1 ∧ o.batch = none) ∧ (∃ o ∈ [testOp 6 .tzero (some 3)], o.uid = 1 ∧ o.batch ≠ none) ∧
    0 < 2 ^ 52 - 1 ∧ 2 ^ 52 - 1 < 2 ^ 52 :=
  ⟨⟨_, List.mem_singleton.2 rfl, rfl, rfl⟩, ⟨_, List.mem_singleton.2 rfl, rfl, by decide⟩, by decide, by decide⟩
theorem test_aclose : ∃ t, exec (.aclose ⟨3⟩) { testState 0 with ops := [testOp 5 .tzero none] } = .next t ∧
    t.ops.map AOp.batch = [some 3] := ⟨_, rfl, by decide +kernel⟩

/-- The copy in flight, with all landed, and with a fault. -/
def testFlight : AOp := { testCopy.copyOp .copy fCopy with id := 5 }
def withOp (o : AOp) : State := { testCopy with ops := [o] }
theorem witness_CopiesLandAndComplete :
    ((withOp testFlight).opOf 5).isSome = true ∧ testFlight.id = 5 ∧ testFlight.isCopy = true ∧ testFlight.done = false ∧
    (withOp testFlight).opOrdered testFlight = true ∧ testFlight.pending 7 = true ∧ testFlight.fault = none ∧
    ({ testFlight with landed := List.range 8, counted := testFlight.unitsNow }).copyOver = true ∧
    ((withOp testFlight).ops.countP fun p => p.id == 5) = 1 := by decide +kernel
/-- Element 7 of the copy and of a fill; a source element outside its tensor; a copy whose destination's page is not mapped, which
faults; all elements landed. -/
theorem witness_CopiesLandAndComplete_elements :
    let far : AOp := { testFlight with shapes := [testShape 0 (2 ^ 40) 1 1 8 0 0 8 0] ++ testFlight.shapes.drop 1 }
    (7 < testFlight.count ∧ 7 ∉ testFlight.landed ∧ testFlight.raced = false ∧ 7 ∉ testFlight.spoil ∧ testFlight.flag 1 = false ∧
      (testCopy.spotReach far (⟨0, 2 ^ 43 * 1, 32⟩ : Spot) needWR matches .fault ..) ∧
      testCopy.crossed = [] ∧ testFlight.dstSpot 7 = some ⟨2, 8 * 28, 32⟩ ∧ testFlight.srcSpot 7 = some ⟨2, 8 * 92, 32⟩ ∧ (withOp testFlight).barriers = []) ∧
    ({ testFlight with kind := .cpfill }.dstSpot 7 = some ⟨2, 8 * 28, 32⟩) ∧
    (∀ k, k < testFlight.count → { testFlight with landed := List.range 8 }.dstSpot k = none ∨ k ∈ List.range 8) := by decide +kernel
/-- A store whose bytes a copy in flight of the path reads races with it; one beside the copy's bytes does not (09 R228). -/
theorem witness_LocalAccessesPerform_race :
    let a (x : Nat) := testAcc (.store 4) 2 [] (Piece.fresh 0 0 x 0)
    let o := { testFlight with id := 4 }
    let s (x : Nat) := { withOp o with accs := [a x] }
    (s 64).racesWith (a 64) (Piece.fresh 0 0 64 0) o = true ∧
    (s 96).racesWith (a 96) (Piece.fresh 0 0 96 0) o = false ∧ (s 96).racesWalk (a 96) (Piece.fresh 0 0 96 0) o = false := by decide +kernel
theorem test_copy_completes : ∃ t, exec (.asyncOpComplete 5) (withOp { testFlight with landed := List.range 8 }) = .next t ∧
    t.ops = [] := ⟨_, rfl, by decide +kernel⟩
theorem test_copy_lands : ∃ t, exec (.copyUnitsLand 5 [0]) { withOp testFlight with spd := [(spdKey 2 0 64, 0xAB), (spdKey 2 0 65, 0), (spdKey 2 0 66, 0), (spdKey 2 0 67, 0)] } = .next t ∧
    SMap.get? t.spd (spdKey 2 0 0) = some 0xAB := ⟨_, rfl, by decide +kernel⟩

theorem witness_EngineWorks :
    let z := testOp 5 .tzero none
    ((withOp z).opOf 5).isSome = true ∧ (withOp z).mayStart z = true ∧ (z.kind.steps && z.flag 0) = false ∧
    (withOp { z with started := true }).mayStart { z with started := true } = false ∧
    ({ z with started := true }).kind.engine = true ∧ z.names = [1] ∧ z.spoil = [] ∧ z.raced = false ∧
    (let r := { testOp 5 .ttrun none with flags := 1 }; (withOp r).mayStart r = true ∧ r.kind.steps = true ∧ r.flag 0 = true) ∧
    (let w := testOp 5 .nmwalk none; w.done = false ∧ (withOp w).opOrdered w = true ∧ w.fault = none ∧ w.started = false) := by
  decide +kernel

/-- An MMA of 16 by 16 by 32 under way, and a drain of 2 by 2 elements of FP16, with and without COMP (of E2M1 then). -/
def testMma : AOp := { testTiles.newOp .mma with
  id := 5, started := true, names := [0, 0, 1], ctl := [testTiles.ctlOf 2 0 0, testTiles.ctlOf 2 0 1] }
def testDrain (flags slot : Nat) (shape : BitVec 512) : AOp := { testTiles.newOp .mdrain with
  id := 5, started := true, names := [0], flags := flags, slotDesc := slot, shapes := [shape]
  args := [0, 0, 0, BitVec.ofNat 32 (2 + 2 * 65536), 0, 0, 1024, 0] }
def drainSpots (o : AOp) : List Spot := (List.range o.count).filterMap o.dstSpot
theorem witness_EngineWorks_elements :
    let d := testDrain 0 2 (testShape 2 0 2 2 16 16 32 16 16)
    let c := testDrain (2 ^ 16) (4 + 64) (testShape 2 0 2 4 16 16 32 16 16)
    (testMma.kind = .mma ∧ testMma.started = true ∧ testMma.done = false ∧ testMma.spoil = [] ∧ testTiles.badWords = [] ∧ testMma.dimM = 16 ∧
      testMma.dimN = 16 ∧ testMma.dimK = 32) ∧
    (d.kind = .mdrain ∧ d.fault = none ∧ d.spoil = [] ∧ testTiles.barriers = [] ∧ testTiles.crossed = [] ∧ d.dshape.space = 2 ∧ d.comp = false ∧
      drainSpots d = [⟨2, 0, 16⟩, ⟨2, 16, 16⟩, ⟨2, 256, 16⟩, ⟨2, 272, 16⟩]) ∧
    (c.comp = true ∧ c.i32 = false ∧ (drainSpots c).all (fun p => p.bitpos % 8 == 0 && p.bits == 8 && decide (p.bitpos / 8 + 1 ≤ 1024)) = true ∧
      ceilDiv c.drainN (slotBlk c.slotDesc) = 1) := by decide +kernel
/-- A drain of FP32 words to FP16: 1 and 2 (12 R291; 10 R257). -/
theorem test_drain_writes : ∃ t, exec (.engineOpComplete 5) { testTiles with
      ops := [testDrain 0 2 (testShape 2 0 2 2 16 16 32 16 16)]
      accm := [0, 1, 64, 65].map fun i => (fragKey 2 0 0 * 4096 + i, 0x3F800000#32 + BitVec.ofNat 32 (i % 2) * 0x800000) } = .next t ∧
    localRead Config.seedSpd t.spd (spdKey 2 0 0) 4 = 0x40003C00 ∧ t.ops = [] := ⟨_, rfl, by decide +kernel⟩

theorem witness_TilesAndFragmentsByLanes :
    (fV 5).sub.val = 5 ∧ (fV 0).sub.val ≠ 5 ∧ testTiles.nameTrap (.t 0) = none ∧ testTiles.accs = [] ∧ testTiles.ops = [] ∧
    ctlTrap (testTiles.ctlOf 2 0 0) (toField (.t 0)) = none ∧ slotEnc 2 = ctlEnc (testTiles.ctlOf 2 0 0) ∧ isCbEnc (slotEnc 2) = false ∧
    slotEnc 1 ≠ ctlEnc (testTiles.ctlOf 2 0 0) ∧ testTiles.nameTrap (.acc 0) = none ∧ testTiles.badWords = [] ∧ testTiles.cw.pa.waited = false ∧
    testTiles.tileBusy (tileKey 2 0 0) = false ∧
    vcvtLanes (testTiles.active false) (testTiles.ctlOf 2 0 0) 15 0 ≠ [] ∧ vcvtLanes (testTiles.active false) (testTiles.ctlOf 2 0 0) 16 0 = [] := by decide +kernel
theorem test_mttc_rows : ∃ t, exec (.mttc ⟨.t 3, .c 0x20, .s 0, .s 0, 0, 0, false, 1⟩) (testState 0) = .next t ∧
    ctlRows (t.ctlOf 2 0 3) = 32 := ⟨_, rfl, by decide +kernel⟩

/-! ## Hypotheses met: barriers and waits -/

/-- The state with its block changed. -/
def withBlk (f : Block → Block) : State := { testState 0 with blocks := [(2, f testBlock)] }
/-- Wave 1 has arrived in circle 0. -/
def testArrived : State := withBlk fun b => { b with circles := [(0, { gen := 0, arrived := [(1, none)], prev := [] })] }

theorem witness_CircleBarriers :
    let r (s : State) (x : Option W32) (c : Nat) :=
      (s.releaseAt s.cw.core s.cw.launch 1 (s.multiOf s.cw.block)).circleArrive s.cw.block c s.cw.widx x
    (testArrived.arriveTrap 0 = none ∧ (testArrived.circ 0).arrived.lookup 0 = none ∧ testArrived.accs = [] ∧
      ((r testArrived none 0).circ 0).gen ≠ (testArrived.circ 0).gen) ∧
    ((testState 0).arriveTrap 0 = none ∧ ((r (testState 0) none 0).circ 0).gen = ((testState 0).circ 0).gen) ∧
    ((testState 0).isMember 0 = true ∧ tokenOver 1 0 = true ∧ tokenOver 0 0 = false ∧ tokenOver 0x7FFFFFFF 0 = true ∧
      tokenOver 0x80000000 0 = false) ∧
    (testFork.cw.forked = true ∧ testFork.cw.tm = false) ∧ ((testState 0).isMember 1 = false) := by decide +kernel
theorem test_bar_completes : ∃ t, exec (.bar ⟨.s 4, .s 5, 0, 0⟩) testArrived = .next t ∧ (t.circ 0).gen = 1 ∧ t.cw.pa.phase ≠ .issuing :=
  ⟨_, rfl, by decide +kernel⟩
theorem test_bara_token : ∃ t, exec (.bara ⟨.s 4, 0⟩) (withS testArrived [(4, 9)]) = .next t ∧ t.rdS (.s 4) = 0 ∧ (t.circ 0).gen = 1 :=
  ⟨_, rfl, by decide +kernel⟩

/-- A byte barrier at 4080 of the scratchpad with one arrival left; a WAIT for the PTP time in s8. -/
def testBarr : State := (withS (testState 0) [(5, 4080)]).setBarr (spdKey 2 0 4080)
  { pend := 0, arrive := 1, members := 2, circle := 0, phase := false, err := false, rest := 0 }
def testWait (time : W32) : State := withS (testState 0) [(8, 6), (9, time)]
def fWait : WaitF := ⟨.s 30, .s 8, 0, false, 100#32⟩
def testWaiting (time : W32) : WaitPark := { dst := .s 30, all := false, conds := [[6, time, 0, 0]], since := 0, timeout := 100 }
def testPark (time timeout : W32) : State := withPa (testWait time) fun p =>
  { p with phase := .parked (.wait { dst := .s 30, all := false, conds := [[6, time, 0, 0]], since := 0, timeout := timeout.toNat }) }

theorem witness_ByteBarriersAndWaits :
    ((testBarr.rdS (.s 5)).toNat = 4080 ∧ testBarr.blk = some testBlock ∧ 4080 % 16 = 0 ∧ 4080 + 16 ≤ testBarr.spdOf 2 ∧
      testBarr.accs = [] ∧ testBarr.ops = [] ∧ spdKey 2 0 4080 ∉ testBarr.barriers) ∧ (8 % 16 ≠ 0 ∧ testBarr.spdOf 2 < 4096 + 16) ∧
    ((testBarr.barrAt (spdKey 2 0 4080)).arrive = 1 ∧ testBarr.isMember (testBarr.barrAt (spdKey 2 0 4080)).circle = true ∧
      testBarr.cw.forked = false ∧ 2147483647 < 2 ^ 31) ∧
    ((testWait 0).condTrap (toField (.s 8)) [6, 0, 0, 0] = none ∧ (testWaiting 0).ordered = [(0, [6, 0, 0, 0])] ∧
      (let r := (testWait 0).condsEval (testWaiting 0) (testWaiting 0).ordered
       r.trap = none ∧ r.seen = [(0, true, false)] ∧ r.unread = false) ∧
      (let r := (testWait 5).condsEval (testWaiting 5) (testWaiting 5).ordered
       r.trap = none ∧ r.seen = [(0, false, false)] ∧ r.unread = false) ∧ fWait.timeout ≠ 0 ∧ condRemote [6, 5, 0, 0] = false) ∧
    (condKind [6, 5, 0, 0] = 6 ∧ condAddr [6, 0, 0, 0] ≤ (testPark 0 0).ptp ∧ (testPark 5 0).ptp < condAddr [6, 5, 0, 0] ∧
      (testPark 5 0).cw.resid = .active ∧ (testPark 5 0).cw.tm = false ∧ (testPark 5 0).cw.pa.pend = [] ∧
      (testPark 5 0).cw.pa.phase = .parked (.wait { testWaiting 5 with timeout := 0 })) := by decide +kernel
theorem test_barx_last : ∃ t, exec (.barx ⟨.s 4, .s 5, .s 6⟩) testBarr = .next t ∧ t.rdS (.s 4) = 0 ∧
    (t.barrAt (spdKey 2 0 4080)).phase = true ∧ (t.barrAt (spdKey 2 0 4080)).arrive = 2 := ⟨_, rfl, by decide +kernel⟩
theorem test_wait_holds : ∃ t, exec (.wait fWait) (testWait 0) = .next t ∧ t.rdS (.s 30) = 1 := ⟨_, rfl, by decide +kernel⟩
theorem test_wait_times_out : ∃ t, exec (.waitTimeout 1 false) (testPark 5 0) = .next t ∧ t.rdS (.s 30) = 0x80000000 :=
  ⟨_, rfl, by decide +kernel⟩

/-! ## Hypotheses met: tasks, moots and gangs -/

/-- A reservation of two; a task wave; a range wave of 40 iterations; a queued record. -/
def testResv : State := (testState 0).onWave fun w => { w with resv := some { total := 2, used := 0, written := [] } }
def testRecord (range : Option (Nat × Nat)) : TaskRec :=
  { id := 3, launch := 1, die := 0, core := 0, target := 0x40, payload := [], join := none, range := range, published := true
    served := false, since := 0 }
def testRange : State := { (testState 0).onWave (fun w =>
  { w with task := some { target := 0x40, recs := [3], range := true, first := true, sliceNo := 0 } }) with
  tasks := [testRecord (some (0, 40))] }
def testQueue : State := { testState 0 with tasks := [testRecord none], clk := 2048 }
def testDonor : State := { testState 0 with tasks := [testRecord (some (0, 40))] }
def testFuture : State := (testState 0).onWave fun w =>
  { w with resid := .future, task := some { target := 0x40, recs := [3], range := false, first := true, sliceNo := 0 }
           pa := { w.pa with phase := .parked .miss } }

theorem witness_TasksRun :
    ((testState 0).accs = [] ∧ ((withS (testState 0) [(5, 0x40)]).rdS (.s 5)).toNat % 8 = 0 ∧ 0x40 < (testState 0).lrec.codesize ∧
      (lane0 (testState 0)).lanePays (.v 4) 0 = [[]] ∧ (withPa (testState 0) fun p => { p with base := 0 }).lanePays (.v 4) 0 = [] ∧
      (testState 0).storeUsed 0 + 1 ≤ 16384) ∧
    ((testResv.cw.resv = some { total := 2, used := 0, written := [] }) ∧ (testState 0).cw.resv = none ∧ testResv.storeUsed 0 = 2) ∧
    ((testState 0).cw.task = none ∧ testTask.cw.task.isSome = true ∧ testTask.cw.forked = false ∧ testTask.cw.pa.stack = []) ∧
    (testRange.tasks.find? (fun r => [3].contains r.id) = some (testRecord (some (0, 40)))) ∧
    (testQueue.nextList 0 = some (testRecord none) ∧ testQueue.slotFree 0 5 256 = true ∧ testQueue.swapping 0 = false ∧
      testQueue.allWaves.any (fun w => w.core == 0 && testQueue.futureReady w) = false ∧ 0 + 2048 ≤ testQueue.clk) ∧
    ((List.range 96).any (fun x => !((testDonor.heldSlots 1 false).map (·.1)).contains x) = true ∧ testDonor.listsEmpty 1 = true ∧
      (askOrder 1).find? (fun c => testDonor.hasWork c) = some 0 ∧ testDonor.splittable 0 = some (testRecord (some (0, 40)))) ∧
    ((testFuture.waveOf 1).isSome = true ∧ testFuture.futureReady testFuture.cw = true ∧ testFuture.slotFree 0 5 256 = true ∧
      testFuture.abortedL 1 = false) := by decide +kernel
/-- A spawn with a join word in the granary, one at a misaligned address; a gathered wave that takes its next record. -/
def testJoin (a : W32) : State := withS (testState 0) [(5, 0x40), (10, a)]
def fSpawn (jsp : Bool) : SpawnF := ⟨.s 5, .v 4, 1, .s 10, jsp, false⟩
def testGather : State := { (testState 0).onWave (fun w =>
  { w with task := some { target := 0x40, recs := [], range := false, first := false, sliceNo := 0 } }) with
  tasks := [{ testRecord none with payload := [7] }] }
theorem witness_TasksRun_joins :
    let s := testJoin 0x01F00010
    ((s.rdS (fSpawn true).tgt).toNat = 0x40 ∧ s.lanePays (fSpawn true).pay 1 ≠ [] ∧ (s.rd64 (fSpawn true).join).toNat = 0x01F00010 ∧
      s.storeUsed 0 + 32 ≤ 16384 ∧ s.granOk 0 s.lrec.asid 0x01F00010 needAT false = true ∧
      (match s.joinAdd 0 1 2 0x01F00010 true 32 true with | .ok _ => true | _ => false) = true) ∧
    (match s.joinAdd 0 1 2 (2 ^ 40) false 32 true with | .ok _ => false | _ => true) = true ∧
    ((testGather.taskList 0 1 0x40).map (·.id) = [3] ∧ 1 ≤ testGather.stackRegs) := by decide +kernel
theorem test_spawn_misaligned_join : ∃ t, exec (.spawn (fSpawn true)) (testJoin 2) = .next t ∧ t.cw.tcause = 0x20 ∧ t.tasks = [] :=
  ⟨_, rfl, by decide +kernel⟩
theorem test_tnext_gathered : ∃ t, exec (.tnext ⟨.s 4, .v 0, 1⟩) testGather = .next t ∧ t.rdS (.s 4) = 1 ∧ t.rdL (.v 0) 0 = 7 :=
  ⟨_, rfl, by decide +kernel⟩
theorem test_tnext_range : ∃ t, exec (.tnext ⟨.s 4, .v 0, 0⟩) { testRange with tasks := [testRecord (some (38, 40))] } = .next t ∧
    t.cw.pa.base = 3 := ⟨_, rfl, by decide +kernel⟩
theorem test_tres_over : ∃ t, exec (.tres ⟨.s 4, .s 5⟩) (withS (testState 0) [(5, 4097)]) = .next t ∧ t.rdS (.s 4) = 0x80000002 :=
  ⟨_, rfl, by decide +kernel⟩

/-- The number a gang of GID 7 and GPKGS 0 goes by (18 R370). -/
def gangKey : Nat := 7 * 64
/-- A gang of this package alone, of two blocks, and one of two packages. -/
def testGang (g : Gang) : State := { testState 0 with
  launches := [(1, { testLaunch with gangAsked := true, placed := 2, rec_ := { testLaunch.rec_ with gang := true, gridx := 2, gid := 7 } })]
  gangs := [(gangKey, { g with size := 2, pkgs := 1, blocks := 2 })] }
def testTwo (g : Gang) : State := { testState 0 with gangs := [(gangKey, { g with pkgs := 2 })] }
def attachedGang : State := { testGang (Gang.absent gangKey) with blocks := [(2, { testBlock with attached := true })] }

/-- The attached block has an access of before the arrival in flight. -/
def heldGang : State := { attachedGang with
  accs := [testAcc (.store 4) 2 [] (Piece.fresh 0 0 8 0)], blocks := [(2, { testBlock with attached := true, before := [5] })] }

theorem witness_MootsAndGangs :
    (testState 0).myRank = none ∧ (testGang (Gang.absent gangKey)).lrec.gangKey = gangKey ∧
    (attachedGang.mootOver gangKey = true ∧ heldGang.mootOver gangKey = false ∧ heldGang.myRank = some 0) ∧
    (attachedGang.myRank = some 0 ∧ (attachedGang.blk.any fun b => b.attached && !b.detached) = true ∧ attachedGang.accs = []) ∧
    ((testGang (Gang.absent gangKey)).myRank = some 0 ∧ ((testGang (Gang.absent gangKey)).blk.any fun b => !b.attached && !b.arriving) = true) ∧
    (((testGang { Gang.absent gangKey with arrived := [0, 1] }).gangOf gangKey).ready 2 = true ∧
      ((testGang { Gang.absent gangKey with arrived := [0] }).gangOf gangKey).ready 2 = false) ∧
    ([(attachedGang.gangOf gangKey).attached, (attachedGang.gangOf gangKey).departed, (attachedGang.gangOf gangKey).detached][3 - 1]? = some []) ∧
    ({ testState 0 with blocks := [] }).blk = none ∧
    ((testGang { Gang.absent gangKey with arrived := [0, 1] }).gangBlocks gangKey).head? = some testBlock ∧
    (let g := (testTwo { Gang.absent gangKey with asked := [0, 1] }).gangOf gangKey
     0 < g.pkgs ∧ g.asked.length = g.pkgs ∧ g.reserved.length < g.pkgs ∧ g.turn = false) ∧
    (let g := (testTwo { Gang.absent gangKey with asked := [0] }).gangOf gangKey
     g.asked ≠ [] ∧ g.asked.length < g.pkgs ∧ g.firstAsk + 5000000 ≤ 5000000) ∧
    (let s := testGang { Gang.absent gangKey with turn := true }
     (s.gangOf gangKey).turn = true ∧ s.gangLaunches gangKey ≠ [] ∧
     (s.gangLaunches gangKey).all (fun l => l.placed == l.rec_.blocks) = true ∧ (s.gangLaunches gangKey).any (fun l => l.rec_.prank == 0) = true) ∧
    (let s := { withPa (testGang (Gang.absent gangKey)) (fun p => { p with phase := .parked (.moota (.s 4) 0 5) }) with ref := 5 }
     s.cw.pa.phase = .parked (.moota (.s 4) 0 5) ∧ 0 + 5 ≤ s.ref ∧ (s.gangOf gangKey).ready 2 = false) := by decide +kernel

/-! ## Hypotheses met: paths, pages, launches and blocks -/

def testMiss : Miss := { token := 4, asid := 1, page := 9, kind := 0, die := 0, posted := true }
theorem witness_PathsAndPages :
    ((testState 0).pipeHeld 0 0 0 = true ∧ (testState 0).pipeHeld 0 0 2 = false ∧ (testState 0).swapping 0 = false ∧
      ({ testState 0 with coreSt := [(0, ⟨false, true, none⟩)] }).swapping 0 = true) ∧
    ((withPa (testState 0) fun p => { p with phase := .parked (.store 1) }).parkOver (testState 0).cw false (.store 1) = true ∧
      (withPa (testState 0) fun p => { p with phase := .parked (.store 20000) }).parkOver (testState 0).cw false (.store 20000) = false ∧
      (testState 0).abortedL 1 = false) ∧
    ((withPa (testState 0) fun p => { p with pend := [⟨0x23, 0, 0, 0⟩] }).cw.pa.takesFault = true ∧
      (testState 0).cw.pa.takesFault = false ∧ (testState 0).missing 1 false = false ∧ ((testState 0).waveOf 1).isSome = true) ∧
    ((testState 0).missOf 4 = none ∧ ({ testState 0 with misses := [testMiss] }).missOf 4 = some testMiss) := by decide +kernel
theorem witness_PathsAndPages_candidates :
    let s := withPa (testState 0) fun p => { p with phase := .ready, clause := none }
    (s.candidates 0 0 0).map (fun x => x.1.uid) = [1] ∧ s.pipeHeld 0 0 0 = false := by decide +kernel
/-- The clause at 0x40 starts from the path that is ready before it; a path in the handler takes a fault of its own. -/
theorem witness_PathsAndPages_starts :
    testReady.candidates 0 0 0 = [(testReady.cw, false)] ∧ testReady.cw.second = false ∧ testReady.cw.pa.phase = .ready ∧
    testReady.cw.pa.pend = [] ∧ testReady.cw.tm = false ∧ testReady.cw.heldTrap = none ∧ testReady.missing 1 false = false := by
  decide +kernel
theorem witness_PathsAndPages_clause :
    testReady.nextClause = .start { off := 0x40, cls := 0, bwait := 0, yld := 0, words := [0x2A80000000000000], window := testReady.cw.wsize } 0 := rfl
theorem witness_PathsAndPages_handler :
    let s := testTm.onPa fun p => { p with pend := [⟨0x23, 0, 0, 0⟩] }
    s.cw.pa.takesFault = true ∧ s.cw.pa.inTrap = true ∧ s.cw.pa.phase ≠ .ending := by decide +kernel

/-- A ready package whose queue 0 of the PF is enabled and holds a record's address. -/
def testReadyPkg (addr : List Nat) : State := { testState 0 with
  bar := [(0x08, 1), (0x20000, 1)], queues := [(0, { Queue.reset with en := true, pending := addr })] }
def testPlacing (prio : Nat) (r : LRec → LRec) : State := { testState 0 with
  launches := [(1, { testLaunch with rec_ := r { testLaunch.rec_ with slots := [] }, placed := 0, prio := prio, waiting := some 0 })]
  blocks := [], cw := Wave.free, ref := 10000 }
/-- The block's waves have ended. -/
def testExit : State := { withBlk (fun b => { b with phase := .exiting, ended := [0, 1] }) with cw := Wave.free }

theorem witness_LaunchesAndBlocks :
    ((testReadyPkg []).isReady = true ∧ ((testReadyPkg []).queue 0).fn = 0 ∧ (testReadyPkg []).submitOk 0 0x100 = true ∧
      ((testReadyPkg []).queue 0).pending = [] ∧ (0x2000 : Nat).testBit 13 = true ∧ (0 : Nat).testBit 13 = false) ∧
    (((testReadyPkg [0x100]).queue 0).pending = [0x100] ∧ ((testReadyPkg [0x100]).queue 0).en = true ∧ (testReadyPkg [0x100]).trv = true ∧
      (testReadyPkg [0x100]).running 0 < 8 ∧ (testState 0).trv = false) ∧
    ((testState 0).launchOf 1 = some testLaunch ∧ (testState 0).launchOver testLaunch = false) ∧
    ((testPlacing 0 id).mayPlace (((testPlacing 0 id).launchOf 1).getD testLaunch) [0, 1] = true ∧
      (testPlacing 0 id).mayPlace (((testPlacing 0 id).launchOf 1).getD testLaunch) [0] = false) ∧
    (SMap.get? (withBlk fun b => { b with phase := .placed }).blocks 2 = some { testBlock with phase := .placed } ∧
      (testState 0).staggerOk testLaunch 0 = true ∧ (testState 0).heldUp testLaunch 0 = false ∧ testLaunch.rec_.gang = false) ∧
    (SMap.get? testExit.blocks 2 = some { testBlock with phase := .exiting, ended := [0, 1] } ∧
      testExit.blockQuiet { testBlock with phase := .exiting } = true ∧ testBlock.phase ≠ .exiting ∧ testBlock.saved = false) ∧
    ((testState 0).saveQuiet testBlock = false ∧ ((withPa (testState 0) fun p => { p with phase := .ready }).saveQuiet testBlock = true)) ∧
    (let b := { testBlock with saved := true }
     ({ testState 0 with blocks := [(2, b)], cw := Wave.free }).placesFit (({ testState 0 with blocks := [(2, b)] }).lrecOf 1) false [0, 1]
       = true ∧ (({ testState 0 with blocks := [(2, b)] }).lrecOf 1).formOk [0, 1] = true ∧
       ((({ testState 0 with blocks := [(2, b)] }).lrecOf 1).coresOf [0, 1]).any (testState 0).swapping = false) ∧
    ((((testPlacing 2 id).launchOf 1).any fun l => l.prio == 2 && l.waiting == some 0) = true ∧ 0 + 10000 ≤ (testPlacing 2 id).ref) ∧
    ((testState 0).preempting testLaunch = false ∧ (testState 0).pipesIdle 1 = true ∧ (testState 0).shadowEmpty 0 = true) ∧
    (({ testState 0 with coreSt := [(3, ⟨false, true, none⟩)] }).exchangeGroup 3).all
      (fun c => ({ testState 0 with coreSt := [(3, ⟨false, true, none⟩)] }).swapping c &&
        ({ testState 0 with coreSt := [(3, ⟨false, true, none⟩)] }).pipesIdle c) = true := by decide +kernel

/-! ## Hypotheses met: time, frames, administration and the fabric -/

def testStream : State := { testReadyPkg [] with streams := [(0, { Stream.reset with nbuf := 1, ringn := 1, period := 1000 })] }
def testFrame : State := { testState 0 with streams := [(0, { Stream.reset with en := true, nbuf := 1, nextseq := 1 })] }
theorem witness_TimeAndFrames :
    (fS 0).sub.val = 0 ∧ (fS 1).sub.val ≠ 0 ∧ (testState 0).launchOf (testState 0).cw.launch = some testLaunch ∧
    (16 ≤ (16 : Nat) ∧ ((testState 0).stream 15).en = false) ∧
    ((testFrame.stream 0).en = true ∧ (testFrame.stream 0).lastseq < 2 ^ 32 ∧ 1 = ((testFrame.stream 0).lastseq + 1) % 2 ^ 32 ∧
      1 = (testFrame.stream 0).nextseq ∧ 1 ≤ (testFrame.stream 0).nbuf ∧ testFrame.accs = []) ∧
    (bit ((testState 0).barWord barSnap) 0 = false ∧ bit (({ testState 0 with bar := [(barSnap, 1)] }).barWord barSnap) 0 = true ∧
      (testState 0).snapBusy = false ∧ ({ testState 0 with bar := [(barSnap + 0x18, 1)] }).snapBusy = true) ∧
    (({ testState 0 with bar := [(barSnap, 2)] }).snapPtpDue = true ∧ (testState 0).snapPtpDue = false) ∧
    ((testReadyPkg []).isReady = true ∧ (testState 0).isReady = false ∧ (testReadyPkg []).snapFired = false ∧
      ((testReadyPkg []).snapFire 2 0).snapFired = true) ∧
    ((testStream.stream 0).en = false ∧ testStream.isReady = true ∧ (testStream.stream 0).ok = true ∧ (testStream.stream 1).ok = false ∧
      testStream.ptp ≤ (testStream.stream 0).epoch) ∧
    (let s := { testFrame with streams := [(0, { testFrame.stream 0 with stepAt := some 0 })] }
     (s.stream 0).stepAt = some s.ref ∧ (testFrame.stream 0).stepAt ≠ some testFrame.ref) ∧ ({ testState 0 with ptpLocked := true }).ptpLocked = true := by decide +kernel
/-- Commits that are not newer, late, in time and too far ahead; a SNAP whose tick has come, with the trigger free and busy. -/
theorem witness_TimeAndFrames_answers :
    let d (last q : Nat) : Nat := (q + 2 ^ 32 - last) % 2 ^ 32
    (d 5 5 = 0 ∧ 2 ^ 31 ≤ d 5 4 ∧ d 5 6 = 1 ∧ 2 ^ 31 ≤ d 7 6 ∧ d 6 6 < 1 ∧ 1 ≤ d 6 8 ∧ d 6 8 < 2 ^ 31) ∧
    (let s := withPa (testState 0) fun p => { p with phase := .parked (.snap (.s 4) 9 0) }
     s.snapping s.cw.pa = some (.s 4, 9) ∧ s.snapping s.cw.pb = none ∧ s.waves = [] ∧ s.snapBusy = false ∧ s.snapFired = false ∧
       ({ s with bar := [(barSnap + 0x18, 1)] }).snapBusy = true ∧
       ({ s with bar := [(barSnap + 0x18, 1)] }).snapTick.rdS (.s 4) = 0) := by decide +kernel
theorem test_framec_late : ∃ t, exec (.framec ⟨.s 4, .s 5, .s 6⟩)
      (withS { testFrame with streams := [(0, { testFrame.stream 0 with nextseq := 9 })] } [(6, 1), (4, 9)]) = .next t ∧
    t.rdS (.s 4) = 1 ∧ (t.stream 0).latecnt = 1 := ⟨_, rfl, by decide +kernel⟩
theorem test_framec_commits : ∃ t, exec (.framec ⟨.s 4, .s 5, .s 6⟩) (withS testFrame [(6, 1), (4, 9)]) = .next t ∧
    t.rdS (.s 4) = 0 ∧ (t.stream 0).lastseq = 1 := ⟨_, rfl, by decide +kernel⟩

/-- The clock at its bounds; the reset key; a command that runs. -/
theorem witness_AdministrationActs :
    (800 ≤ fld (({ State.reset with bar := [(barPSTAT, 800)] }).barWord barPSTAT) 0 12) ∧
    (fld 0x72560001 16 16 = 0x7256 ∧ 0x72560001 % 2 = 1 ∧ (testReadyPkg []).isReady = true ∧ State.reset.isReady = false ∧
      fld 0x72550001 16 16 ≠ 0x7256) ∧ State.reset.launches = [] ∧
    (bit ((testReadyPkg []).barWord 0x20028) 0 = false ∧ bit (({ testReadyPkg [] with bar := [(0x08, 1), (0x20028, 1)] }).barWord 0x20028) 0 = true) ∧
    (State.reset.mbCmd = none ∧ ({ State.reset with mbCmd := some (0x1000, 0, false) }).mbCmd = some (0x1000, 0, false) ∧
      bit (State.reset.barWord barMbMsi) 11 = false) ∧ (2 ^ 55 - 4) + 4 ≤ 2 ^ 55 ∧ 512 < 513 := by decide +kernel
/-- MEASURE of every register, EXTEND of the fourth by one byte, a PTPCFG of a source and a mode, and a command no row has. -/
theorem witness_AdministrationActs_mailbox :
    let s (op len : Nat) (l : SMap Byte) : State := { State.reset with mbCmd := some (op, len, false), mbdata := l }
    let req (s : State) (len : Nat) := (List.range len).map s.mbByte
    ((s 0x20 0 []).mbCmd = some (0x20, 0, false) ∧ State.reset.fw.up = false ∧
      (let t := { s 0x20 0 [] with fw := { State.reset.fw with up := true } }
       t.fw.up = true ∧ (List.range 8).all (fun i => (t.stewardBoot.measure i).length == 64) = true)) ∧
    (3 ≤ bytesNat ((req (s 0x21 5 [(0, 3), (1, 0), (2, 0), (3, 0), (4, 0)]) 5).take 4) ∧ bytesNat ((req (s 0x21 5 [(0, 3), (1, 0), (2, 0), (3, 0), (4, 0)]) 5).take 4) ≤ 7) ∧
    (bytesNat (((req (s 0x30 4 [(0, 0), (1, 0), (2, 1), (3, 0)]) 4).drop 1).take 1) ≤ 2 ∧
      bytesNat (((req (s 0x30 4 [(0, 0), (1, 0), (2, 1), (3, 0)]) 4).drop 2).take 2) ≠ 0) ∧ 0x1000 ≤ 0x1000 ∧ 0xFFFF < 0x10000 := by decide +kernel
theorem test_clock_slows : ∃ t, exec (.powerSample 0 105) { State.reset with bar := [(barPSTAT, 2000)] } = .next t ∧
    fld (t.barWord barPSTAT) 0 12 = 1975 := ⟨_, rfl, by decide +kernel⟩

def testRemote : Access := testAcc (.load 4 false) 5 [(.s, 4)] (Piece.fresh 0 0 0 0)
theorem witness_FabricActs :
    let s := { testState 0 with accs := [testRemote], ref := 200000 }
    (s.remote 5 = some testRemote ∧ testRemote.since + 200000 ≤ s.ref ∧ testRemote.kind.stores = false) ∧
    (s.remote 6 = none ∧ ({ s with ref := 199999 }).ref < testRemote.since + 200000) ∧
    (fld ({ s with bar := [(barFab, 2 ^ 32 + 65536 * 3)] }.barWord barFab) 16 16 = 3) ∧
    (SMap.get? ({ s with seqSeen := [(5, ())] }).seqSeen (0 * 2 ^ 64 + 5)).isSome = true ∧ (31 : Nat) < 32 ∧
    (s.request 5 = some 0 ∧ 0 + 3200 ≤ s.ref ∧ ({ s with ref := 3199 }).ref < 0 + 3200 ∧ s.request 6 = none) ∧
    (testRemote.space = 5 ∧ testRemote.pieces[0]? = some (Piece.fresh 0 0 0 0) ∧ (Piece.fresh 0 0 0 0).settled = false) ∧
    ((testState 0).packetWaits 1 gangKey 0 4 = false) ∧
    ((testState 0).gangOf gangKey).turn = false := by decide +kernel

/-- A record at 0x1000 of one block of two waves, and function 0's page mapped one to one (04 R87). -/
def testAccept : State := { testReadyPkg [0x1000] with
  tlb := [{ die := 0, asid := 0, va := 0, size := 65536, pa := 0, perms := 15, casid := 0, cva := 0, hid := false }]
  hbm := [(0x1009, 1), (0x100C, 0x40), (0x1010, 0x80), (0x1020, 1), (0x1022, 1), (0x1024, 1), (0x1028, 64), (0x102A, 64), (0x102C, 64),
    (0x1059, 2)] }
def acceptedRec : Nat := match testAccept.devRead 0 0 0x1000 256 with | (.ok b, _) => bytesNat b | _ => 0
theorem witness_LaunchesAndBlocks_accept :
    (acceptedRec ≠ 0 ∧ reservedSet acceptedRec = false ∧ (LRec.parse acceptedRec).bad = false ∧ (LRec.parse acceptedRec).queue = 0 ∧
      testAccept.fnOk 0 (LRec.parse acceptedRec).asid = true ∧ (LRec.parse acceptedRec).tooBig = false ∧
      (testAccept.queue 0).got = [] ∧ (testAccept.queue 0).taking = none ∧
      (let r := (testAccept.readOnce 0 0 0 0x1000 256).2.readTables 0 (LRec.parse acceptedRec)
       (r.1, r.2.2) = (.ok [], [], [], [])) ∧ circlesBad (LRec.parse acceptedRec).waves [] = false ∧
      testAccept.running 0 < 8) ∧
    (match ({ testAccept with tlb := [{ die := 0, asid := 0, va := 0, size := 65536, pa := 0, perms := 2, casid := 0, cva := 0, hid := false }] }).devRead
      0 0 0x1000 256 with | (.fault _, _) => true | _ => false) = true := by decide +kernel
/-- A launch that queue 0 checks, one whose tables lie on a page that is not mapped, and one whose argument may not be read. -/
theorem witness_LaunchesAndBlocks_check :
    let s := { testState 0 with queues := [(0, { Queue.reset with taking := some 1, got := [[]] })] }
    let far := { testLaunch with rec_ := { testLaunch.rec_ with argptr := 2 ^ 40 } }
    (s.queue 0).taking = some testLaunch.id ∧ s.launchOf testLaunch.id = some testLaunch ∧ s.inCheck 1 = true ∧
    (match s.readTables 0 testLaunch.rec_ with | (.ok _, _, _, _, cs) => !circlesBad testLaunch.rec_.waves cs | _ => false) = true ∧
    (match s.readTables 0 far.rec_ with | (.ok _, _) => false | _ => true) = true := by decide +kernel
theorem test_launch_accepted : ∃ t, exec (.launchAccept 0) testAccept = .next t ∧ (t.queue 0).pending = [] ∧
    (t.launches.map fun x => (x.1, x.2.lerr)) = [(1, 0), (10, 0)] := ⟨_, rfl, by decide +kernel⟩

/-- A launch that is over, whose status block at 0x2000 may be written, may not, or lies on a page that is not mapped. -/
def testOver (ptr perms : Nat) : State := { testAccept with
  launches := [(1, { testLaunch with exited := 1, placed := 1, lerr := 5, err := some ⟨1, 0, 0, 0, 0⟩, rec_ := { testLaunch.rec_ with asid := 0, statusptr := ptr } })]
  blocks := [], accs := [], ops := [], cw := Wave.free, waves := []
  tlb := [{ die := 0, asid := 0, va := 0, size := 65536, pa := 0, perms := perms, casid := 0, cva := 0, hid := false }] }
def overWrite (s : State) (ptr : Nat) : DevIo × State :=
  s.draw.2.devWrite 0 0 (ptr + 4) (((s.launchOf 1).getD testLaunch).statusBytes s.draw.1)
theorem witness_LaunchesAndBlocks_completes :
    ((testOver 0x2000 15).launchOf 1).any (fun l => (testOver 0x2000 15).launchOver l && !l.silent && !l.statusless) = true ∧
    (testOver 0x2000 15).draw.2.DevAt 0 0x2004 28 false 0x2004 ∧ (overWrite (testOver 0x2000 15) 0x2000).2.DevAt 0 0x2000 4 false 0x2000 ∧
    SMap.wf (testOver 0x2000 15).launches = true ∧ (testOver 0x2000 15).sectors = [] ∧
    (match (overWrite (testOver 0x2000 1) 0x2000).1 with | .fault _ => true | _ => false) = true ∧
    (match (overWrite (testOver (2 ^ 40) 15) (2 ^ 40)).1 with | .ok _ => false | _ => true) = true :=
  ⟨by decide +kernel, by unfold State.DevAt; decide +kernel, by unfold State.DevAt; decide +kernel, by decide +kernel, rfl, by decide +kernel, by decide +kernel⟩
theorem test_launch_completes : ∃ t, exec (.launchComplete 1) (testOver 0x2000 15) = .next t ∧ t.launches = [] ∧
    (List.range 8).map (fun i => t.homeByte false (0x2000 + i)) = [5, 0, 0, 0x80, 5, 0, 0, 0] := ⟨_, rfl, by decide +kernel⟩

/-- A launch that depends on a word at 0x2000; a launch of priority 3 that finds no room, and the block it may displace. -/
def testDep : State := { testAccept with
  launches := [(1, { testLaunch with rec_ := { testLaunch.rec_ with asid := 0, deps := [0x2000] }, depsMet := [false] })] }
/-- Core 0 exchanges its banks, with nothing issuing; a swap back of core 1, whose shadow bank holds the block. -/
def testShadow : State := { withBlk (fun b => { b with cores := [1], slots := [96, 97], banks := [true] }) with cw := Wave.free }
theorem witness_LaunchesAndBlocks_swaps :
    ((testDep.launchOf 1).any (fun l => !l.aborted && l.depsMet[0]? == some false && l.rec_.deps[0]? == some 0x2000) = true ∧
      testDep.inCheck 1 = false ∧ (match testDep.devRead 0 0 0x2000 4 with | (.ok _, _) => true | _ => false) = true) ∧
    (testShadow.swapping 1 = false ∧ testShadow.activeBlocks 1 = [] ∧ testShadow.shadowEmpty 1 = false ∧ testShadow.pipesIdle 1 = true ∧
      (SMap.getD testShadow.coreSt 1 CoreSt.reset).guest = none) ∧
    (let s := { testShadow with
       coreSt := [(1, ⟨false, false, some 4⟩)], blocks := testShadow.blocks ++ [(3, { testBlock with id := 3, launch := 4, cores := [1] })] }
     (SMap.getD s.coreSt 1 CoreSt.reset).guest = some 4 ∧ (s.activeBlocks 1).any (fun b => b.launch == 4) = true ∧
       s.shadowEmpty 1 = false ∧ s.swapping 1 = false ∧ s.pipesIdle 1 = true) := by
  decide +kernel

/-- A block of launch 1, with one wave, on each cluster of die 0; the next block of launch 4, of priority 3, needs every partition of
a cluster of die 0. -/
def testSwap (r : LRec → LRec) : State := { testState 0 with
  launches := [
    (1, { testLaunch with placed := 14, rec_ := r { testLaunch.rec_ with ctxsave := 0x10000, slots := [], gridx := 14 } }),
    (4, { testLaunch with
      id := 4, prio := 3, placed := 0, ordinal := 1, queue := 1
      rec_ := { testLaunch.rec_ with slots := [], dies := 1, gridx := 1, place := 2, threads := 2048, stackregs := 512 } })]
  cw := Wave.free
  waves := (List.range 14).map fun c => (c + 30, { Wave.free with uid := c + 30, resid := .active, launch := 1, block := c + 2, core := 8 * c })
  blocks := (List.range 14).map fun c =>
    (c + 2, { testBlock with id := c + 2, cores := (List.range 8).map (8 * c + ·), slots := [768 * c], nwaves := 1, index := c,
                             banks := List.replicate 8 false }) }
def swapPlaces : List Nat := (List.range 64).map fun i => i % 8 * 96 + 12 * (i / 8)
theorem witness_LaunchesAndBlocks_preempt :
    ((testSwap id).launchOf 4).any (fun l => l.id == 4 && (testSwap id).preempting l && l.rec_.formOk swapPlaces && !l.rec_.gang &&
      ((testSwap id).swapSets l).contains (l.rec_.coresOf swapPlaces) &&
      !((testSwap id).swapSets l).any (fun d => keyLt ((testSwap id).swapKey d) ((testSwap id).swapKey (l.rec_.coresOf swapPlaces))) &&
      (testSwap id).placesFit l.rec_ true swapPlaces && (testSwap id).turnOf l 0 &&
      (testSwap id).rotationOk l ((l.rec_.coresOf swapPlaces).headD 0 / 8) &&
      (testSwap id).staggerOk l (Config.dieOf ((l.rec_.coresOf swapPlaces).headD 0))) = true := by decide +kernel
/-- The blocks hold every tile of their cores, so that no core may be swapped. -/
def testSave : State := testSwap fun r => { r with tiles := 64 }
theorem witness_LaunchesAndBlocks_save :
    (SMap.get? testSave.blocks 2).any (fun b => b.id == 2 && testSave.saveQuiet b && !b.cores.any testSave.swapping &&
      testSave.launches.any (fun x => testSave.preempting x.2 && (testSave.swapSets x.2).isEmpty && testSave.savable x.2 b &&
        testSave.blocks.all fun c => !testSave.savable x.2 c.2 || !keyLt (testSave.victimKey c.2) (testSave.victimKey b))) = true := by
  decide +kernel

/-- VCVT and MDRAIN to FP32 with SAT clamp an infinity (07 R166; 10 R257, R263). -/
theorem test_fp32_sat_clamps : roundTo encFp32 (fp32Val 0x7F800000#32) 0 true false = 0x7F7FFFFF := by decide +kernel

end Sys2Proof.Tests
end

/-! # The instruction word: its encoding, the checks of a slot, and the start of a clause -/

namespace Sys2Proof

open Sys2Proof.Machine

/-! ## Fields of an instruction word written as a sum (01 R26) -/

theorem toField_lt (o : Operand) : toField o < 1024 := by
  cases o <;> simp only [toField] <;> omega

/-- The operand field is read back as the operand it was written from (01 R33). -/
theorem ofField_toField (o : Operand) : ofField (toField o) = some o := by
  cases o with
  | s i => exact dif_pos i.isLt
  | _ i => revert i; decide +kernel

theorem fld_mul_add {a b lo n : Nat} (hb : b < 2 ^ lo) (ha : a < 2 ^ n) : fld (a * 2 ^ lo + b) lo n = a := by
  rw [fld, Nat.mul_comm, Nat.mul_add_div (Nat.two_pow_pos lo), Nat.div_eq_of_lt hb, Nat.add_zero, Nat.mod_eq_of_lt ha]

theorem fld_mul {a lo n : Nat} (ha : a < 2 ^ n) : fld (a * 2 ^ lo) lo n = a := fld_mul_add (b := 0) (Nat.two_pow_pos lo) ha

theorem fld_of_lt {a n : Nat} (ha : a < 2 ^ n) : fld a 0 n = a := by
  rw [fld, Nat.pow_zero, Nat.div_one, Nat.mod_eq_of_lt ha]

/-- A field above every bit of the word is 0. -/
theorem fld_above {b lo n : Nat} (hb : b < 2 ^ lo) : fld b lo n = 0 := by
  rw [fld, Nat.div_eq_of_lt hb, Nat.zero_mod]

/-- A field below the top summand does not see it. -/
theorem fld_below_add {a b k lo n : Nat} (h : lo + n ≤ k) : fld (a * 2 ^ k + b) lo n = fld b lo n := by
  obtain ⟨d, rfl⟩ := Nat.exists_eq_add_of_le h
  rw [fld, fld, Nat.add_assoc, Nat.pow_add, Nat.pow_add, Nat.mul_left_comm a, Nat.mul_add_div (Nat.two_pow_pos lo),
    Nat.add_comm, Nat.mul_left_comm, Nat.add_mul_mod_self_left]

theorem fld_below {a k lo n : Nat} (h : lo + n ≤ k) : fld (a * 2 ^ k) lo n = 0 := by
  simpa [fld] using fld_below_add (a := a) (b := 0) h

/-- An immediate below the top summand does not see it. -/
theorem ofNat_below_add {a b k n : Nat} (h : n ≤ k) : BitVec.ofNat n (a * 2 ^ k + b) = BitVec.ofNat n b := by
  obtain ⟨d, rfl⟩ := Nat.exists_eq_add_of_le h
  refine BitVec.eq_of_toNat_eq ?_
  rw [BitVec.toNat_ofNat, BitVec.toNat_ofNat, Nat.pow_add, Nat.mul_left_comm, Nat.add_comm, Nat.add_mul_mod_self_left]

theorem fin_val_self {n : Nat} (h : 0 < n) (i : Fin n) : fin n i.val h = i := Fin.ext (Nat.mod_eq_of_lt i.isLt)

/-- An operand as the value of its 10-bit field. -/
def fieldVal (o : Operand) : Fin 1024 := ⟨toField o, toField_lt o⟩

theorem toField_eq_fieldVal (o : Operand) : toField o = (fieldVal o).val := rfl

theorem ofField_fieldVal (o : Operand) : ofField (fieldVal o).val = some o := ofField_toField o

/-- A flag as the value of its 1-bit field. -/
def flagVal (b : Bool) : Fin 2 := ⟨b.toNat, b.toNat_lt⟩

theorem toNat_eq_flagVal (b : Bool) : b.toNat = (flagVal b).val := rfl

theorem flagVal_beq_one (b : Bool) : ((flagVal b).val == 1) = b := by cases b <;> rfl

/-! ### The five general formats (01 R26). The word is a variable, so that no proof evaluates it. -/

theorem RF.ofBits_bits {f : RF} {x : Nat} (h : x = f.bits) : RF.ofBits x = some f := by
  simp (disch := omega) only [RF.ofBits, h, RF.bits, toField_eq_fieldVal, toNat_eq_flagVal, Nat.add_assoc, fld_mul_add, fld_of_lt,
    fld_below_add, ofField_fieldVal, fin_val_self, flagVal_beq_one]

theorem IF.ofBits_bits {f : IF} {x : Nat} (h : x = f.bits) : IF.ofBits x = some f := by
  simp (disch := omega) only [IF.ofBits, h, IF.bits, toField_eq_fieldVal, Nat.add_assoc, fld_mul_add, fld_below_add,
    ofField_fieldVal, fin_val_self, ofNat_below_add, BitVec.ofNat_toNat, BitVec.setWidth_eq]

theorem MF.ofBits_bits {f : MF} {x : Nat} (h : x = f.bits) : MF.ofBits x = some f := by
  simp (disch := omega) only [MF.ofBits, h, MF.bits, toField_eq_fieldVal, Nat.add_assoc, fld_mul_add, fld_below_add,
    ofField_fieldVal, fin_val_self, ofNat_below_add, BitVec.ofNat_toNat, BitVec.setWidth_eq]

theorem BF.ofBits_bits {f : BF} {x : Nat} (h : x = f.bits) : BF.ofBits x = some f := by
  simp (disch := omega) only [BF.ofBits, h, BF.bits, toField_eq_fieldVal, Nat.add_assoc, fld_mul_add, fld_above,
    fld_below_add, ofField_fieldVal, fin_val_self, ofNat_below_add, BitVec.ofNat_toNat, BitVec.setWidth_eq, bne_self_eq_false,
    Bool.false_eq_true, if_false]

theorem AF.ofBits_bits {f : AF} {x : Nat} (h : x = f.bits) : AF.ofBits x = some f := by
  simp (disch := omega) only [AF.ofBits, h, AF.bits, toField_eq_fieldVal, Nat.add_assoc, fld_mul_add, fld_below_add,
    ofField_fieldVal, fin_val_self, ofNat_below_add, BitVec.ofNat_toNat, BitVec.setWidth_eq]

/-! ### The opcode map (01 R37) and the S format (01 R26) -/

/-- The opcodes of a format, of each S-format shape, and of the words whose low 55 bits are all reserved (01 R37). -/
def Fmt.ops : Fmt → List Nat
  | .r _ => rOps
  | .i _ => iOps
  | .m _ => mOps
  | .b _ => bOps
  | .a _ => aOps
  | .fence _ => [0x12E]
  | .bar _ => [0x139]
  | .bara _ => [0x13A]
  | .barw _ => [0x13B]
  | .bcnt _ => [0x13C]
  | .barx _ => [0x13D]
  | .aclose _ => [0x13E]
  | .wait _ => [0x13F]
  | .mfenceAcc _ => [0x14D]
  | .spawn _ => [0x1C0]
  | .spawnc _ => [0x1C1]
  | .spawnr _ => [0x1C2]
  | .tnext _ => [0x1C3]
  | .tres _ => [0x1C4]
  | .tdst _ => [0x1C5, 0x1C6]
  | .moota _ => [0x1D2]
  | .mootq _ => [0x1D4]
  | .framec _ => [0x1E9]
  | .snap _ => [0x1EA]
  | .nul => [0x000, 0x14C, 0x1C7, 0x1D3, 0x1E6]

/-- The reader of the fields of a format. -/
def Fmt.readAs (op x : Nat) : Fmt → Option Fmt
  | .r _ => (RF.ofBits x).map .r
  | .i _ => (IF.ofBits x).map .i
  | .m _ => (MF.ofBits x).map .m
  | .b _ => (BF.ofBits x).map .b
  | .a _ => (AF.ofBits x).map .a
  | _ => sFields op x

/-- The fields of a word are read back in their format: every field stands where the decoder looks for it, and every other bit
is 0. -/
theorem Fmt.readAs_bits {f : Fmt} {op x : Nat} (h : x = f.bits) (hop : op ∈ f.ops) : f.readAs op x = some f := by
  cases f
  case r f => exact congrArg (Option.map Fmt.r) (RF.ofBits_bits h)
  case i f => exact congrArg (Option.map Fmt.i) (IF.ofBits_bits h)
  case m f => exact congrArg (Option.map Fmt.m) (MF.ofBits_bits h)
  case b f => exact congrArg (Option.map Fmt.b) (BF.ofBits_bits h)
  case a f => exact congrArg (Option.map Fmt.a) (AF.ofBits_bits h)
  case nul =>
    simp only [Fmt.ops, List.mem_cons, List.not_mem_nil, or_false] at hop
    rcases hop with rfl | rfl | rfl | rfl | rfl <;> exact if_pos h
  case tdst f =>
    simp only [Fmt.ops, List.mem_cons, List.not_mem_nil, or_false] at hop
    rcases hop with rfl | rfl <;>
      simp (disch := omega) only [Fmt.readAs, sFields, h, Fmt.bits, toField_eq_fieldVal, fld_mul, fld_below, ofField_fieldVal,
        if_true]
  all_goals
    obtain rfl := List.mem_singleton.1 hop
    simp (disch := omega) only [Fmt.readAs, sFields, h, Fmt.bits, toField_eq_fieldVal, toNat_eq_flagVal, Nat.add_assoc, fld_mul_add,
      fld_mul, fld_above, fld_below_add, fld_below, ofNat_below_add, ofField_fieldVal, fin_val_self, flagVal_beq_one,
      BitVec.ofNat_toNat, BitVec.setWidth_eq, decide_true, Bool.and_self, if_true]

theorem Fmt.bits_lt (f : Fmt) : f.bits < 2 ^ 55 := by
  cases f <;> simp only [Fmt.bits, RF.bits, IF.bits, MF.bits, BF.bits, AF.bits, toField_eq_fieldVal, toNat_eq_flagVal] <;> omega

section Parts

variable {i : Instr} {op : Nat} {f : Fmt} (h : partsOf i = some (op, f))
include h

/-- The decoder builds an instruction again from the opcode and the fields that the encoder takes from it: the family Laws.Parts in
one statement. -/
theorem partsOf_instrOf : instrOf op f = some i := by cases i <;> cases h <;> rfl

theorem partsOf_mem_ops : op ∈ f.ops := by
  have : f.ops.contains op = true := by cases i <;> cases h <;> rfl
  simpa using this

theorem partsOf_assigned : opAssigned op = true := by cases i <;> cases h <;> rfl

theorem partsOf_control : i.transfersControl = isControl op := by cases i <;> cases h <;> rfl

/-- The decoder reads an opcode's word in the format that the encoder lays it out in. -/
theorem partsOf_fieldsOf (x : Nat) : fieldsOf op x = f.readAs op x := by cases i <;> cases h <;> rfl

theorem partsOf_lt : op < 2 ^ 9 := by cases i <;> cases h <;> decide

end Parts

theorem instrR_parts {op : Nat} {f : RF} {i : Instr} (h : instrR op f = some i) : partsOf i = some (op, .r f) := by
  unfold instrR at h
  split at h <;> cases h <;> rfl

theorem instrI_parts {op : Nat} {f : IF} {i : Instr} (h : instrI op f = some i) : partsOf i = some (op, .i f) := by
  unfold instrI at h
  split at h <;> cases h <;> rfl

theorem instrM_parts {op : Nat} {f : MF} {i : Instr} (h : instrM op f = some i) : partsOf i = some (op, .m f) := by
  unfold instrM at h
  split at h <;> cases h <;> rfl

theorem instrB_parts {op : Nat} {f : BF} {i : Instr} (h : instrB op f = some i) : partsOf i = some (op, .b f) := by
  unfold instrB at h
  split at h <;> cases h <;> rfl

theorem instrA_parts {op : Nat} {f : AF} {i : Instr} (h : instrA op f = some i) : partsOf i = some (op, .a f) := by
  unfold instrA at h
  split at h <;> cases h <;> rfl

/-- The encoder takes from an instruction the opcode and the fields that the decoder built it from (01 R26, R37). -/
theorem instrOf_parts {op : Nat} {f : Fmt} {i : Instr} (h : instrOf op f = some i) : partsOf i = some (op, f) := by
  cases f
  case r f => exact instrR_parts h
  case i f => exact instrI_parts h
  case m f => exact instrM_parts h
  case b f => exact instrB_parts h
  case a f => exact instrA_parts h
  case tdst | nul =>
    unfold instrOf at h
    dsimp only at h
    split at h <;> cases h <;> rfl
  all_goals
    obtain ⟨rfl, h⟩ := Option.ite_none_right_eq_some.1 h
    cases h
    rfl

/-! ### Encoding and decoding -/

/-- The word of an opcode and its fields gives both back. -/
theorem opcodeOf_word {op b : Nat} (hb : b < 2 ^ 55) (hop : op < 2 ^ 9) : opcodeOf (op * 2 ^ 55 + b) = op := fld_mul_add hb hop

theorem lowBits_word {op b : Nat} (hb : b < 2 ^ 55) : fld (op * 2 ^ 55 + b) 0 55 = b := by
  simp (disch := omega) only [fld_below_add, fld_of_lt]

/-- A word whose fields are those of a well-formed instruction decodes to it. -/
theorem decodeWord_of_fields {w : Nat} {f : Fmt} {i : Instr} (ha : opAssigned (opcodeOf w) = true)
    (hf : fieldsOf (opcodeOf w) (fld w 0 55) = some f) (hi : instrOf (opcodeOf w) f = some i) (hwf : i.wellFormed = true) :
    decodeWord w = .ok i := by
  obtain ⟨hfields, hoperands⟩ := (Bool.and_eq_true _ _).mp hwf
  simp [decodeWord, ha, hf, hi, hfields, hoperands]

/-- Settles O2: the word's opcode and low bits are the encoder's, the decoder reads their format back, and the checks are those of a
well-formed instruction. -/
theorem encodeThenDecode : Obligations.EncodeThenDecode := by
  intro i w hwf hw
  obtain ⟨⟨op, f⟩, hp, rfl⟩ := Option.map_eq_some_iff.1 hw
  have hop : opcodeOf (op * 2 ^ 55 + f.bits) = op := opcodeOf_word f.bits_lt (partsOf_lt hp)
  have hlow : fld (op * 2 ^ 55 + f.bits) 0 55 = f.bits := lowBits_word f.bits_lt
  have hread : fieldsOf op f.bits = some f :=
    (partsOf_fieldsOf hp _).trans (Fmt.readAs_bits rfl (partsOf_mem_ops hp))
  exact decodeWord_of_fields (f := f) (by rw [hop, partsOf_assigned hp]) (by rw [hop, hlow, hread])
    (by rw [hop, partsOf_instrOf hp]) hwf

/-- Settles O1: each word is decoded. -/
theorem writtenWordsDecode : Obligations.WrittenWordsDecode :=
  ⟨rfl, rfl, rfl, rfl, rfl, rfl, rfl, rfl, rfl, rfl, rfl, rfl, rfl, rfl, rfl, rfl, rfl, rfl, rfl, rfl, rfl, rfl, rfl⟩

/-! ## The checks of a slot (01 R39) -/

/-- The checks of a slot whose opcode is assigned and legal in the clause's class, on the fields read. -/
theorem slotFields_of_legal {c : DecodeCtx} {w : Nat} (ha : opAssigned (opcodeOf w) = true)
    (hc : classLegal c.cls (opcodeOf w) = true) :
    (fieldsOf (opcodeOf w) (fld w 0 55) = none → slotFields c w = .error .reservedField) ∧
    ∀ f k, fieldsOf (opcodeOf w) (fld w 0 55) = some f → k = chkFmt (opcodeOf w) f →
      slotFields c w =
        if k.res then .error .reservedField
        else if k.ill || !k.pos.all Pos.legal || modeIllegal k c.trapMode then .error .illegalOperand
        else if outsideWindow k c.window || aboveCap f (opcodeOf w) c.wincap then .error .registerWindow
        else if isControl (opcodeOf w) && !c.last then .error .branchPlacement
        else .ok f := by
  constructor
  · intro hf
    simp [slotFields, ha, hc, hf]
  · rintro f k hf rfl
    simp [slotFields, ha, hc, hf]

/-- Settles O4, check by check in the order of 01 R39. -/
theorem decodeCheckOrder : Obligations.DecodeCheckOrder := by
  intro c w
  refine ⟨fun ha => by simp [slotFields, ha], fun ha hc => by simp [slotFields, ha, hc], fun ha hc => ?_⟩
  obtain ⟨hnone, hsome⟩ := slotFields_of_legal ha hc
  refine ⟨hnone, fun f k hf hk => ?_⟩
  rw [hsome f k hf hk]
  refine ⟨fun hres => by simp [hres], fun hres h4 => ?_, fun hres hill hpos hmode =>
    ⟨fun h5 => ?_, fun hwin hcap => ⟨fun hctl hlast => ?_, fun h6 => ?_⟩⟩⟩
  · have : (k.ill || !k.pos.all Pos.legal || modeIllegal k c.trapMode) = true := by
      rcases h4 with h | ⟨p, hp, h⟩ | h
      · simp [h]
      · simp only [Bool.or_eq_true, Bool.not_eq_true', List.all_eq_false]
        exact .inl (.inr ⟨p, hp, by simp [h]⟩)
      · simp [h]
    simp [hres, this]
  · have : (outsideWindow k c.window || aboveCap f (opcodeOf w) c.wincap) = true := by simpa using h5
    simp [hres, hill, List.all_eq_true.2 hpos, hmode, this]
  · simp [hres, hill, List.all_eq_true.2 hpos, hmode, hwin, hcap, hctl, hlast]
  · have : (isControl (opcodeOf w) && !c.last) = false := by rcases h6 with h | h <;> simp [h]
    simp [hres, hill, List.all_eq_true.2 hpos, hmode, hwin, hcap, this]

/-- A slot that decodes in the last place decodes in another place too, unless its opcode is a control transfer's. -/
theorem slotFields_not_last {c : DecodeCtx} {w : Nat} {f : Fmt} (h : slotFields { c with last := true } w = .ok f) :
    slotFields { c with last := false } w = if isControl (opcodeOf w) then .error .branchPlacement else .ok f := by
  cases ha : opAssigned (opcodeOf w)
  · simp [slotFields, ha] at h
  cases hc : classLegal c.cls (opcodeOf w)
  · simp [slotFields, ha, hc] at h
  cases hf : fieldsOf (opcodeOf w) (fld w 0 55) with
  | none => simp [slotFields, ha, hc, hf] at h
  | some g =>
    rw [(slotFields_of_legal (c := { c with last := true }) ha hc).2 g _ hf rfl] at h
    rw [(slotFields_of_legal (c := { c with last := false }) ha hc).2 g _ hf rfl]
    split at h
    · cases h
    next hres =>
    split at h
    · cases h
    next hill =>
    split at h
    · cases h
    next hwin =>
    obtain rfl : g = f := by simpa only [Bool.not_true, Bool.and_false, Bool.false_eq_true, if_false, Except.ok.injEq] using h
    rw [if_neg hres, if_neg hill, if_neg hwin]
    simp only [Bool.not_false, Bool.and_true]

/-- Settles O5: an instruction's constructor tells the same of its transfer of control as its opcode. -/
theorem controlTransfersStandLast : Obligations.ControlTransfersStandLast := by
  refine ⟨rfl, fun c w f i h hi => ?_⟩
  rw [slotFields_not_last h, partsOf_control (instrOf_parts hi)]

/-- Settles O16: NOP only ends its slot, and its word is legal in every class. -/
theorem nopChangesNothing : Obligations.NopChangesNothing := by
  refine ⟨fun s => completes_of_pa s s rfl, fun c w hop => ?_⟩
  have ha : opAssigned (opcodeOf w) = true := by rw [hop]; rfl
  have hc : classLegal c.cls (opcodeOf w) = true := by rw [hop]; rfl
  obtain ⟨hnone, hsome⟩ := slotFields_of_legal ha hc
  have hread : fieldsOf (opcodeOf w) (fld w 0 55) = if fld w 0 55 = 0 then some .nul else none := by rw [hop]; rfl
  refine ⟨fun h0 => ?_, fun h0 => hnone (by rw [hread, if_neg h0])⟩
  rw [hsome .nul _ (by rw [hread, if_pos h0]) rfl, hop]
  cases c.trapMode <;> rfl

end Sys2Proof

namespace Sys2Proof.Machine

open Sys2Proof (Operand RF BF Instr W32 W64 opcodeOf)

/-! ## The start of a clause (01 R15-R19) -/

/-- Words fetched one after another are as many as asked for, after those fetched before. -/
theorem fetchWords_length {s : State} {n off : Nat} {acc ws : List Nat} {x o : Nat}
    (h : s.fetchWords n off acc = (.word x, ws, o)) : ws.length = acc.length + n := by
  induction n generalizing off acc with
  | zero =>
    have : acc.reverse = ws := congrArg (·.2.1) h
    simp [← this]
  | succ n ih =>
    unfold State.fetchWords at h
    split at h
    · rw [ih h, List.length_cons]
      omega
    · next f hf => exact absurd (congrArg Prod.fst h) (hf x)

/-- Settles O7: no check of the header, of a slot, of the inputs or of the batches stands in the way. -/
theorem clauseIsFetchedAtPc : Obligations.ClauseIsFetchedAtPc := by
  intro s h ws off hfetch hop hwords hcls hyld hres hdec howed hreplay hbatches
  simp only [List.all_eq_true, Bool.and_eq_true, Option.isNone_iff_eq_none] at hbatches
  have hdone : ((bwaitSet (fld h 40 8)).any fun i => !s.batchDone s.cw.uid i) = false := by
    simpa using fun n hn => (hbatches n hn).1
  have hfault : ((bwaitSet (fld h 40 8)).findSome? fun i => s.batchFault s.cw.uid i) = none := by
    simpa using fun n hn => (hbatches n hn).2
  refine ⟨?_, by simpa using fetchWords_length hwords⟩
  simp [State.nextClause, hfetch, hop, hwords, hcls, hyld, hres, hdec, howed, hreplay, hdone, hfault]

/-! ## Registers (01 R33, R34, R41) -/

@[simp] theorem sreg_setS_self (w : Wave) (i : Nat) (x : W32) : (w.setS i x).sreg i = x := getD_set_self _ _ _ _

theorem sreg_setS_ne (w : Wave) {i j : Nat} (x : W32) (h : j ≠ i) : (w.setS i x).sreg j = w.sreg j := getD_set_ne _ _ _ h

@[simp] theorem ereg_setE_self (w : Wave) (i : Nat) (x : W32) : (w.setE i x).ereg i = x := by
  simp [Wave.ereg, Wave.setE, get?_set_self]

theorem ereg_setE_ne (w : Wave) {i j : Nat} (x : W32) (h : j ≠ i) : (w.setE i x).ereg j = w.ereg j := by
  simp [Wave.ereg, Wave.setE, get?_set_ne _ _ h, Wave.clean]

@[simp] theorem vphys_setV_self (w : Wave) (r l : Nat) (x : W32) : (w.setV r l x).vphys r l = x := by
  simp [Wave.vphys, Wave.setV, get?_set_self]

/-- A write of a lane of a vector register leaves every other lane, and every other register, as it was. -/
theorem vphys_setV_ne (w : Wave) {r l q k : Nat} (x : W32) (hl : l < 32) (hk : k < 32) (h : ¬(q = r ∧ k = l)) :
    (w.setV r l x).vphys q k = w.vphys q k := by
  have hkey : q * 32 + k ≠ r * 32 + l := by omega
  simp [Wave.vphys, Wave.setV, get?_set_ne _ _ hkey, Wave.clean]

theorem eq_of_add_mod_eq {b i j S : Nat} (hi : i < S) (hj : j < S) (h : (b + j) % S = (b + i) % S) : j = i := by
  have h1 := Nat.sub_mod_eq_zero_of_mod_eq h
  have h2 := Nat.sub_mod_eq_zero_of_mod_eq h.symm
  rw [Nat.mod_eq_of_lt (by omega)] at h1 h2
  omega

/-- Distinct names of a window no larger than the register stack are distinct registers (04 R95). -/
theorem phys_eq_iff (s : State) {i j : Nat} (hi : i < s.stackRegs) (hj : j < s.stackRegs) : s.phys j = s.phys i ↔ j = i :=
  ⟨eq_of_add_mod_eq hi hj, fun h => by rw [h]⟩

/-- Lanes of a vector register written in turn: each of them holds its value, and nothing else of the vector registers changes. -/
theorem vphys_foldl_setV (r q : Nat) (ls : List Nat) (g : Nat → W32) (l : Nat) (hls : ∀ k ∈ ls, k < 32) (hl : l < 32)
    (w : Wave) :
    (ls.foldl (fun w k => w.setV r k (g k)) w).vphys q l = if q = r ∧ l ∈ ls then g l else w.vphys q l := by
  induction ls generalizing w with
  | nil => simp
  | cons k ks ih =>
    obtain ⟨hk, hks⟩ := List.forall_mem_cons.1 hls
    rw [List.foldl_cons, ih hks]
    by_cases hmem : q = r ∧ l ∈ ks
    · simp [hmem]
    · rw [if_neg hmem]
      by_cases heq : q = r ∧ l = k
      · obtain ⟨rfl, rfl⟩ := heq
        simp
      · rw [vphys_setV_ne w _ hk hl heq, if_neg]
        rintro ⟨hq, hm⟩
        rcases List.mem_cons.1 hm with rfl | hm
        · exact heq ⟨hq, rfl⟩
        · exact hmem ⟨hq, hm⟩

/-- A write of lanes leaves the window and the launch, by which a name finds its register. -/
@[simp] theorem wrLanes_phys (s : State) (o : Operand) (ls : List Nat) (g : Nat → W32) (j : Nat) :
    (s.wrLanes o ls g).phys j = s.phys j := by
  cases o
  case v i =>
    have hbase : (s.wrLanes (.v i) ls g).cw.wbase = s.cw.wbase :=
      foldl_wave Wave.wbase (fun w k => w.setV (s.phys i) k (g k)) (fun _ _ => rfl) ls s.cw
    have hlaunch : (s.wrLanes (.v i) ls g).cw.launch = s.cw.launch :=
      foldl_wave Wave.launch (fun w k => w.setV (s.phys i) k (g k)) (fun _ _ => rfl) ls s.cw
    have hstack : (s.wrLanes (.v i) ls g).stackRegs = s.stackRegs := by
      simp only [State.stackRegs, State.lrec, hlaunch]
      rfl
    simp only [State.phys, hbase, hstack]
  all_goals rfl

/-- The two halves of a pair, low half first, make its value (01 R29). -/
theorem ofWords_pair (y : W64) : BitVec.ofNat 64 (ofWords [y.setWidth 32, (y >>> 32).setWidth 32]) = y := by
  refine BitVec.eq_of_toNat_eq ?_
  have := y.isLt
  simp only [ofWords, BitVec.toNat_ofNat, BitVec.toNat_setWidth, BitVec.toNat_ushiftRight, Nat.shiftRight_eq_div_pow]
  omega

/-- Settles O11, register file by register file. -/
theorem registerReadsWhatWasWritten : Obligations.RegisterReadsWhatWasWritten := by
  intro s x y
  refine ⟨fun i j => ?_, fun i j => ?_, rfl, rfl, rfl, fun i _ => ?_, fun i j ls g l hi hj hls hl => ?_⟩
  · show (s.cw.setS i x).sreg j = _
    split
    · next h => rw [h, sreg_setS_self]
    · next h => exact sreg_setS_ne _ _ fun e => h (Fin.ext e)
  · show (s.cw.setE i x).ereg j = _
    split
    · next h => rw [h, ereg_setE_self]
    · next h => exact ereg_setE_ne _ _ fun e => h (Fin.ext e)
  · show BitVec.ofNat 64 (ofWords [((s.cw.setS i _).setS (i + 1) _).sreg (i + 0),
      ((s.cw.setS i _).setS (i + 1) _).sreg (i + 1)]) = y
    rw [sreg_setS_self, sreg_setS_ne _ _ (by omega), Nat.add_zero, sreg_setS_self, ofWords_pair]
  · show (ls.foldl (fun w k => w.setV (s.phys i) k (g k)) s.cw).vphys ((s.wrLanes (.v i) ls g).phys j) l = _
    rw [wrLanes_phys, vphys_foldl_setV _ _ _ _ _ hls hl]
    simp only [phys_eq_iff s hi hj, Fin.val_inj]
    rfl

/-! ## Branches and control traps (01 R30, R31; 02 R55-R58, R79)

The meaning that the dispatch gives to each control instruction, then what the shared checks do. -/

theorem exec_br (f : BF) (s : State) : exec (.br f) s = execBr f s := rfl
theorem exec_brc (f : BF) (s : State) : exec (.brc f) s = execBrc f s := rfl
theorem exec_bri (f : BF) (s : State) : exec (.bri f) s = execBri f s := rfl
theorem exec_call (f : BF) (s : State) : exec (.call f) s = execCall f s := rfl
theorem exec_ret (f : BF) (s : State) : exec (.ret f) s = execRet f s := rfl
theorem exec_fork (f : BF) (s : State) : exec (.fork f) s = execFork f s := rfl
theorem exec_join (f : BF) (s : State) : exec (.join f) s = execJoin f s := rfl
theorem exec_ppush (f : RF) (s : State) : exec (.ppush f) s = execPpush f s := rfl
theorem exec_pinv (f : RF) (s : State) : exec (.pinv f) s = execPinv f s := rfl
theorem exec_ppop (f : RF) (s : State) : exec (.ppop f) s = execPpop f s := rfl

theorem withTarget_ok (s : State) (t h : Nat) (k : Nat → State → State) (ht : s.checkTarget t = .ok h) :
    s.withTarget t k = k h (s.noteFetch t) := by
  simp only [State.withTarget, ht]

/-- A target that fails its check is a trap of the control transfer, with the fetch counted and nothing else done. -/
theorem withTarget_trap (s : State) (t : Nat) (r : TrapRec) (k : Nat → State → State) (ht : s.checkTarget t = .trap r) :
    s.withTarget t k = (s.noteFetchFault r).trap r s.cw.pa.here s.cw.pa.slot := by
  simp only [State.withTarget, ht, State.trapHere, noteFetchFault_cw]

/-- Settles O20: a good target is reached with only the fetch noted, and a failed condition is sequential flow. -/
theorem branchesReachTargets : Obligations.BranchesReachTargets := by
  rintro f s t h ht _ rfl
  have hbranch : Branches (.next (s.branch t)) (s.noteFetch t) t := by
    rw [branch_ok s t h ht]
    exact branches_endClause _ _
  refine ⟨fun e => ⟨?_, fun hc => ?_⟩, fun hc => ⟨?_, fun hfork => ?_⟩, fun e => ?_⟩
  · rwa [exec_br, execBr, State.directTarget, ← e]
  · rwa [exec_brc, execBrc, if_pos hc, State.directTarget, ← e]
  · rw [exec_brc, execBrc, if_neg (by simp [hc])]
    exact completes_of_pa s s rfl
  · rw [exec_call, execCall, if_neg (by rcases hfork with h | h <;> simp [h]), if_pos (by simp [hc])]
    exact completes_of_pa s s rfl
  · rwa [exec_bri, execBri, ← e]

/-- What a target that fails its check reports, in the order of the checks (01 R31; log 26). -/
theorem checkTarget_trap {s : State} {t : Nat} {r : TrapRec} (h : s.checkTarget t = .trap r) :
    (t % 8 ≠ 0 → r = ⟨0x08, t, 0, 0⟩) ∧ (t % 8 = 0 → s.lrec.codesize < t + 8 → r = ⟨0x09, t, 0, 0⟩) ∧
      ∀ w, t % 8 = 0 → s.fetchWord s.cw.core s.lrec t = .word w → r = ⟨0x08, t, 0, 0⟩ ∧ opcodeOf w ≠ 0x1FF := by
  unfold State.checkTarget at h
  refine ⟨fun h8 => ?_, fun h8 hsize => ?_, fun w h8 hw => ?_⟩
  · rw [if_pos h8] at h
    exact (Target.trap.inj h).symm
  · have hf : s.fetchWord s.cw.core s.lrec t = .bad 0 := by rw [State.fetchWord, if_pos hsize]
    rw [if_neg (by simpa using h8), hf] at h
    exact (Target.trap.inj h).symm
  · rw [if_neg (by simpa using h8), hw] at h
    dsimp only at h
    split at h
    · cases h
    · next hop => exact ⟨(Target.trap.inj h).symm, hop⟩

@[simp] theorem noteFetch_lrec (s : State) (off : Nat) (first : Bool) : (s.noteFetch off first).lrec = s.lrec := by
  simp only [State.lrec, noteFetch_cw, ctl_launches (noteFetch_ctl s off first)]

/-- A call with 127 links is the stack-limit fault before any spill (04 R96). -/
theorem callTo_links (s : State) (w target : Nat) (h : 127 ≤ s.cw.links.length) :
    s.callTo w target = s.trapHere ⟨cStackLimit, 0xFFFFFFFF, s.cw.spillUsed, 0⟩ := by
  unfold State.callTo
  exact if_pos h

/-- A call whose segments do not fit in the spill area is the stack-limit fault, without spilling (03 R84, R85). -/
theorem callTo_full (s : State) (w target : Nat) {segs : List Nat} (hlinks : s.cw.links.length < 127)
    (hsegs : segs = segmentsFor (s.cw.residentCallers ++ [s.cw.wsize]) (s.cw.span - 8 + w) s.stackRegs) (hne : segs ≠ [])
    (hfull : s.lrec.spillbytes < s.cw.spillUsed + 4 * (segs.map (· - 8)).sum) :
    s.callTo w target = s.trapHere ⟨cStackLimit, s.cw.spillUsed, s.cw.spillUsed + 4 * (segs.map (· - 8)).sum, 0⟩ := by
  unfold State.callTo
  rw [← hsegs]
  dsimp only
  rw [← List.sum_eq_foldl_nat, if_neg (by omega), if_neg (by simpa using hne), if_pos hfull]

/-- A call in one path, whose condition holds and whose target is good, goes on past the fetch of the target. -/
theorem execCall_ok (f : BF) (s : State) {t h : Nat} (hfork : s.cw.forked = false)
    (hc : branchCond f.cc.val (s.rdS f.cond) s.execMask = true) (ht : t = (s.cw.pa.here + 8 * f.off.toNat) % 2 ^ 32)
    (hok : s.checkTarget t = .ok h) : exec (.call f) s = .next ((s.noteFetch t).callTo f.w.val t) := by
  subst ht
  simp only [exec_call, execCall, hfork, hc, State.directTarget, withTarget_ok s _ h _ hok, Bool.false_and,
    Bool.not_true, Bool.false_eq_true, if_false]

/-- The segments spilled are the first of the windows offered, as many as it takes to make room and no more (03 R84). -/
theorem segmentsFor_eq_take (ws : List Nat) (span room : Nat) : ∃ n, segmentsFor ws span room = ws.take n ∧
    (n < ws.length → span - ((ws.take n).map (· - 8)).sum ≤ room) ∧
    ∀ m, m < n → m < ws.length → room < span - ((ws.take m).map (· - 8)).sum := by
  induction ws generalizing span with
  | nil => exact ⟨0, rfl, by simp, by simp⟩
  | cons w ws ih =>
    unfold segmentsFor
    split
    · next hroom => exact ⟨0, rfl, fun _ => by simpa using hroom, by simp⟩
    · next hroom =>
      obtain ⟨n, heq, henough, hneeded⟩ := ih (span - (w - 8))
      refine ⟨n + 1, by rw [heq, List.take_succ_cons], fun hn => ?_, fun m hm hlen => ?_⟩
      · have := henough (by simpa using hn)
        simp only [List.take_succ_cons, List.map_cons, List.sum_cons]
        omega
      · cases m with
        | zero => simpa using hroom
        | succ m =>
          have := hneeded m (by omega) (by simpa using hlen)
          simp only [List.take_succ_cons, List.map_cons, List.sum_cons]
          omega

/-- Settles O21: the shared check of a target first, then calls and returns, the segments spilled, and the predicate stack. -/
theorem controlTraps : Obligations.ControlTraps := by
  refine ⟨fun f s t r hr => ?_, fun f s => ?_, segmentsFor_eq_take, fun f s => ?_⟩
  · obtain ⟨halign, hsize, hword⟩ := checkTarget_trap hr
    refine ⟨halign, hsize, hword, fun e => ?_, fun e => ?_⟩
    · subst e
      rw [exec_bri, execBri, State.branch, withTarget_trap s _ r _ hr]
    · subst e
      refine ⟨?_, ?_, ?_⟩
      · rw [exec_br, execBr, State.branch, State.directTarget, withTarget_trap s _ r _ hr]
      · rw [exec_fork, execFork, State.directTarget, withTarget_trap s _ r _ hr]
      · rw [exec_join, execJoin, State.directTarget, withTarget_trap s _ r _ hr]
  · refine ⟨fun hfork htm => ⟨?_, ?_⟩, fun hfork hlinks => ?_, fun t h hfork hc ht hok hlinks => ?_,
      fun t h segs regs hfork hc ht hok hlinks hsegs hne hregs hfull => ?_⟩
    · rw [exec_call, execCall, if_pos (by simp [hfork, htm])]
      rfl
    · rw [exec_ret, execRet, if_pos (by simp [hfork, htm])]
      rfl
    · rw [exec_ret, execRet, if_neg (by simp [hfork]), hlinks]
      rfl
    · rw [execCall_ok f s hfork hc ht hok, callTo_links _ _ _ (by simpa using hlinks), State.trapHere, noteFetch_cw]
    · subst hregs
      rw [execCall_ok f s hfork hc ht hok,
        callTo_full _ _ _ (by simpa using hlinks) (by simpa [State.stackRegs] using hsegs) hne (by simpa using hfull),
        State.trapHere, noteFetch_cw]
  · refine ⟨fun h => ?_, fun h => ?_, fun h => ?_, fun e rest h hk => ?_, fun e he hk hlen => ?_⟩
    · exact (exec_ppush f s).trans (if_pos h)
    · rw [exec_pinv, execPinv, h]
      rfl
    · exact (exec_ppop f s).trans (if_pos h)
    · rw [exec_pinv, execPinv, h]
      exact if_neg (by simpa using hk)
    · have hall : ¬((s.cw.pa.stack.take (f.sub.val + 1)).all fun e => e.kind == .plain) = true :=
        Bool.not_eq_true _ ▸ List.all_eq_false.2 ⟨e, he, by simpa using hk⟩
      exact (exec_ppop f s).trans ((if_neg (Nat.not_lt.2 hlen)).trans (if_neg hall))

end Sys2Proof.Machine

namespace Sys2Proof.Machine

open Sys2Proof (Operand Instr RF MF AF Fmt FenceF AcloseF BcntF BarxF WaitF W32 W64 Byte SMap SMap.get? SMap.set SMap.getD opcodeOf fieldsOf encode decodeWord)

/-! # Memory and synchronisation instructions

## Plain accesses at issue (05 R111-R117, R122-R125; 13 R318) -/

/-- A load without a record is a plain access that owes the registers of its elements (05 R115). -/
theorem plainAccess_load {s : State} {f : MF} {i : Instr} {e : Nat} {sgn : Bool} (hrcd : f.rcd.val = 255)
    (hexec : exec i s = .next (s.load f e sgn)) :
    PlainAccess s i f (.load (if e = 16 then 8 else e) sgn) e allSpaces (s.regsOf f.data (ceilDiv e 4)) fun _ => 0 :=
  plainAccess_memAccess _ _ _ _ _ _ _ _ (by rw [hexec, State.load, if_pos hrcd])

/-- A store without a record is a plain access that carries the data of its lanes (05 R116). -/
theorem plainAccess_store {s : State} {f : MF} {i : Instr} {e : Nat} (hrcd : f.rcd.val = 255)
    (hexec : exec i s = .next (s.store f e)) :
    PlainAccess s i f (.store (if e = 16 then 8 else e)) e allSpaces [] (s.storeData f.data e) :=
  plainAccess_memAccess _ _ _ _ _ _ _ _ (by rw [hexec, State.store, if_pos hrcd])

/-- Settles O34: each form is the shared load or store of its size. -/
theorem loadsAndStoresIssue : Obligations.LoadsAndStoresIssue := by
  intro f s hrcd
  exact ⟨plainAccess_load hrcd rfl, plainAccess_load hrcd rfl, plainAccess_load hrcd rfl, plainAccess_load hrcd rfl,
    plainAccess_load hrcd rfl, plainAccess_load hrcd rfl, plainAccess_load hrcd rfl, plainAccess_store hrcd rfl,
    plainAccess_store hrcd rfl, plainAccess_store hrcd rfl, plainAccess_store hrcd rfl, plainAccess_store hrcd rfl⟩

/-- An atomic is a plain access that owes the old value; CAS carries a compare and a new value (05 R122). -/
theorem plainAccess_atom {s : State} {f : MF} {i : Instr} {op n : Nat} (hexec : exec i s = .next (s.atom f op n)) :
    PlainAccess s i f (.rmw op n true) n sharedSpaces (s.regsOf f.data (n / 4))
      (s.storeData f.data (if op = 9 then 2 * n else n)) :=
  plainAccess_memAccess _ _ _ _ _ _ _ _ hexec

/-- A reduction without a record is a plain access that owes nothing (05 R125). -/
theorem plainAccess_red {s : State} {f : MF} {i : Instr} {op n : Nat} (hrcd : f.rcd.val = 255)
    (hexec : exec i s = .next (s.red f op n)) :
    PlainAccess s i f (.rmw op n false) n sharedSpaces [] (s.storeData f.data n) :=
  plainAccess_memAccess _ _ _ _ _ _ _ _ (by rw [hexec, State.red, if_pos hrcd])

/-- Settles O36: each form is the shared atomic or reduction of its operation and size; a film has its own lanes' data. -/
theorem atomicsIssue : Obligations.AtomicsIssue := by
  rintro f s _ _ _ _ rfl rfl rfl rfl
  refine ⟨plainAccess_atom rfl, plainAccess_atom rfl, plainAccess_atom rfl, plainAccess_atom rfl, plainAccess_atom rfl,
    plainAccess_atom rfl, plainAccess_atom rfl, plainAccess_atom rfl, plainAccess_atom rfl, plainAccess_atom rfl,
    plainAccess_atom rfl, plainAccess_atom rfl, plainAccess_atom rfl, plainAccess_atom rfl, plainAccess_atom rfl,
    plainAccess_atom rfl, fun hrcd => ?_, plainAccess_memAccess _ _ _ _ _ _ _ _ rfl⟩
  exact ⟨plainAccess_red hrcd rfl, plainAccess_red hrcd rfl, plainAccess_red hrcd rfl, plainAccess_red hrcd rfl,
    plainAccess_red hrcd rfl, plainAccess_red hrcd rfl, plainAccess_red hrcd rfl, plainAccess_red hrcd rfl,
    plainAccess_red hrcd rfl, plainAccess_red hrcd rfl⟩

/-! ## Values of atomics (05 R122, R124) -/

/-- A value that is no NaN rounds to FP32 as a sign on a magnitude no greater than infinity's (07 R166). -/
theorem roundFp_fp32_of_not_nan (rm : Nat) (sat flush : Bool) (x : XR) (hx : x ≠ .nan) :
    ∃ s y, roundFp fmtFp32 rm sat flush x = withSign fmtFp32 s y ∧ y ≤ 0x7F800000 := by
  have hmax : fmtFp32.maxFin ≤ 0x7F800000 := by decide
  have hspecial : fmtFp32.special ≤ 0x7F800000 := Nat.le_refl _
  cases x with
  | nan => exact absurd rfl hx
  | inf s => exact ⟨s, _, rfl, ite_holds (P := (· ≤ _)) hmax (ite_holds (P := (· ≤ _)) hspecial hmax)⟩
  | fin s n d =>
    refine ⟨s, _, rfl, ite_holds (P := (· ≤ _)) (Nat.zero_le _) ?_⟩
    split
    · exact ite_holds (P := (· ≤ _)) hmax (ite_holds (P := (· ≤ _)) hspecial hmax)
    · next h => exact Nat.le_trans (Nat.not_lt.1 h) hmax

theorem withSign_fp32_lt (s : Bool) {y : Nat} (hy : y ≤ 0x7F800000) : withSign fmtFp32 s y < 2 ^ 32 := by
  simp only [withSign, fmtFp32]
  split <;> omega

theorem isNaN32_ofNat (x : Nat) : isNaN32 (BitVec.ofNat 32 x) = decide (0x7F800000 < x % 2 ^ 31) := by
  have hmag : (BitVec.ofNat 32 x &&& 0x7FFFFFFF#32).toNat = x % 2 ^ 31 := by
    have hmask : (0x7FFFFFFF#32).toNat = 2 ^ 31 - 1 := rfl
    rw [BitVec.toNat_and, BitVec.toNat_ofNat, hmask, Nat.and_two_pow_sub_one_eq_mod]
    omega
  simp only [isNaN32, hmag]

/-- A rounding to FP32 gives 32 bits, and of the NaNs only the canonical one (07 R166). -/
theorem roundFp_fp32 (rm : Nat) (sat flush : Bool) (x : XR) : roundFp fmtFp32 rm sat flush x < 2 ^ 32 ∧
    (isNaN32 (BitVec.ofNat 32 (roundFp fmtFp32 rm sat flush x)) = true → roundFp fmtFp32 rm sat flush x = 0x7FC00000) := by
  by_cases hx : x = .nan
  · subst hx
    exact ⟨show 0x7FC00000 < 2 ^ 32 by decide, fun _ => rfl⟩
  · obtain ⟨s, y, hround, hy⟩ := roundFp_fp32_of_not_nan rm sat flush x hx
    rw [hround, isNaN32_ofNat]
    refine ⟨withSign_fp32_lt s hy, fun hnan => absurd (of_decide_eq_true hnan) ?_⟩
    simp only [withSign, fmtFp32]
    split <;> omega

/-- Settles O41, operation by operation. -/
theorem atomicValues : Obligations.AtomicValues := by
  intro n old v new _ _ hv hnew
  have hmod : v % 2 ^ (8 * n) = v := Nat.mod_eq_of_lt hv
  refine ⟨?_, ?_, ?_, ?_, ?_, ?_, ?_, ?_, fun hn => ?_⟩
  · simp only [rmwNew, hmod]
  · refine ⟨_, rfl, ?_⟩
    rw [hmod]
    split
    · next h => exact ⟨.inl rfl, (Int.min_eq_left h).symm⟩
    · next h => exact ⟨.inr rfl, (Int.min_eq_right (Int.le_of_lt (Int.not_le.1 h))).symm⟩
  · refine ⟨_, rfl, ?_⟩
    rw [hmod]
    split
    · next h => exact ⟨.inr rfl, (Int.max_eq_right h).symm⟩
    · next h => exact ⟨.inl rfl, (Int.max_eq_left (Int.le_of_lt (Int.not_le.1 h))).symm⟩
  · simp only [rmwNew, hmod]
  · simp only [rmwNew, hmod]
  · refine ⟨_, _, _, rfl, rfl, rfl, fun i => ?_⟩
    rw [hmod]
    exact ⟨Nat.testBit_and .., Nat.testBit_or .., Nat.testBit_xor ..⟩
  · simp only [rmwNew, hmod]
  · have hpos : 0 < 2 ^ (8 * n) := Nat.two_pow_pos _
    have hlow : (v + 2 ^ (8 * n) * new) % 2 ^ (8 * n) = v := by rw [Nat.add_mul_mod_self_left, hmod]
    have hhigh : (v + 2 ^ (8 * n) * new) / 2 ^ (8 * n) = new := by
      rw [Nat.add_mul_div_left _ _ hpos, Nat.div_eq_of_lt hv, Nat.zero_add]
    simp only [rmwNew, hlow, hhigh, Nat.mod_eq_of_lt hnew]
  · obtain ⟨hlt, hcanon⟩ := roundFp_fp32 0 false false (XR.add 0 (fp32Val (BitVec.ofNat 32 old)) (fp32Val (BitVec.ofNat 32 v)))
    refine ⟨_, rfl, ?_⟩
    rw [hmod, f32Of, BitVec.toNat_ofNat, Nat.mod_eq_of_lt hlt]
    exact ⟨rfl, hcanon⟩

/-! ## Shape registers (05 R129, R132) -/

/-- Refutes O38: SUB 25 names no field of a shape register, and the model then gives it bits 512 to 523, past the register's end:
HSETF of the value 1 leaves 0 there. -/
theorem not_blockAndShapeInstructions : ¬ Obligations.BlockAndShapeInstructions := by
  unfold Obligations.BlockAndShapeInstructions
  rintro ⟨-, hshape⟩
  obtain ⟨⟨v, -, hfield, -⟩, -⟩ :=
    hshape ⟨.h 0, .c 1, .s 0, .s 0, 0, 0, false, 25⟩ State.reset 512 12 (State.reset.rdS (.c 1)).toNat rfl rfl
  have hpast : fld v.toNat 512 12 = 0 := by rw [fld, Nat.div_eq_of_lt v.isLt, Nat.zero_mod]
  have hone : (State.reset.rdS (.c 1)).toNat % 2 ^ 12 = 1 := by decide
  omega

/-! ## Accesses that complete at issue -/

/-- An instruction that lists an access of a state that differs from the slot's in nothing but memory completes with it. -/
theorem completes_addAcc {s t : State} {i : Instr} {kind : AKind} {space scope order cache asid : Nat} {scalar : Bool}
    {dst : List (Cls × Nat)} {extra : List (List W32)} {pieces : List Piece} (hcw : t.cw = s.cw)
    (hexec : exec i s = .next (t.addAcc kind space scope order cache asid scalar dst extra pieces).slotDone) :
    Completes s (exec i s) (t.addAcc kind space scope order cache asid scalar dst extra pieces) := by
  rw [hexec]
  exact completes_slotDone s _ (by rw [addAcc_after, hcw])

/-- An instruction that ends its slot in a state of the same wave completes with it. -/
theorem completes_of_cw {s t : State} {i : Instr} (hcw : t.cw = s.cw) (hexec : exec i s = .next t.slotDone) :
    Completes s (exec i s) t := by
  rw [hexec]
  exact completes_of_pa s t (by rw [hcw])

/-- The checks of the lanes pass where every lane passes both (05 R112). -/
theorem laneTrap_eq_none {space : Nat} {scalar : Bool} {xs : List (Nat × Int)} {misaligned outside : Int → Bool}
    (h : ∀ x ∈ xs, misaligned x.2 = false ∧ outside x.2 = false) : laneTrap space scalar xs misaligned outside = none := by
  have hgood : xs.filter (fun x => misaligned x.2 || outside x.2) = [] :=
    List.filter_eq_nil_iff.2 fun x hx => by simp [h x hx]
  simp only [laneTrap, hgood]

/-! ## Accesses through a record (05 R119, R120; 08 R200-R205) -/

/-- An instruction that answers `recAccess` is a record access. -/
theorem recordAccess_recAccess {s : State} {f : MF} {i : Instr} {n : Nat} {store width : Bool} {ok : List Nat}
    (hexec : exec i s = .next (s.recAccess f n store width ok)) : RecordAccess s i f n store width ok := by
  refine ⟨fun hlanes => ?_, fun hlanes => ⟨fun hspace => ?_, fun hspace => ⟨fun r htrap => ?_, fun htrap hgrid hin hgran => ?_⟩⟩⟩
  · refine completes_of_cw rfl (hexec.trans ?_)
    rw [State.recAccess, if_pos (List.isEmpty_iff.2 hlanes)]
  all_goals
    have hne : ¬(s.accessLanes f.data f.addr).2.isEmpty = true := by simpa using hlanes
  · rw [hexec, State.recAccess, if_neg hne, if_pos hspace]
    rfl
  all_goals
    have hsp : ¬s.badSpace ok f.space.val = true := by simp [hspace]
  · rw [hexec, State.recAccess, if_neg hne, if_neg hsp, htrap]
    rfl
  · have hpass : laneTrap f.space.val (s.accessLanes f.data f.addr).1 (s.recAddrs f)
        (fun x => (x - (s.bufRec s.cw.launch f.rcd.val).base) % (s.bufRec s.cw.launch f.rcd.val).esize != 0)
        (fun x => s.outOfRange f.space.val x (s.bufRec s.cw.launch f.rcd.val).esize ||
          ((s.bufRec s.cw.launch f.rcd.val).touched (s.recSlot s.cw.launch (s.bufRec s.cw.launch f.rcd.val)) x n (!store)).any
            fun y => s.outOfRange f.space.val y 1) = none := by
      refine laneTrap_eq_none fun x hx => ⟨by simp [(hgrid x hx).1], ?_⟩
      rw [(hgrid x hx).2, Bool.false_or, List.any_eq_false]
      intro y hy
      exact Bool.not_eq_true _ ▸ hin (x.1, y) (List.mem_flatMap.2 ⟨x, hx, List.mem_map.2 ⟨y, hy, rfl⟩⟩)
    have hpark : ¬(!store && !s.granulesOk f.space.val (s.recTouched f n store) 1) = true := by
      rcases hgran with h | h <;> simp [h]
    refine completes_addAcc rfl (hexec.trans ?_)
    unfold State.recAddrs at hpass
    unfold State.recTouched State.recAddrs at hpark
    rw [State.recAccess, if_neg hne, if_neg hsp, htrap]
    dsimp only
    rw [hpass]
    dsimp only
    rw [if_neg hpark]
    rfl

/-- A load through a record is a record access that reads its elements (08 R202-R204). -/
theorem recordAccess_load {s : State} {f : MF} {i : Instr} (e : Nat) {sgn : Bool} (hrcd : f.rcd.val ≠ 255)
    (hexec : exec i s = .next (s.load f e sgn)) : RecordAccess s i f (ceilDiv e 4) false (decide (e ≥ 4)) allSpaces :=
  recordAccess_recAccess (by rw [hexec, State.load, if_neg hrcd])

/-- A store through a record is a record access that writes its elements (08 R205). -/
theorem recordAccess_store {s : State} {f : MF} {i : Instr} (e : Nat) (hrcd : f.rcd.val ≠ 255)
    (hexec : exec i s = .next (s.store f e)) : RecordAccess s i f (ceilDiv e 4) true (decide (e ≥ 4)) allSpaces :=
  recordAccess_recAccess (by rw [hexec, State.store, if_neg hrcd])

/-- A reduction through a record is a record access of no width, which no record takes (05 R125). -/
theorem recordAccess_red {s : State} {f : MF} {i : Instr} {op n : Nat} (hrcd : f.rcd.val ≠ 255)
    (hexec : exec i s = .next (s.red f op n)) : RecordAccess s i f 1 true false sharedSpaces :=
  recordAccess_recAccess (by rw [hexec, State.red, if_neg hrcd])

/-- An opcode that moves no records meets a sound record with the encoding fault (08 R435). -/
theorem recTrap_of_no_width {s : State} {launch space idx : Nat} (store : Bool) (hidx : idx < (s.lrecOf launch).reccount)
    (hsound : (s.bufRec launch idx).malformed (space == 0 || space == 5) = false) :
    s.recTrap launch space idx false store = some ⟨0x25, 0, idx, 0⟩ := by
  have hdesc : ¬(idx ≥ (s.lrecOf launch).reccount || (s.bufRec launch idx).malformed (space == 0 || space == 5)) = true := by
    simp [hsound, hidx]
  rw [State.recTrap, if_neg hdesc, if_pos (by simp [BufRec.badEnc])]
  rfl

/-! ## Group reads, rays and textures (13 R299, R300, R316, R327) -/

/-- LDRED of elements of `e` bytes, over its lanes' addresses (13 R327). -/
theorem ldred_eq (s : State) (f : MF) {enc e : Nat} (he : (if enc = encBf16 then 2 else 4) = e) :
    s.ldred f enc =
      if (s.laneAddrs f e).isEmpty then s.slotDone
      else if s.badSpace [5] f.space.val then s.trapHere (plainRec cSpace)
      else match laneTrap f.space.val (s.accessLanes f.data f.addr).1 (s.laneAddrs f e) (fun x => x % e != 0) (fun _ => false) with
        | some r => s.trapHere r
        | none =>
          (s.addAcc (.ldred f.rcd.val enc) f.space.val f.scope.val f.order.val 0 s.lrec.asid (s.accessLanes f.data f.addr).1
            (s.regsOf f.data 2) [] ((s.laneAddrs f e).map fun x => Piece.fresh x.1 0 x.2.toNat 0)).slotDone := by
  subst he
  rfl

/-- LDRED of elements of `e` bytes: with no lane nothing; in a space but POOL the invalid-space trap; else one access of the
lanes (13 R327). -/
theorem completes_ldred {s : State} {f : MF} {i : Instr} {enc e : Nat} (he : (if enc = encBf16 then 2 else 4) = e)
    (hexec : exec i s = .next (s.ldred f enc)) :
    (s.laneAddrs f e = [] → Completes s (exec i s) s) ∧
    (s.laneAddrs f e ≠ [] → s.badSpace [5] f.space.val = true →
      exec i s = .next (s.trap (plainRec cSpace) s.cw.pa.here s.cw.pa.slot)) ∧
    (s.laneAddrs f e ≠ [] → s.badSpace [5] f.space.val = false → (∀ x ∈ s.laneAddrs f e, x.2 % e = 0) →
      Completes s (exec i s)
        (s.addAcc (.ldred f.rcd.val enc) f.space.val f.scope.val f.order.val 0 s.lrec.asid (s.accessLanes f.data f.addr).1
          (s.regsOf f.data 2) [] ((s.laneAddrs f e).map fun x => Piece.fresh x.1 0 x.2.toNat 0))) := by
  rw [ldred_eq s f he] at hexec
  refine ⟨fun hlanes => completes_of_cw rfl (hexec.trans ?_), fun hlanes hspace => ?_, fun hlanes hspace halign => ?_⟩
  · rw [if_pos (List.isEmpty_iff.2 hlanes)]
  all_goals
    rw [if_neg (by simpa using hlanes)] at hexec
  · rw [hexec, if_pos hspace]
    rfl
  · refine completes_addAcc rfl (hexec.trans ?_)
    rw [if_neg (by simp [hspace]), laneTrap_eq_none fun x hx => ⟨by exact bne_eq_false_iff_eq.2 (halign x hx), rfl⟩]

/-- RBOX and RTRI: a misaligned base traps; with no active lane nothing; else one read a lane, with the lane's ray (13 R299,
R300). -/
theorem completes_rayAccess {s : State} {g : RF} {i : Instr} {kind : AKind} {align stride n : Nat}
    (hexec : exec i s = .next (s.rayAccess g kind align stride n)) :
    ((s.rd64 g.c).toNat % align ≠ 0 →
      exec i s = .next (s.trap ⟨0x20, (s.rd64 g.c).toNat, 0, 0⟩ s.cw.pa.here s.cw.pa.slot)) ∧
    ((s.rd64 g.c).toNat % align = 0 → s.active false = [] → Completes s (exec i s) s) ∧
    ((s.rd64 g.c).toNat % align = 0 → s.active false ≠ [] →
      Completes s (exec i s)
        (s.addAcc kind 0 0 0 0 s.lrec.asid false (s.regsOf g.dst n) ((s.active false).map fun l => s.rayOf g.a l)
          ((s.active false).zipIdx.map fun x =>
            Piece.fresh x.1 x.2 (((s.rd64 g.c).toNat + stride * ((s.rdL g.b x.1).toNat % 2 ^ 30)) % 2 ^ 56) 0))) := by
  rw [State.rayAccess] at hexec
  refine ⟨fun hbase => ?_, fun hbase hlanes => completes_of_cw rfl (hexec.trans ?_),
    fun hbase hlanes => completes_addAcc rfl (hexec.trans ?_)⟩
  · rw [hexec, if_pos hbase]
    rfl
  · rw [if_neg (by simpa using hbase), if_pos (List.isEmpty_iff.2 hlanes)]
  · rw [if_neg (by simpa using hbase), if_neg (by simpa using hlanes)]

namespace CacheKeeps

variable {P : State → Prop} (k : CacheKeeps P) {s : State}

include k

theorem countGran (q : Asker) (h : P s) : P (s.countGran q) := ite_holds h (k.countDie _ _ _ h)

/-- A read of a location is an act of the memory system. -/
theorem readLoc (q : Asker) (w : How) (l : Loc) (n : Nat) (h : P s) : P (s.readLoc q w l n).1 := by
  cases l with
  | sec hm i => exact ite_holds (k.bring q hm _ h) (k.dropFront q hm _ (k.bring q hm _ h))
  | spd key => exact h
  | gran key => exact k.countGran q h
  | peer key => exact k.countFab _ _ h

theorem noteXlat (core asid addr space : Nat) (h : P s) : P (s.noteXlat core asid addr space) := by
  have hfill := k.tlbFill (Config.dieOf core) asid addr (k.countWalk (Config.dieOf core) asid addr h)
  unfold State.noteXlat
  refine ite_holds h ?_
  dsimp only
  split
  · exact ite_holds (k.enterFilter _ _ hfill) hfill
  · exact hfill

end CacheKeeps

theorem readLoc_ctl (s : State) (q : Asker) (w : How) (l : Loc) (n : Nat) : (s.readLoc q w l n).1.ctl = s.ctl :=
  (cacheKeeps_ctl s.ctl).readLoc _ _ _ _ rfl
theorem noteXlat_ctl (s : State) (core asid addr space : Nat) : (s.noteXlat core asid addr space).ctl = s.ctl :=
  (cacheKeeps_ctl s.ctl).noteXlat _ _ _ _ rfl

/-- The read of a texture's descriptor leaves the wave as it is (13 R316). -/
theorem readTexDesc_cw {s t : State} {va x : Nat} (h : s.readTexDesc va = .ok t x) : t.cw = s.cw := by
  unfold State.readTexDesc at h
  dsimp only at h
  split at h
  · cases h
  · cases h
  · obtain ⟨rfl, -⟩ := TexRead.ok.inj h
    exact ctl_cw ((readLoc_ctl _ _ _ _ _).trans (noteXlat_ctl _ _ _ _ _))

/-- With nothing outstanding nothing holds a read back. -/
theorem holders_eq_nil {s : State} (h : s.accs = []) (c : Access) (p : Piece) : s.holders c p = [] := by
  simp [State.holders, State.earlier, h]

/-- SXL and SXLG with nothing outstanding: a misaligned base traps; a malformed descriptor traps; with no active lane the
descriptor is read and no more; else one access of the lanes, with their wavelengths (13 R316). -/
theorem completes_texAccess {s : State} {g : RF} {i : Instr} {grad : Bool} (hexec : exec i s = .next (s.texAccess g grad)) :
    ((s.rd64 g.c).toNat % 64 ≠ 0 → exec i s = .next (s.trap ⟨0x20, (s.rd64 g.c).toNat, 0, 0⟩ s.cw.pa.here s.cw.pa.slot)) ∧
    (∀ t x, (s.rd64 g.c).toNat % 64 = 0 → s.accs = [] → s.readTexDesc ((s.rd64 g.c).toNat % 2 ^ 56) = .ok t x →
      ((TexDesc.of x).malformed = true → exec i s = .next (t.trap ⟨0x27, 0, toField g.c, 0⟩ t.cw.pa.here t.cw.pa.slot)) ∧
      ((TexDesc.of x).malformed = false → s.active false = [] → Completes s (exec i s) t) ∧
      ((TexDesc.of x).malformed = false → s.active false ≠ [] → Completes s (exec i s)
        (t.addAcc (.sxl grad) 0 0 0 0 s.lrec.asid false (s.regsOf g.dst 1)
          (toWords x 16 :: (s.active false).map fun l => (List.range s.cw.packet).map fun k => s.rdW g.b l k)
          ((s.active false).zipIdx.map fun y =>
            Piece.fresh y.1 y.2 ((s.rd64 g.c).toNat % 2 ^ 56) (ofWords (s.rdWords g.a 3 y.1)))))) := by
  rw [State.texAccess] at hexec
  dsimp only at hexec
  refine ⟨fun hbase => ?_, fun t x hbase haccs hread => ?_⟩
  · rw [hexec, if_pos hbase]
    rfl
  · have hcw := readTexDesc_cw hread
    rw [if_neg (by simpa using hbase), holders_eq_nil haccs, if_neg (by simp), hread] at hexec
    dsimp only at hexec
    refine ⟨fun hbad => ?_, fun hgood hlanes => completes_of_cw hcw (hexec.trans ?_),
      fun hgood hlanes => completes_addAcc hcw (hexec.trans ?_)⟩
    · rw [hexec, if_pos hbad]
      rfl
    · rw [if_neg (by simp [hgood]), if_pos (List.isEmpty_iff.2 hlanes)]
    · rw [if_neg (by simp [hgood]), if_neg (by simpa using hlanes)]

/-- Settles O42: record accesses, group reads, rays and textures each through their shared operation. -/
theorem recordsRaysAndTexturesIssue : Obligations.RecordsRaysAndTexturesIssue := by
  intro f g s
  refine ⟨fun hrcd => ⟨?_, ?_, recordAccess_load 4 hrcd rfl, recordAccess_load 8 hrcd rfl, recordAccess_load 16 hrcd rfl,
    recordAccess_store 4 hrcd rfl, recordAccess_store 8 hrcd rfl, recordAccess_store 16 hrcd rfl, ?_,
    fun store hidx hsound => recTrap_of_no_width store hidx hsound⟩, ?_, ?_, ?_⟩
  · simp only [List.forall_mem_cons, List.not_mem_nil, false_imp_iff, implies_true, and_true]
    exact ⟨recordAccess_load 1 hrcd rfl, recordAccess_load 1 hrcd rfl, recordAccess_load 2 hrcd rfl, recordAccess_load 2 hrcd rfl⟩
  · simp only [List.forall_mem_cons, List.not_mem_nil, false_imp_iff, implies_true, and_true]
    exact ⟨recordAccess_store 1 hrcd rfl, recordAccess_store 2 hrcd rfl⟩
  · simp only [List.forall_mem_cons, List.not_mem_nil, false_imp_iff, implies_true, and_true]
    exact ⟨recordAccess_red hrcd rfl, recordAccess_red hrcd rfl, recordAccess_red hrcd rfl, recordAccess_red hrcd rfl,
      recordAccess_red hrcd rfl, recordAccess_red hrcd rfl, recordAccess_red hrcd rfl, recordAccess_red hrcd rfl,
      recordAccess_red hrcd rfl, recordAccess_red hrcd rfl⟩
  · simp only [List.forall_mem_cons, List.not_mem_nil, false_imp_iff, implies_true, and_true]
    exact ⟨completes_ldred rfl rfl, completes_ldred rfl rfl⟩
  · simp only [List.forall_mem_cons, List.not_mem_nil, false_imp_iff, implies_true, and_true]
    exact ⟨completes_rayAccess rfl, completes_rayAccess rfl⟩
  · simp only [List.forall_mem_cons, List.not_mem_nil, false_imp_iff, implies_true, and_true]
    exact ⟨completes_texAccess rfl, completes_texAccess rfl⟩

/-! ## Copies, fills and walks at issue (05 R133, R134, R140-R142; 13 R305) -/

/-- An instruction that checks a copy and then starts it takes its first failed check, or lists the copy. -/
theorem issues_copy {s : State} {i : Instr} {r : Option TrapRec} {o : AOp} (hkind : o.kind.engine = false)
    (hexec : exec i s = .next (match r with
      | some t => s.trapHere t
      | none => s.issueOp fun s => s.startCopy o)) : Issues s i r o := by
  refine ⟨fun t ht => ?_, fun hr hroom _ => lists_copy s i o hkind ?_ hroom⟩
  · rw [hexec, ht]
    rfl
  · rw [hexec, hr]

theorem firstTrap_cons (b : Bool) (r : TrapRec) (l : List (Bool × TrapRec)) :
    firstTrap ((b, r) :: l) = if b then some r else firstTrap l := by
  cases b <;> rfl

/-- What NMWALK captures (13 R305). -/
def State.walkOp (s : State) (f : AF) : AOp := { s.newOp .nmwalk with args := s.argGroup f.opa }

/-- The base of an NMWALK that is misaligned, the ray's before the result's before the descriptor's (13 R305; log 35). -/
def AOp.misalignedBase (o : AOp) : Option Nat :=
  if o.rayBase % 32 ≠ 0 then some o.rayBase
  else if o.result % 16 ≠ 0 then some o.result
  else if o.descAt % 32 ≠ 0 then some o.descAt
  else none

/-- NMWALK's checks in their order, for an argument group at operand field `field` (13 R305). -/
def AOp.walkTrap (o : AOp) (field : Nat) : Option TrapRec :=
  firstTrap [(o.rayBase % 32 ≠ 0, ⟨cAlign, o.rayBase, 0, 0⟩), (o.result % 16 ≠ 0, ⟨cAlign, o.result, 0, 0⟩),
    (o.descAt % 32 ≠ 0, ⟨cAlign, o.descAt, 0, 0⟩),
    (o.nray = 0 || o.nray > 65536 || o.cape > 16777215, dataRec cDescriptor field)]

theorem exec_nmwalk (f : AF) (s : State) : exec (.nmwalk f) s = .next (match (s.walkOp f).walkTrap (toField f.opa) with
    | some r => s.trapHere r
    | none => s.issueOp fun s' => (s'.addOp (s.walkOp f)).slotDone) := by
  change execNmwalk f s = _
  unfold execNmwalk AOp.walkTrap State.walkOp
  rfl

/-- A misaligned base is reported first, then NRAY and CAPE (13 R305; log 35). -/
theorem walkTrap_eq (o : AOp) (field : Nat) : o.walkTrap field =
    (o.misalignedBase.map fun x => ⟨cAlign, x, 0, 0⟩).or
      (if o.nray = 0 ∨ 65536 < o.nray ∨ 16777215 < o.cape then some (dataRec cDescriptor field) else none) := by
  simp only [AOp.walkTrap, AOp.misalignedBase, firstTrap_cons, Bool.or_eq_true, decide_eq_true_eq, or_assoc, gt_iff_lt]
  split
  · rfl
  · split
    · rfl
    · split <;> rfl

/-- A walk with room for it is listed: it writes no element and clears no granule (05 R142). -/
theorem lists_walk {s : State} {i : Instr} {o : AOp} (hkind : o.kind = .nmwalk)
    (hexec : exec i s = .next (s.issueOp fun s => (s.addOp o).slotDone)) (hroom : s.outstanding s.cw.uid < 64) : Lists s i o := by
  rw [State.issueOp, if_neg (by omega)] at hexec
  refine ⟨s.addOp o, o.spans, ?_, ?_, rfl⟩
  · rw [hexec]
    exact completes_slotDone s _ rfl
  · rw [show o.kind.engine = false by rw [hkind]; rfl]
    rfl

/-- Settles O45: the copies and the fill share the start of a copy; a walk has its own checks. -/
theorem copiesIssue : Obligations.CopiesIssue := by
  rintro f s _ rfl
  refine ⟨issues_copy rfl rfl, issues_copy rfl rfl, ?_, ?_, rfl, rfl, rfl, List.append_nil _⟩
  · rintro _ rfl
    exact issues_copy rfl rfl
  · rintro w base (rfl : w = s.walkOp f) (rfl : base = (s.walkOp f).misalignedBase)
    have hexec := exec_nmwalk f s
    rw [walkTrap_eq] at hexec
    refine ⟨fun x hx => ?_, fun hbase hbad => ?_, fun hbase hpos hmax hcape hroom => lists_walk rfl ?_ hroom⟩
    · rw [hexec, hx]
      rfl
    · rw [hexec, hbase, if_pos hbad]
      rfl
    · rw [hexec, hbase, if_neg (by omega)]
      rfl

/-! ## ACLOSE (05 R143) -/

/-- What ACLOSE of batch `n` by a wave makes of an operation. -/
def AOp.closeInto (o : AOp) (uid n : Nat) : AOp :=
  if o.uid == uid && o.batch.isNone then { o with batch := some n } else o

/-- What ACLOSE of batch `n` by a wave makes of the note of a writer. -/
def closeNote (uid n : Nat) (x : Nat × Written) : Nat × Written :=
  if x.2.uid = uid && x.2.batch.isNone then (x.1, { x.2 with batch := some n }) else x

/-- The state after ACLOSE (05 R143; 09 R225). -/
def State.closed (s : State) (n : Nat) : State :=
  { s with
    tileWrites := s.tileWrites.map (closeNote s.cw.uid n), pairWrites := s.pairWrites.map (closeNote s.cw.uid n)
    ops := s.ops.map fun o => o.closeInto s.cw.uid n
    cw := { s.cw with
      openScope := 0, batchScope := SMap.set s.cw.batchScope n (max s.cw.openScope (SMap.getD s.cw.batchScope n 0)) } }

theorem exec_aclose (f : AcloseF) (s : State) : exec (.aclose f) s = .next (s.closed f.n.val).slotDone := rfl

@[simp] theorem closeInto_id (o : AOp) (uid n : Nat) : (o.closeInto uid n).id = o.id := by
  unfold AOp.closeInto
  split <;> rfl

@[simp] theorem closeInto_uid (o : AOp) (uid n : Nat) : (o.closeInto uid n).uid = o.uid := by
  unfold AOp.closeInto
  split <;> rfl

@[simp] theorem closeInto_done (o : AOp) (uid n : Nat) : (o.closeInto uid n).done = o.done := by
  unfold AOp.closeInto
  split <;> rfl

/-- An operation of another wave, or of a batch, stays as it is. -/
theorem closeInto_of_closed {o : AOp} {uid : Nat} (n : Nat) (h : o.uid ≠ uid ∨ o.batch ≠ none) : o.closeInto uid n = o := by
  rw [AOp.closeInto, if_neg]
  rcases h with h | h <;> simp [h]

/-- An open operation of the wave, or one of batch `n`, is of batch `n` after. -/
theorem closeInto_of_joins {o : AOp} {uid n : Nat} (hu : o.uid = uid) (h : o.batch = none ∨ o.batch = some n) :
    o.closeInto uid n = { o with batch := some n } := by
  rcases h with h | h
  · rw [AOp.closeInto, if_pos (by simp [hu, h])]
  · rw [closeInto_of_closed n (.inr (by simp [h]))]
    cases o
    cases h
    rfl

/-- The operations in batch `n` after are the open ones and those it had. -/
theorem closeInto_joins (o : AOp) (uid n : Nat) :
    ((o.closeInto uid n).uid == uid && (o.closeInto uid n).batch == some n) =
      (o.uid == uid && (o.batch.isNone || o.batch == some n)) := by
  by_cases hu : o.uid = uid
  · cases hb : o.batch with
    | none => simp [closeInto_of_joins hu (.inl hb), hu]
    | some k => simp [closeInto_of_closed n (.inr (by simp [hb]) : o.uid ≠ uid ∨ o.batch ≠ none), hb]
  · rw [closeInto_of_closed n (.inl hu), beq_false_of_ne hu, Bool.false_and, Bool.false_and]

theorem closed_batchOps (s : State) (n : Nat) : (s.closed n).batchOps s.cw.uid n =
    (s.ops.filter fun o => o.uid == s.cw.uid && (o.batch.isNone || o.batch == some n)).map
      fun o => { o with batch := some n } := by
  show (s.ops.map fun o => o.closeInto s.cw.uid n).filter (fun o => o.uid == s.cw.uid && o.batch == some n) = _
  rw [List.filter_map]
  have hsel : ((fun o : AOp => o.uid == s.cw.uid && o.batch == some n) ∘ fun o : AOp => o.closeInto s.cw.uid n) =
      fun o : AOp => o.uid == s.cw.uid && (o.batch.isNone || o.batch == some n) := funext fun o => closeInto_joins o s.cw.uid n
  rw [hsel]
  refine List.map_congr_left fun o ho => ?_
  have hjoins := (List.mem_filter.1 ho).2
  simp only [Bool.and_eq_true, Bool.or_eq_true, beq_iff_eq, Option.isNone_iff_eq_none] at hjoins
  exact closeInto_of_joins hjoins.1 hjoins.2

/-- The batch is complete when all the operations that join it and all it had are done. -/
theorem closed_batchDone (s : State) (n : Nat) : (s.closed n).batchDone s.cw.uid n = true ↔
    ∀ o ∈ s.ops, o.uid = s.cw.uid → o.batch = none ∨ o.batch = some n → o.done = true := by
  simp only [State.batchDone, closed_batchOps, List.all_map, List.all_eq_true, List.mem_filter, Bool.and_eq_true,
    Bool.or_eq_true, beq_iff_eq, Option.isNone_iff_eq_none, Function.comp_apply, and_imp]

theorem encode_of_parts {i : Instr} {op w : Nat} {f : Fmt} (hp : partsOf i = some (op, f)) (hw : op * 2 ^ 55 + f.bits = w) :
    encode i = some w :=
  Option.map_eq_some_iff.2 ⟨(op, f), hp, hw⟩

theorem acloseWord_eq (n : Fin 8) : 0x13E * 2 ^ 55 + (Fmt.aclose ⟨n⟩).bits = 0x9F00000000000000 + n.val * 2 ^ 52 := by
  have hbits : (Fmt.aclose ⟨n⟩).bits = n.val * 2 ^ 52 := rfl
  omega

/-- A word of ACLOSE's opcode is its encoding where its low 52 bits are 0; they are reserved. -/
theorem decodeWord_aclose (n : Fin 8) : decodeWord (0x9F00000000000000 + n.val * 2 ^ 52) = .ok (.aclose ⟨n⟩) :=
  encodeThenDecode (.aclose ⟨n⟩) _ rfl (encode_of_parts rfl (acloseWord_eq n))

/-- The fields of a word of ACLOSE's opcode: a variable, so that no proof evaluates it. -/
theorem fieldsOf_aclose (b : Nat) :
    fieldsOf 0x13E b = if fld b 0 52 = 0 then some (.aclose ⟨Sys2Proof.fin 8 (fld b 52 3) (by decide)⟩) else none := rfl

theorem decodeWord_of_no_fields {w : Nat} (hop : opAssigned (opcodeOf w) = true)
    (hfields : fieldsOf (opcodeOf w) (fld w 0 55) = none) : decodeWord w = .error .reservedField := by
  rw [decodeWord, hop, hfields]
  rfl

theorem decodeWord_aclose_reserved (n : Fin 8) {x : Nat} (h0 : 0 < x) (h : x < 2 ^ 52) :
    decodeWord (0x9F00000000000000 + n.val * 2 ^ 52 + x) = .error .reservedField := by
  have hlow : n.val * 2 ^ 52 + x < 2 ^ 55 := by omega
  have hword : 0x9F00000000000000 + n.val * 2 ^ 52 + x = 0x13E * 2 ^ 55 + (n.val * 2 ^ 52 + x) := by omega
  have hop : opcodeOf (0x13E * 2 ^ 55 + (n.val * 2 ^ 52 + x)) = 0x13E := opcodeOf_word hlow (by decide)
  rw [hword]
  refine decodeWord_of_no_fields (by rw [hop]; rfl) ?_
  rw [hop, lowBits_word hlow, fieldsOf_aclose, if_neg]
  rw [fld_below_add (Nat.le_refl 52), fld_of_lt h]
  omega

/-- Settles O48: what ACLOSE makes of each operation, taken over the list. -/
theorem acloseMovesTheOpenSet : Obligations.AcloseMovesTheOpenSet := by
  refine ⟨fun f s => ⟨s.closed f.n.val, completes_of_pa s _ rfl, rfl, getD_set_self _ _ _ _,
    fun k hk => getD_set_ne _ _ _ hk, ?_, closed_batchOps s _, closed_batchDone s _, fun o ho h => ?_, fun hall => ?_⟩,
    fun n => ⟨decodeWord_aclose n, fun x h0 h => decodeWord_aclose_reserved n h0 h⟩⟩
  · simp [State.closed, Function.comp_def]
  · exact List.mem_map.2 ⟨o, ho, closeInto_of_closed _ h⟩
  · refine (List.map_congr_left fun o ho => closeInto_of_closed _ ?_).trans (List.map_id _)
    by_cases hu : o.uid = s.cw.uid
    · exact .inr (hall o ho hu)
    · exact .inl hu

/-! ## Fences and cache hints (05 R126-R128) -/

theorem exec_fence (f : FenceF) (s : State) : exec (.fence f) s = .next
    ((fenceKinds f.kind.val).foldl (fun s k => s.addAcc (.fence k) 0 f.scope.val 0 0 0 true [] [] []) s).settleFences.slotDone := rfl
theorem exec_cinv (g : MF) (s : State) : exec (.cinv g) s = .next (s.cacheLines g true) := rfl
theorem exec_cflush (g : MF) (s : State) : exec (.cflush g) s = .next (s.cacheLines g false) := rfl
theorem exec_pref (g : MF) (s : State) : exec (.pref g) s = .next (s.prefetch g) := rfl

theorem fenceActs_cw (s : State) (a : Access) (k : Nat) : (s.fenceActs a k).cw = s.cw := by
  unfold State.fenceActs
  exact ite_keeps State.cw (ite_keeps State.cw rfl (releaseAt_cw _ _ _ _ _))
    ((acquireAt_cw _ _ _ _ _).trans (ite_keeps State.cw rfl (releaseAt_cw _ _ _ _ _)))

/-- What becomes of an access at the completion of fences: nothing unless it is a fence that waits for nothing. -/
def State.settleFence (s : State) (a : Access) : State :=
  match a.kind with
  | .fence k => if s.fenceReady a k then { s.fenceActs a k with accs := s.accs.filter fun b => b.id != a.id } else s
  | _ => s

theorem settleFences_eq (s : State) : s.settleFences = s.accs.foldl State.settleFence s := rfl

theorem settleFence_cw (s : State) (a : Access) : (s.settleFence a).cw = s.cw := by
  unfold State.settleFence
  split
  · exact ite_keeps State.cw (fenceActs_cw s a _) rfl
  · rfl

/-- The completion of fences leaves the wave as it is. -/
@[simp] theorem settleFences_cw (s : State) : s.settleFences.cw = s.cw := by
  rw [settleFences_eq]
  exact foldl_keeps State.cw _ settleFence_cw _ _

theorem insidePt_wave (core : Nat) (multi : Bool) (x : Sector) : insidePt core 0 multi x = false := rfl

theorem filter_sectors_false (l : List Sector) : l.filter (fun _ => false) = [] := List.filter_eq_nil_iff.2 fun _ _ => Bool.false_ne_true

/-- At WAVE scope a release and an acquire have nothing to write back (09 R220). -/
theorem releaseAt_wave (s : State) (core launch : Nat) (multi : Bool) : s.releaseAt core launch 0 multi = s := by
  simp only [State.releaseAt, insidePt_wave, show decide (0 ≥ 4) = false from rfl, Bool.false_and, Bool.and_false, filter_sectors_false,
    List.foldl_nil]

theorem acquireAt_wave (s : State) (core launch : Nat) (multi : Bool) : s.acquireAt core launch 0 multi = s := by
  simp only [State.acquireAt, insidePt_wave, Bool.false_and, Bool.and_false, filter_sectors_false, List.foldl_nil]

theorem modOrder_of_keeps (s : State) {g : Written → Written} (h : ∀ w, g w = w) : s.modOrder g = s := by
  obtain rfl : g = id := funext h
  simp [State.modOrder]

/-- The acts of a fence at WAVE scope are none. -/
theorem fenceActs_wave (s : State) {a : Access} (k : Nat) (hscope : a.scope = 0) : s.fenceActs a k = s := by
  simp only [State.fenceActs, hscope, releaseAt_wave, acquireAt_wave, ite_self, if_true]
  split
  · rfl
  · exact modOrder_of_keeps s fun _ => rfl

/-- With no earlier access of its path a fence is over. -/
theorem fenceReady_head (s : State) {a : Access} {l : List Access} (k : Nat) (h : s.accs = a :: l) : s.fenceReady a k = true := by
  simp [State.fenceReady, State.earlier, h]

/-- Fences at WAVE scope with nothing else outstanding complete one after another and leave nothing. -/
theorem settleFence_foldl_wave (l : List Access) (s : State) (haccs : s.accs = l)
    (hl : ∀ a ∈ l, (∃ k, a.kind = .fence k) ∧ a.scope = 0) (hids : (l.map Access.id).Nodup) :
    l.foldl State.settleFence s = { s with accs := [] } := by
  induction l generalizing s with
  | nil => rw [List.foldl_nil, ← haccs]
  | cons a l ih =>
    obtain ⟨⟨⟨k, hkind⟩, hscope⟩, hrest⟩ := List.forall_mem_cons.1 hl
    obtain ⟨hfresh, hids⟩ := List.nodup_cons.1 hids
    have hkept : l.filter (fun b => b.id != a.id) = l :=
      List.filter_eq_self.2 fun b hb => bne_iff_ne.2 fun h => hfresh (h ▸ List.mem_map_of_mem hb)
    have hstep : s.settleFence a = { s with accs := l } := by
      simp [State.settleFence, hkind, fenceReady_head s k haccs, fenceActs_wave s k hscope, haccs, hkept]
    rw [List.foldl_cons, hstep, ih _ rfl hrest hids]

/-- Listing a fence at WAVE scope numbers it and notes nothing. -/
theorem addAcc_waveFence (s : State) (k : Nat) : s.addAcc (.fence k) 0 0 0 0 0 true [] [] [] =
    { s with nextId := s.nextId + 1, accs := s.accs ++ [s.newAcc (.fence k) 0 0 0 0 0 true [] [] []] } := by
  have hnoted : (s.newId.2).modOrder (s.newAcc (.fence k) 0 0 0 0 0 true [] [] []).noted = s.newId.2 :=
    modOrder_of_keeps _ fun w => by simp [Access.noted, State.newAcc]
  unfold State.addAcc
  dsimp only
  rw [hnoted]
  rfl

/-- With nothing outstanding a FENCE at WAVE scope changes the numbers only (05 R126). -/
theorem settleFences_waveFences (s : State) (kind : Nat) (haccs : s.accs = []) :
    ((fenceKinds kind).foldl (fun s k => s.addAcc (.fence k) 0 0 0 0 0 true [] [] []) s).settleFences =
      { s with nextId := s.nextId + (if kind = 0 then 2 else 1) } := by
  rw [settleFences_eq, fenceKinds]
  split
  · rw [List.foldl_cons, List.foldl_cons, List.foldl_nil, addAcc_waveFence, addAcc_waveFence,
      settleFence_foldl_wave _ _ rfl (by simp [haccs, State.newAcc]) (by simp [haccs, State.newAcc]), ← haccs]
  · rw [List.foldl_cons, List.foldl_nil, addAcc_waveFence,
      settleFence_foldl_wave _ _ rfl (by simp [haccs, State.newAcc]) (by simp [haccs, State.newAcc]), ← haccs]

/-- The lanes a cache hint names (05 R127). -/
def State.hintLanes (s : State) (g : MF) : List Nat := if clsOf g.addr == .v then s.active false else [0]

/-- What CINV and CFLUSH do at the line of a lane's address, as the state `s` at issue names it (05 R127; 08 R197). -/
def State.cacheLine (s : State) (g : MF) (drop : Bool) (t : State) (l : Nat) : State :=
  let n := t.nameOf s.cw.core s.lrec.asid ((s.effAddr g.addr g.space.val g.off 1 l).toNat % 2 ^ 56) (g.space.val == 5)
  t.writeBackAll drop (lineOf s.cw.core n.1 (n.2 / 128) (g.space.val == 5) (g.cache.val == 2))

theorem effAddr_of_ctl {s t : State} (h : t.ctl = s.ctl) (o : Operand) (space : Nat) (off : BitVec 16) (e l : Nat) :
    t.effAddr o space off e l = s.effAddr o space off e l :=
  show t.ctl.effAddr o space off e l = s.ctl.effAddr o space off e l by rw [h]

theorem lrec_of_ctl {s t : State} (h : t.ctl = s.ctl) : t.lrec = s.lrec := show t.ctl.lrec = s.ctl.lrec by rw [h]

theorem cacheLine_ctl (s t : State) (g : MF) (drop : Bool) (l : Nat) : (s.cacheLine g drop t l).ctl = t.ctl :=
  (cacheKeeps_ctl t.ctl).writeBackAll _ _ rfl

/-- The memory system's acts at one line leave alone what names the next. -/
theorem cacheLine_of_ctl {s t : State} (h : t.ctl = s.ctl) (g : MF) (drop : Bool) (l : Nat) :
    t.cacheLine g drop t l = s.cacheLine g drop t l := by
  simp only [State.cacheLine, effAddr_of_ctl h, lrec_of_ctl h, ctl_cw h]

theorem foldl_cacheLine (s : State) (g : MF) (drop : Bool) (ls : List Nat) (t : State) (h : t.ctl = s.ctl) :
    ls.foldl (fun t l => t.cacheLine g drop t l) t = ls.foldl (s.cacheLine g drop) t ∧
      (ls.foldl (s.cacheLine g drop) t).ctl = s.ctl := by
  induction ls generalizing t with
  | nil => exact ⟨rfl, h⟩
  | cons l ls ih =>
    rw [List.foldl_cons, List.foldl_cons, cacheLine_of_ctl h]
    exact ih _ ((cacheLine_ctl s t g drop l).trans h)

theorem unsettled_eq_nil {s : State} (h : s.accs = []) (sel : Access → Bool) : s.unsettled sel = [] := by
  simp [State.unsettled, h]

/-- CINV and CFLUSH with nothing outstanding write back the line of each lane named, in turn (05 R127). -/
theorem completes_cacheLines {s : State} {g : MF} {i : Instr} {drop : Bool} (hexec : exec i s = .next (s.cacheLines g drop))
    (hlanes : s.hintLanes g ≠ []) (hspace : s.badSpace [0, 5] g.space.val = false) (haccs : s.accs = []) :
    Completes s (exec i s) ((s.hintLanes g).foldl (s.cacheLine g drop) s) := by
  obtain ⟨hfold, hctl⟩ := foldl_cacheLine s g drop (s.hintLanes g) s rfl
  refine completes_of_cw (ctl_cw hctl) (hexec.trans ?_)
  rw [← hfold]
  unfold State.hintLanes at hlanes
  rw [State.cacheLines]
  dsimp only
  rw [if_neg (by simpa using hlanes), if_neg (by simp [hspace]), if_neg (by simp [unsettled_eq_nil haccs])]
  rfl

/-- CINV and CFLUSH of no lane only end their slot. -/
theorem completes_cacheLines_nil {s : State} {g : MF} {i : Instr} {drop : Bool} (hexec : exec i s = .next (s.cacheLines g drop))
    (hlanes : s.hintLanes g = []) : Completes s (exec i s) s := by
  refine completes_of_cw rfl (hexec.trans ?_)
  unfold State.hintLanes at hlanes
  rw [State.cacheLines]
  dsimp only
  rw [if_pos (List.isEmpty_iff.2 hlanes)]

/-- With nothing cached there is nothing to write back. -/
theorem writeBackAll_nil {s : State} (h : s.sectors = []) (drop : Bool) (sel : Sector → Bool) : s.writeBackAll drop sel = s := by
  simp [State.writeBackAll, h]

/-- A prefetch acts on the memory system only (05 R128). -/
theorem prefetch_ctl {s : State} {g : MF} (hspace : s.badSpace [0, 5] g.space.val = false) :
    ∃ t : State, s.prefetch g = t.slotDone ∧ t.ctl = s.ctl := by
  unfold State.prefetch
  generalize (if clsOf g.addr == .v then s.active false else [0]) = lanes
  dsimp only
  split
  · exact ⟨s, rfl, rfl⟩
  · rw [if_neg (by simp [hspace])]
    refine ⟨_, rfl, foldl_inv (fun t : State => t.ctl = s.ctl) _ (fun t l ht => ?_) _ s rfl⟩
    refine foldl_inv (fun t : State => t.ctl = s.ctl) _ (fun t k ht => ?_) _ t ht
    split
    · exact (cacheKeeps_ctl s.ctl).bring _ _ _ ((cacheKeeps_ctl s.ctl).noteXlat _ _ _ _ ht)
    · exact ht

/-- Settles O39: the fences through their completion, the cache operations through the line of each lane. -/
theorem fencesAndCacheHints : Obligations.FencesAndCacheHints := by
  intro f g s
  have hfence : ∀ t : State, t.cw.pa.after = s.cw.pa.after → exec (.fence f) s = .next t.settleFences.slotDone →
      Completes s (exec (.fence f) s) t.settleFences := fun t ht he => by
    rw [he]
    exact completes_slotDone s _ (by rw [settleFences_cw, ht])
  refine ⟨fun hkind => ?_, fun hkind => ?_, fun hscope haccs => ?_, fun hlanes => ?_, fun hcls hspace => ⟨?_, fun haccs hsec => ?_⟩, ?_⟩
  · exact hfence _ (addAcc_after ..) (by rw [exec_fence, fenceKinds, if_neg hkind]; rfl)
  · exact hfence _ (by rw [addAcc_after, addAcc_after]) (by rw [exec_fence, fenceKinds, if_pos hkind]; rfl)
  · exact completes_of_cw rfl (by rw [exec_fence, hscope, settleFences_waveFences s _ haccs])
  · refine ⟨completes_cacheLines_nil (exec_cinv g s) hlanes, completes_cacheLines_nil (exec_cflush g s) hlanes,
      completes_of_cw rfl ((exec_pref g s).trans ?_)⟩
    rw [State.prefetch]
    dsimp only
    rw [if_pos (List.isEmpty_iff.2 hlanes)]
  · obtain ⟨t, ht, hctl⟩ := prefetch_ctl hspace
    exact ⟨t, completes_of_cw (ctl_cw hctl) (by rw [exec_pref, ht]), ctl_cw hctl, ctl_waves hctl, ctl_accs hctl, ctl_spd hctl,
      show t.ctl.gran = s.ctl.gran by rw [hctl]⟩
  · have hlanes : s.hintLanes g = [0] := if_neg (by simpa using hcls)
    have hline : ∀ drop, (s.hintLanes g).foldl (s.cacheLine g drop) s = s := fun drop => by
      rw [hlanes]
      exact writeBackAll_nil hsec _ _
    have h := fun (i : Instr) (drop : Bool) (he : exec i s = .next (s.cacheLines g drop)) =>
      hline drop ▸ completes_cacheLines he (by simp [hlanes]) hspace haccs
    exact ⟨h _ true (exec_cinv g s), h _ false (exec_cflush g s)⟩
  · rintro line hspace haccs rfl
    refine ⟨fun hcls => ?_, fun hcls => ?_⟩
    · have hlanes : s.hintLanes g = [0] := if_neg (by simpa using hcls)
      have h := fun (i : Instr) (drop : Bool) (he : exec i s = .next (s.cacheLines g drop)) =>
        completes_cacheLines he (by simp [hlanes]) hspace haccs
      rw [hlanes] at h
      exact ⟨h _ true (exec_cinv g s), h _ false (exec_cflush g s)⟩
    · have hlanes : s.hintLanes g = s.active false := if_pos (by simp [hcls])
      by_cases hnone : s.active false = []
      · rw [hnone]
        exact ⟨completes_cacheLines_nil (exec_cinv g s) (hlanes.trans hnone),
          completes_cacheLines_nil (exec_cflush g s) (hlanes.trans hnone)⟩
      · have h := fun (i : Instr) (drop : Bool) (he : exec i s = .next (s.cacheLines g drop)) =>
          completes_cacheLines he (by rwa [hlanes]) hspace haccs
        rw [hlanes] at h
        exact ⟨h _ true (exec_cinv g s), h _ false (exec_cflush g s)⟩

/-! ### O49: the landing of an element also notes the reference tick at which the operation last heard -/

/-- A fill of one FP32 element at byte 0 of the scratchpad, which last heard of its accesses at reference tick 0. -/
def oneWordFill : AOp :=
  { State.reset.newOp .cpfill with
      id := 5
      shapes := [0x100000000000000000000000000000000000000000000000000000000000000000000000100000000000000010a00000000000000#512] }

/-- The reset state at reference tick 1, with that fill in flight. -/
def oneWordFillInFlight : State := { State.reset with ref := 1, ops := [oneWordFill] }

/-- Does a landing succeed and leave the operation `o` of an id as it is? -/
def Landing.leaves (id : Nat) (o : AOp) : Landing → Bool
  | .ok t _ => t.opOf id == some o
  | _ => false

theorem Landing.ok_of_leaves {id : Nat} {o : AOp} {l : Landing} (h : l.leaves id o = true) :
    ∃ t x, l = .ok t x ∧ t.opOf id = some o := by
  cases l with
  | ok t x => exact ⟨t, x, rfl, eq_of_beq h⟩
  | miss => cases h
  | fault => cases h

theorem oneWordFill_pending : oneWordFill.pending 0 = true := by decide +kernel

theorem oneWordFill_lands : (oneWordFillInFlight.landElem oneWordFill 0).leaves 5 oneWordFill = true := by decide +kernel

theorem opOf_modOp_same (s : State) (id : Nat) (f : AOp → AOp) (hf : ∀ o, (f o).id = o.id) :
    (s.modOp id f).opOf id = (s.opOf id).map f := by
  simp only [State.modOp, State.opOf]
  induction s.ops with
  | nil => rfl
  | cons o os ih =>
    by_cases h : o.id = id
    · simp [h, hf]
    · simpa [h] using ih

/-- An operation that has a landing noted has heard of it at the present tick. -/
theorem opOf_landOne {s t : State} {o : AOp} {id k x : Nat} (ho : s.opOf id = some o) (hp : o.pending k = true)
    (hl : s.landElem o k = .ok t x) (ht : t.opOf id = some o) :
    (s.landOne id k).opOf id = some { o with landed := o.landed ++ [k], read := o.read ++ [x], heard := s.ref } := by
  simp [State.landOne, ho, hp, hl, opOf_modOp_same, ht]

/-- Refutes O49: the first clause keeps every field of the operation but `landed` and `read`, and landing an element also notes in
`heard` the reference tick of the landing; a fill that last heard at tick 0 and lands its element at tick 1 is changed there. -/
theorem not_copiesLandAndComplete : ¬ Obligations.CopiesLandAndComplete := by
  intro h
  have ho : oneWordFillInFlight.opOf 5 = some oneWordFill := rfl
  obtain ⟨t, x, hl, ht⟩ := Landing.ok_of_leaves oneWordFill_lands
  obtain ⟨hland, -⟩ := h oneWordFillInFlight oneWordFill 5 ho rfl rfl rfl rfl
  have claimed := hland 0 t x oneWordFill_pending hl (ho.trans ht.symm)
  rw [opOf_landOne ho oneWordFill_pending hl ht] at claimed
  have heard : (1 : Nat) = 0 := congrArg AOp.heard (Option.some.inj claimed)
  exact absurd heard (by decide)

/-! ### O53: a `BCNT` by a wave of which nothing is left -/

/-- A wave of block 1 whose only path waits, before the clause at 8, for the byte barrier at scratchpad address 0 to leave phase 1. -/
def barxWaiter : Wave :=
  { Wave.free with
      uid := 1, launch := 1, block := 1
      pa := { PathSt.absent with phase := .parked (.barx (spdKey 1 0 0) true), pc := 8 } }

/-- Block 1, of one wave, of launch 1. -/
def oneWaveBlock : Block :=
  { id := 1, launch := 1, index := 0, isTask := false, cores := [0], slots := [0], banks := [false], saved := false, phase := .running
    nwaves := 1, ended := [], circles := [], attached := false, arriving := false, detached := false }

/-- Launch 1, with 16 bytes of scratchpad. -/
def sixteenByteLaunch : Launch :=
  { id := 1, rec_ := { LRec.unset with spdbytes := 16 }, queue := 0, recAddr := 0, prio := 0, args := [], recs := [], circles := []
    depsMet := [], ordinal := 0, placed := 0, exited := 0, lerr := 0, err := none, aborted := false, cancelled := 0, joinLost := 0
    ptpSteps := 0, silent := false, statusless := false, gangAsked := false, waiting := none, preempts := false, starts := [] }

/-- A wave of block 1 in a free slot with idle paths is in focus, and the waiter is listed. -/
def bcntWithWaiter : State :=
  { State.reset with
      cw := { Wave.free with launch := 1, block := 1 }
      waves := [(1, barxWaiter)], blocks := [(1, oneWaveBlock)], launches := [(1, sixteenByteLaunch)] }

/-- `BCNT` of circle 0 at address 0, an inline constant. -/
def bcntAtZero : BcntF := ⟨.c 0, 0⟩

/-- Does a step go on, with the path in focus at a place? -/
def standsAt (place : Nat × Option Clause × Nat) : Res → Bool
  | .next u => u.cw.pa.spot == place
  | _ => false

theorem not_completes_of_standsAt {s t : State} {r : Res} {place : Nat × Option Clause × Nat} (h : standsAt place r = true)
    (hne : place ≠ s.cw.pa.after) : ¬ Completes s r t := by
  rintro ⟨u, rfl, -, hspot⟩
  exact hne ((eq_of_beq h).symm.trans hspot)

/-- The barrier that `BCNT` makes is in phase 0, so the waiter goes on. The focus turns to it for that and cannot turn back to the wave
of the `BCNT`, of which nothing is left; the slot that completes, and the place that moves on from 8 to 16, are then the waiter's. -/
theorem bcntAtZero_standsAt_waiter : standsAt (16, none, 0) (exec (.bcnt bcntAtZero) bcntWithWaiter) = true := by
  decide +kernel

/-- Refutes O53: the clause of `BCNT` is over all states, also those whose wave in focus is in a free slot with idle paths; where a path
waits there for the phase that `BCNT` ends, the path in focus does not go on to the clause after its own. -/
theorem not_byteBarriersAndWaits : ¬ Obligations.ByteBarriersAndWaits := by
  intro h
  obtain ⟨hbcnt, -⟩ := h bcntAtZero ⟨.c 0, .c 0, .c 0⟩ ⟨.c 0, .c 0, 0, false, 0⟩ bcntWithWaiter _ rfl
  obtain ⟨n, -, hcompletes⟩ := hbcnt 0 oneWaveBlock (spdKey 1 0 0) rfl rfl rfl rfl (by decide) rfl rfl
  exact not_completes_of_standsAt bcntAtZero_standsAt_waiter (by decide) hcompletes

/-! ### O40: an asker whose number is that of its die's L2 -/

/-- An asker numbered as the L2 of the die its number falls into, 452 = 448 + 452 / 112; the module's cores are 0 to 447. -/
def askerAtL2 : Asker := { core := 452, launch := 0, l2Only := false }

/-- An atomic performed in the die's L2. -/
def atomicInL2 : How := { strong := true, atomic := true, scope := 2, multi := false }

/-- The first sector of HBM. -/
def firstSector : Home := { pool := false, asid := 0, line := 0, kind := 0, addr := 0 }

theorem mapSect_of_sectors_nil {s : State} (hs : s.sectors = []) (owner : Nat) (h : Home) (f : Sector → Sector) :
    s.mapSect owner h f = s := by
  simp only [State.mapSect, hs, List.map_nil]
  rw [← hs]

theorem putAt_l2_of_sectors_nil {s : State} (hs : s.sectors = []) (q : Asker) (h : Home) (d : BitVec 1024) (m : BitVec 128) :
    s.putAt q h .l2 d m = s := by
  simp only [State.putAt, mapSect_of_sectors_nil hs]

/-- The copy that the L2 takes is dropped again as if it stood in the L1 in front. -/
theorem dropFront_bring_askerAtL2 :
    ((State.reset.bring askerAtL2 firstSector .l2).dropFront askerAtL2 firstSector .l2).sectors = [] := rfl

/-- The write is lost, whatever is written. -/
theorem writeLoc_askerAtL2 (x : Nat) : State.reset.writeLoc askerAtL2 atomicInL2 (.sec firstSector 0) 1 x 1 =
    (State.reset.bring askerAtL2 firstSector .l2).dropFront askerAtL2 firstSector .l2 :=
  putAt_l2_of_sectors_nil dropFront_bring_askerAtL2 _ _ _ _

/-- Refutes O40: in the cache laws the core that asks is any number. At 452 the L1 of the core and the L2 of its die are one cache in
the model; an atomic in the L2 drops the copy in front of it, which is the one it is to write, and a write of 0 and a write of 1 leave
the same state, from which both would be read. -/
theorem not_localAccessesPerform : ¬ Obligations.LocalAccessesPerform := by
  rintro ⟨-, -, -, hcache⟩
  obtain ⟨read0, -⟩ := hcache State.reset _ askerAtL2 atomicInL2 firstSector 0 1 0 (by decide) (by decide) (writeLoc_askerAtL2 0).symm
  obtain ⟨read1, -⟩ := hcache State.reset _ askerAtL2 atomicInL2 firstSector 0 1 1 (by decide) (by decide) (writeLoc_askerAtL2 1).symm
  exact absurd (read0.symm.trans read1) (by decide)

end Sys2Proof.Machine

namespace Sys2Proof.Machine

open Sys2Proof (Operand RF MootaF MootqF FramecF SnapF TnextF Instr W32 W64 SMap SMap.get? SMap.set SMap.modify SMap.del SMap.getD)

/-! # Light, tasks, moots and time -/

/-! ## Spectral packets (13 R309-R314) -/

@[simp] theorem wsamp_setW_self (w : Wave) (r l k : Nat) (x : W32) : (w.setW r l k x).wsamp r l k = x := by
  simp [Wave.wsamp, Wave.setW, get?_set_self]

/-- A write of a sample leaves every other sample, of every lane and register, as it was. -/
theorem wsamp_setW_ne (w : Wave) {r l k n m j : Nat} (x : W32) (hl : l < 32) (hm : m < 32) (hk : k < 8) (hj : j < 8)
    (h : ¬(n = r ∧ m = l ∧ j = k)) : (w.setW r l k x).wsamp n m j = w.wsamp n m j := by
  have hkey : (n * 32 + m) * 8 + j ≠ (r * 32 + l) * 8 + k := by omega
  simp [Wave.wsamp, Wave.setW, get?_set_ne _ _ hkey]

/-- Samples written in turn, at keys below the bounds: one that is written holds its value, and every other keeps its own. -/
theorem wsamp_foldl_setW (r : Nat) (g : Nat → Nat → W32) {m j : Nat} (hm : m < 32) (hj : j < 8) (n : Nat) (ps : List (Nat × Nat))
    (hps : ∀ p ∈ ps, p.1 < 32 ∧ p.2 < 8) (w : Wave) :
    (ps.foldl (fun w p => w.setW r p.1 p.2 (g p.1 p.2)) w).wsamp n m j =
      if n = r ∧ (m, j) ∈ ps then g m j else w.wsamp n m j := by
  induction ps generalizing w with
  | nil => simp
  | cons p ps ih =>
    obtain ⟨⟨hp1, hp2⟩, hps⟩ := List.forall_mem_cons.1 hps
    rw [List.foldl_cons, ih hps]
    by_cases hmem : n = r ∧ (m, j) ∈ ps
    · rw [if_pos hmem, if_pos ⟨hmem.1, List.mem_cons_of_mem _ hmem.2⟩]
    · rw [if_neg hmem]
      by_cases heq : n = r ∧ m = p.1 ∧ j = p.2
      · obtain ⟨rfl, rfl, rfl⟩ := heq
        simp
      · rw [wsamp_setW_ne w _ hp1 hm hp2 hj heq, if_neg]
        rintro ⟨hn, hc⟩
        rcases List.mem_cons.1 hc with rfl | hc
        · exact heq ⟨hn, rfl, rfl⟩
        · exact hmem ⟨hn, hc⟩

/-- The lanes and samples of a packet write, as one list. -/
theorem foldl_lanes_samples (r : Nat) (ls ks : List Nat) (g : Nat → Nat → W32) (w : Wave) :
    ls.foldl (fun w l => ks.foldl (fun w k => w.setW r l k (g l k)) w) w =
      (ls.flatMap fun l => ks.map (Prod.mk l)).foldl (fun w p => w.setW r p.1 p.2 (g p.1 p.2)) w := by
  simp only [List.foldl_flatMap, List.foldl_map]

theorem mem_lanes_samples {ls ks : List Nat} {m j : Nat} : (m, j) ∈ ls.flatMap (fun l => ks.map (Prod.mk l)) ↔ m ∈ ls ∧ j ∈ ks := by
  simp only [List.mem_flatMap, List.mem_map]
  constructor
  · rintro ⟨l, hl, k, hk, ⟨⟩⟩
    exact ⟨hl, hk⟩
  · rintro ⟨hm, hj⟩
    exact ⟨m, hm, j, hj, rfl⟩

/-- What a packet write leaves in a sample: its value where the register, the lane and the sample are among those written. -/
theorem wsamp_wrSamples (s : State) (o : Operand) {ls ks : List Nat} (g : Nat → Nat → W32) (hls : ∀ l ∈ ls, l < 32)
    (hks : ∀ k ∈ ks, k < 8) (n : Nat) {m j : Nat} (hm : m < 32) (hj : j < 8) :
    (s.wrSamples o ls ks g).cw.wsamp n m j = if n = idxOf o ∧ m ∈ ls ∧ j ∈ ks then g m j else s.cw.wsamp n m j := by
  rw [State.wrSamples, onWave_cw, foldl_lanes_samples, wsamp_foldl_setW _ _ hm hj]
  · simp only [mem_lanes_samples]
  · rintro ⟨l, k⟩ h
    obtain ⟨hl, hk⟩ := mem_lanes_samples.1 h
    exact ⟨hls l hl, hks k hk⟩

@[simp] theorem wrSamples_pa (s : State) (o : Operand) (ls ks : List Nat) (g : Nat → Nat → W32) :
    (s.wrSamples o ls ks g).cw.pa = s.cw.pa :=
  foldl_wave Wave.pa _ (fun w l => foldl_wave Wave.pa (fun w k => w.setW (idxOf o) l k (g l k)) (fun _ _ => rfl) ks w) ls s.cw

/-- An instruction that ends its slot in a state whose path in focus stands where it stood completes with that state. -/
theorem completes_of_exec {s t : State} {i : Instr} (hpa : t.cw.pa = s.cw.pa) (hexec : exec i s = .next t.slotDone) :
    Completes s (exec i s) t := by
  rw [hexec]
  exact completes_of_pa s t hpa

/-- An instruction that answers a packet completes with the packet of each active lane. -/
theorem completes_packet {s : State} {f : RF} {i : Instr} {g : Nat → Nat → W32} (hexec : exec i s = packetRes s f g) :
    Completes s (exec i s) (s.wrSamples f.dst (s.active f.all) (List.range s.cw.packet) g) :=
  completes_of_exec (wrSamples_pa ..) hexec

/-- An instruction and its .V form that answer one packet (13 R310). -/
theorem completes_packet_pair {s : State} {f : RF} {i j : Instr} {g : Nat → Nat → W32} (hi : exec i s = packetRes s f g)
    (hj : exec j s = packetRes s f g) :
    ∀ x ∈ [i, j], Completes s (exec x s) (s.wrSamples f.dst (s.active f.all) (List.range s.cw.packet) g) := by
  intro x hx
  simp only [List.mem_cons, List.not_mem_nil, or_false] at hx
  rcases hx with rfl | rfl
  · exact completes_packet hi
  · exact completes_packet hj

theorem packet_le (w : Wave) : w.packet ≤ 8 := by
  unfold Wave.packet
  split <;> decide

theorem lt_of_mem_active {s : State} {all : Bool} {l : Nat} (h : l ∈ s.active all) : l < 32 := by
  unfold State.active at h
  split at h
  · exact List.mem_range.1 h
  · exact List.mem_range.1 (List.mem_filter.1 h).1

/-- Register `r` of a run of w registers that does not wrap. -/
theorem idxOf_nthReg_w {i : Fin 32} {r : Nat} (h : i.val + r < 32) : idxOf (nthReg (.w i) r) = i.val + r :=
  Nat.mod_eq_of_lt h

/-- Row `r` of WMM's result for a sample of a lane: all its inputs are read from the state before (13 R314). -/
def State.wmmRow (s : State) (f : RF) (r l k : Nat) : W32 :=
  s.fpOut (s.rmOf f.sub.val) false (XR.sum (s.rmOf f.sub.val) ((List.range 4).map fun j =>
    XR.mul (fp32Val (flushIn s.cw.ftz (s.rdL (nthReg f.b (4 * r + j)) l)))
      (fp32Val (flushIn s.cw.ftz (s.rdW (nthReg f.a j) l k)))))

/-- The rows `rs` of WMM's result written one after another. -/
def State.wmmRows (s : State) (f : RF) (rs : List Nat) (t : State) : State :=
  rs.foldl (fun (t : State) r => t.wrSamples (nthReg f.dst r) (s.active f.all) (List.range s.cw.packet) (s.wmmRow f r)) t

theorem exec_wmm (f : RF) (s : State) : exec (.wmm f) s = .next (s.wmmRows f (List.range 4) s).slotDone := rfl

@[simp] theorem wmmRows_pa (s : State) (f : RF) (rs : List Nat) (t : State) : (s.wmmRows f rs t).cw.pa = t.cw.pa :=
  foldl_keeps (fun t : State => t.cw.pa) _ (fun t _ => wrSamples_pa t _ _ _ _) rs t

/-- What a sample holds after rows are written to a run of w registers that does not wrap. -/
theorem wsamp_wmmRows (s : State) {f : RF} {i : Fin 32} (hdst : f.dst = .w i) {n l k : Nat} (hl : l < 32) (hk : k < 8) (rs : List Nat)
    (hrs : ∀ r ∈ rs, i.val + r < 32) (t : State) :
    (s.wmmRows f rs t).cw.wsamp n l k =
      if i.val ≤ n ∧ n - i.val ∈ rs ∧ l ∈ s.active f.all ∧ k < s.cw.packet then
        s.wmmRow f (n - i.val) l k
      else t.cw.wsamp n l k := by
  induction rs generalizing t with
  | nil => simp [State.wmmRows]
  | cons r rs ih =>
    obtain ⟨hr, hrs⟩ := List.forall_mem_cons.1 hrs
    have hrow : (t.wrSamples (nthReg f.dst r) (s.active f.all) (List.range s.cw.packet) (s.wmmRow f r)).cw.wsamp n l k =
        if n = i.val + r ∧ l ∈ s.active f.all ∧ k < s.cw.packet then s.wmmRow f r l k else t.cw.wsamp n l k := by
      rw [wsamp_wrSamples _ _ _ (fun _ h => lt_of_mem_active h)
        (fun _ h => Nat.lt_of_lt_of_le (List.mem_range.1 h) (packet_le _)) n hl hk, hdst, idxOf_nthReg_w hr]
      simp only [List.mem_range]
    refine (ih hrs _).trans ?_
    rw [hrow]
    rcases Nat.lt_or_ge n i.val with hlt | hle
    · rw [if_neg (by omega), if_neg (by omega), if_neg (by omega)]
    · obtain ⟨q, rfl⟩ := Nat.exists_eq_add_of_le hle
      by_cases hq : q = r
      · subst hq
        by_cases hact : l ∈ s.active f.all ∧ k < s.cw.packet <;> simp [hact]
      · simp [hq]

/-- Settles O43: each form is the shared packet write of its operation, and WMM writes its rows one after another. -/
theorem packetResults : Obligations.PacketResults := by
  rintro f s _ _ _ _ _ rfl rfl rfl rfl rfl
  refine ⟨completes_packet_pair rfl rfl, completes_packet_pair rfl rfl, completes_packet_pair rfl rfl, completes_packet_pair rfl rfl,
    completes_packet_pair rfl rfl, completes_packet_pair rfl rfl, completes_packet rfl,
    fun hsub => ?_, fun hsub => ?_,
    completes_of_exec (wrLanes_pa ..) rfl, completes_of_exec (wrSamples_pa ..) rfl,
    completes_of_exec (wrLanes_pa ..) rfl, s.wmmRows f (List.range 4) s, completes_of_exec (wmmRows_pa ..) (exec_wmm f s),
    fun i hdst hrun => ⟨fun r l k hr hl hk => ?_, fun n l k _ hl hk hout => ?_⟩⟩
  · exact completes_packet (congrArg (packetRes s f) (funext fun l => funext fun k => if_pos hsub))
  · exact completes_packet (congrArg (packetRes s f) (funext fun l => funext fun k => if_neg hsub))
  all_goals
    have hrows : ∀ r ∈ List.range 4, i.val + r < 32 := fun r hr => by
      have := List.mem_range.1 hr
      omega
  · rw [wsamp_wmmRows s hdst (lt_of_mem_active hl) (Nat.lt_of_lt_of_le hk (packet_le _)) _ hrows,
      if_pos ⟨by omega, by simpa using hr, hl, hk⟩, Nat.add_sub_cancel_left]
    rfl
  · rw [wsamp_wmmRows s hdst hl hk _ hrows, if_neg]
    rintro ⟨hle, hmem, hact, hlt⟩
    have := List.mem_range.1 hmem
    rcases hout with h | h | h | h
    · omega
    · omega
    · exact h hact
    · omega

/-! ## Traversal stacks (13 R301-R304) -/

theorem exec_tsinit (f : RF) (s : State) : exec (.tsinit f) s = execTsinit f s := rfl
theorem exec_tspush (f : RF) (s : State) : exec (.tspush f) s = .next (s.tspush f) := rfl
theorem exec_tspop (f : RF) (s : State) : exec (.tspop f) s = .next (s.tspop f) := rfl

/-- A run of registers supplies as many words as it has registers, and a constant is extended to them (01 R29, R36). -/
theorem length_rdWords (s : State) (o : Operand) {n : Nat} (hn : 0 < n) (l : Nat) : (s.rdWords o n l).length = n := by
  cases o <;> simp [State.rdWords, constWords, Nat.sub_add_cancel hn]

theorem wrLanes64_congr {s : State} {o : Operand} {ls : List Nat} {g h : Nat → W64} (hg : ∀ l ∈ ls, g l = h l) :
    s.wrLanes64 o ls g = s.wrLanes64 o ls h := by
  cases o
  case v i =>
    refine congrArg (fun w => { s with cw := w }) (List.foldl_rel (r := Eq) rfl fun l hl w _ hw => ?_)
    rw [hw, hg l hl]
  all_goals rfl

theorem wrLanes64_nil (s : State) (o : Operand) (g : Nat → W64) : s.wrLanes64 o [] g = s := by cases o <;> rfl

/-- Is a child no miss: are bits 31 to 30 of its pointer word not 3 (13 R303)? -/
def isChild (p : W32 × W32) : Bool := p.1.toNat / 2 ^ 30 != 3

/-- Entries that a stack has room for. -/
def TStack.room (t : TStack) : Nat := t.cap - t.count

/-- The entries that children make from a stack's top on: the offset in the slice, and the pointer word under the distance. -/
def TStack.entries (t : TStack) (ps : List (W32 × W32)) : List (Nat × Nat) :=
  (ps.zipIdx t.count).map fun e => (t.base + 8 * e.2, e.1.1.toNat + 2 ^ 32 * e.1.2.toNat)

/-- The pushes of a lane: of the children that are no miss, as many as there is room for make entries, and the others are lost or
an overflow (13 R303). -/
theorem push_eq (drop : Bool) (ps : List (W32 × W32)) (t : TStack) :
    t.push drop ps =
      ({ t with count := t.count + min t.room (ps.filter isChild).length
                lost := t.lost || (drop && decide (t.room < (ps.filter isChild).length)) },
       t.entries ((ps.filter isChild).take t.room), !drop && decide (t.room < (ps.filter isChild).length)) := by
  induction ps generalizing t with
  | nil => simp [TStack.push, TStack.entries]
  | cons p ps ih =>
    obtain ⟨p, d⟩ := p
    by_cases hmiss : p.toNat / 2 ^ 30 = 3
    · have hchild : isChild (p, d) = false := bne_eq_false_iff_eq.2 hmiss
      rw [TStack.push, if_pos hmiss, ih, List.filter_cons_of_neg (by simp [hchild])]
    · have hchild : isChild (p, d) = true := bne_iff_ne.2 hmiss
      rw [TStack.push, if_neg hmiss, List.filter_cons_of_pos hchild]
      by_cases hroom : t.count < t.cap
      · obtain ⟨r, hr⟩ : ∃ r, t.room = r + 1 := Nat.exists_eq_add_one.2 (Nat.sub_pos_of_lt hroom)
        have hr' : TStack.room { t with count := t.count + 1 } = r := by
          simp only [TStack.room] at hr ⊢
          omega
        rw [if_pos hroom]
        simp only [ih, hr, hr', List.length_cons, List.take_succ_cons, Nat.add_lt_add_iff_right, Nat.add_min_add_right]
        simp [TStack.entries, Nat.add_assoc, Nat.add_comm]
      · have hr : t.room = 0 := Nat.sub_eq_zero_of_le (Nat.le_of_not_lt hroom)
        have hr' : TStack.room { t with lost := t.lost || drop } = 0 := hr
        rw [if_neg hroom]
        simp only [ih, hr, hr', List.take_zero, List.length_cons]
        cases drop <;> simp [TStack.entries]

/-- The children of a lane that are no miss, the last first (13 R303). -/
def State.childrenOf (s : State) (f : RF) (l : Nat) : List (W32 × W32) :=
  ((s.rdWords f.b (f.sub.val % 4 + 1) l).zip (s.rdWords f.c (f.sub.val % 4 + 1) l)).reverse.filter isChild

/-- Two lists of one length read side by side are their pairs. -/
theorem map_getD_eq_zip {α : Type} {xs ys : List α} {n : Nat} (hx : xs.length = n) (hy : ys.length = n) (d : α) :
    (List.range n).map (fun j => ((xs[j]?).getD d, (ys[j]?).getD d)) = xs.zip ys := by
  refine List.ext_getElem (by simp [hx, hy]) fun j h _ => ?_
  have hj : j < n := by simpa using h
  simp [hx, hy, hj]

/-- A lane's pushes in TSPUSH (13 R303). -/
def State.pushRun (s : State) (f : RF) (l : Nat) : TStack × List (Nat × Nat) × Bool :=
  (s.tstack f.dst l).push (f.sub.val / 4 % 2 == 1)
    (((List.range (f.sub.val % 4 + 1)).map fun j => (((s.rdWords f.b (f.sub.val % 4 + 1) l)[j]?).getD 0,
      ((s.rdWords f.c (f.sub.val % 4 + 1) l)[j]?).getD 0)).reverse)

/-- Has a lane more children than room? -/
def State.overflows (s : State) (f : RF) (l : Nat) : Bool := decide ((s.tstack f.dst l).room < (s.childrenOf f l).length)

/-- A lane's stack after TSPUSH, where what it has no room for is lost (13 R303). -/
def State.pushed (s : State) (f : RF) (l : Nat) : TStack :=
  { s.tstack f.dst l with
      count := (s.tstack f.dst l).count + min (s.tstack f.dst l).room (s.childrenOf f l).length
      lost := (s.tstack f.dst l).lost || s.overflows f l }

theorem pushRun_eq (s : State) (f : RF) (l : Nat) :
    s.pushRun f l =
      ({ s.pushed f l with lost := (s.tstack f.dst l).lost || (f.sub.val / 4 % 2 == 1 && s.overflows f l) },
       (s.tstack f.dst l).entries ((s.childrenOf f l).take (s.tstack f.dst l).room),
       !(f.sub.val / 4 % 2 == 1) && s.overflows f l) := by
  have hc : 0 < f.sub.val % 4 + 1 := Nat.succ_pos _
  rw [State.pushRun, map_getD_eq_zip (length_rdWords s f.b hc l) (length_rdWords s f.c hc l), push_eq]
  rfl

/-- The pieces of the store that TSPUSH makes: the entries of each lane, at their places in the lane's slice (13 R303). -/
def State.pushPieces (s : State) (f : RF) : List Piece :=
  (s.active false).flatMap fun l => (((s.childrenOf f l).take (s.tstack f.dst l).room).zipIdx).map fun e =>
    Piece.fresh l e.2 (s.sliceAddr s.cw ((s.tstack f.dst l).base + 8 * ((s.tstack f.dst l).count + e.2)) l)
      (e.1.1.toNat + 2 ^ 32 * e.1.2.toNat)

theorem entries_zipIdx {α : Type} (t : TStack) (ps : List (W32 × W32)) (g : (Nat × Nat) × Nat → α) :
    (t.entries ps).zipIdx.map g =
      ps.zipIdx.map fun e => g ((t.base + 8 * (t.count + e.2), e.1.1.toNat + 2 ^ 32 * e.1.2.toNat), e.2) := by
  refine List.ext_getElem (by simp [TStack.entries]) fun j _ _ => ?_
  simp [TStack.entries]

/-- A lane with a malformed state stops TSPUSH before any push (13 R301, R303). -/
theorem tspush_malformed {s : State} {f : RF} (h : ∃ l ∈ s.active false, (s.tstack f.dst l).malformed s.lrec.privbytes = true) :
    s.tspush f = s.trapHere (dataRec cDescriptor (toField f.dst)) := by
  rw [State.tspush]
  exact if_pos (List.any_eq_true.2 h)

/-- TSPUSH of sound states, over the pushes of its lanes (13 R303). -/
theorem tspush_sound {s : State} {f : RF} (h : ∀ l ∈ s.active false, (s.tstack f.dst l).malformed s.lrec.privbytes = false) :
    (∀ l rest, (s.active false).filter (fun l => (s.pushRun f l).2.2) = l :: rest →
      s.tspush f = s.trapHere ⟨cRange, (s.tstack f.dst l).base + 8 * (s.tstack f.dst l).cap, 0, maskOfList (l :: rest)⟩) ∧
    ((s.active false).filter (fun l => (s.pushRun f l).2.2) = [] →
      ∀ t pieces, t = s.wrLanes64 f.dst (s.active false) (fun l => (s.pushRun f l).1.pair) →
        pieces = (s.active false).flatMap (fun l => (s.pushRun f l).2.1.zipIdx.map fun e =>
          Piece.fresh l e.2 (s.sliceAddr s.cw e.1.1 l) e.1.2) →
        s.tspush f = if pieces.isEmpty then t.slotDone else (t.addAcc (.store 8) 0 0 0 0 s.lrec.asid false [] [] pieces).slotDone) := by
  have hsound : ¬((s.active false).any fun l => (s.tstack f.dst l).malformed s.lrec.privbytes) = true := by simpa using h
  refine ⟨fun l rest hspill => ?_, ?_⟩
  · unfold State.pushRun at hspill
    rw [State.tspush]
    dsimp only
    rw [if_neg hsound, hspill]
  · rintro hspill _ _ rfl rfl
    unfold State.pushRun at hspill
    rw [State.tspush]
    dsimp only
    rw [if_neg hsound, hspill]
    rfl

/-- With DROP, or where every lane has room, no push overflows: the entries are stored (13 R303). -/
theorem tspush_fits {s : State} {f : RF} (h : ∀ l ∈ s.active false, (s.tstack f.dst l).malformed s.lrec.privbytes = false)
    (hfit : f.sub.val / 4 % 2 = 1 ∨ ∀ l ∈ s.active false, s.overflows f l = false) {t : State}
    (ht : t = s.wrLanes64 f.dst (s.active false) fun l => (s.pushed f l).pair) :
    s.tspush f = if (s.pushPieces f).isEmpty then t.slotDone
      else (t.addAcc (.store 8) 0 0 0 0 s.lrec.asid false [] [] (s.pushPieces f)).slotDone := by
  have hlost : ∀ l ∈ s.active false, (f.sub.val / 4 % 2 == 1 && s.overflows f l) = s.overflows f l := fun l hl => by
    rcases hfit with hdrop | hroom
    · simp [hdrop]
    · simp [hroom l hl]
  refine (tspush_sound h).2 ?_ t (s.pushPieces f) ?_ ?_
  · refine List.filter_eq_nil_iff.2 fun l hl => ?_
    rw [pushRun_eq]
    rcases hfit with hdrop | hroom
    · simp [hdrop]
    · simp [hroom l hl]
  · rw [ht]
    refine wrLanes64_congr fun l hl => ?_
    rw [pushRun_eq, hlost l hl]
    rfl
  · simp only [pushRun_eq, entries_zipIdx]
    rfl

/-- A lane with a malformed state stops TSPOP (13 R301, R304). -/
theorem tspop_malformed {s : State} {f : RF} (h : ∃ l ∈ s.active false, (s.tstack f.a l).malformed s.lrec.privbytes = true) :
    s.tspop f = s.trapHere (dataRec cDescriptor (toField f.a)) := by
  rw [State.tspop]
  exact if_pos (List.any_eq_true.2 h)

/-- The state in which every active lane's stack counts one entry less (13 R304). -/
def State.popped (s : State) (f : RF) : State :=
  s.wrLanes64 f.a (s.active false) fun l => TStack.pair { s.tstack f.a l with count := (s.tstack f.a l).count - 1 }

/-- The pieces of the load that TSPOP makes: the top entry of a lane, and for an empty stack a miss (13 R304). -/
def State.popPieces (s : State) (f : RF) : List Piece :=
  (s.active false).map fun l =>
    if (s.tstack f.a l).count = 0 then { Piece.fresh l 0 0 0 with done := true, result := [0xFFFFFFFF#32, 0x7F800000#32] }
    else Piece.fresh l 0 (s.sliceAddr s.cw ((s.tstack f.a l).base + 8 * ((s.tstack f.a l).count - 1)) l) 0

/-- TSPOP of sound states (13 R304). -/
theorem tspop_sound {s : State} {f : RF} (h : ∀ l ∈ s.active false, (s.tstack f.a l).malformed s.lrec.privbytes = false) :
    ((∀ l ∈ s.active false, (s.tstack f.a l).count = 0) →
      s.tspop f = ((s.popped f).wrLanes64 f.dst (s.active false) fun _ => stackMiss).slotDone) ∧
    ((∃ l ∈ s.active false, (s.tstack f.a l).count ≠ 0) →
      s.tspop f = ((s.popped f).addAcc (.load 8 false) 0 0 0 0 s.lrec.asid false (s.regsOf f.dst 2) [] (s.popPieces f)).slotDone) := by
  have hsound : ¬((s.active false).any fun l => (s.tstack f.a l).malformed s.lrec.privbytes) = true := by simpa using h
  refine ⟨fun hempty => ?_, fun ⟨l, hl, hcount⟩ => ?_⟩
  · rw [State.tspop]
    dsimp only
    rw [if_neg hsound]
    by_cases hlanes : s.active false = []
    · rw [if_pos (List.isEmpty_iff.2 hlanes), State.popped, hlanes, wrLanes64_nil, wrLanes64_nil]
    · rw [if_neg (by simpa using hlanes), if_pos (by simpa using hempty)]
      rfl
  · rw [State.tspop]
    dsimp only
    rw [if_neg hsound, if_neg (by simpa using List.ne_nil_of_mem hl), if_neg (by simpa using ⟨l, hl, hcount⟩)]
    rfl

/-- Settles O44: TSINIT by its checks in order, TSPUSH and TSPOP by the sound and the malformed states. -/
theorem traversalStacks : Obligations.TraversalStacks := by
  rintro f s _ _ _ _ _ rfl rfl rfl rfl rfl
  refine ⟨fun halign hlo hhi hroom => completes_of_exec (wrLanes64_pa ..) ?_, fun halign => ?_, fun halign hn => ?_,
    fun halign hlo hhi hroom => ?_, fun hmal => ?_, fun hmal => ?_, fun hsound => ⟨fun l rest hdrop hover => ?_, ?_⟩, ?_⟩
  · rw [exec_tsinit, execTsinit, if_neg (by simpa using halign), if_neg (by simp; omega), if_neg (by omega),
      show 2 ^ 32 * ((s.rdS f.b).toNat * 65536) = 2 ^ 48 * (s.rdS f.b).toNat by omega]
  · rw [exec_tsinit, execTsinit, if_pos halign]
    rfl
  · rw [exec_tsinit, execTsinit, if_neg (by simpa using halign), if_pos (by simp; omega)]
    rfl
  · rw [exec_tsinit, execTsinit, if_neg (by simpa using halign), if_neg (by simp; omega), if_pos hroom]
    rfl
  · rw [exec_tspush, tspush_malformed hmal]
    rfl
  · rw [exec_tspop, tspop_malformed hmal]
    rfl
  · have hspill : (s.active false).filter (fun l => (s.pushRun f l).2.2) = l :: rest := by
      simp only [pushRun_eq, hdrop]
      exact hover
    rw [exec_tspush, (tspush_sound hsound).1 l rest hspill]
    rfl
  · rintro hfit _ _ rfl rfl
    have hpush := tspush_fits hsound (hfit.imp_right fun hroom l hl => decide_eq_false (Nat.not_lt.2 (hroom l hl))) rfl
    refine ⟨fun hnone => completes_of_exec (wrLanes64_pa ..) ?_, fun hsome => ?_⟩
    · rw [exec_tspush, hpush, if_pos (List.isEmpty_iff.2 (show s.pushPieces f = [] from hnone))]
      rfl
    · rw [exec_tspush, hpush, if_neg (mt List.isEmpty_iff.1 (show s.pushPieces f ≠ [] from hsome))]
      exact completes_slotDone s _ (by rw [addAcc_after, wrLanes64_pa])
  · rintro hsound _ rfl
    refine ⟨fun hempty => completes_of_exec ((wrLanes64_pa ..).trans (wrLanes64_pa ..)) ?_, fun hsome => ?_⟩
    · rw [exec_tspop, (tspop_sound hsound).1 hempty]
      rfl
    · rw [exec_tspop, (tspop_sound hsound).2 hsome]
      exact completes_slotDone s _ (by rw [addAcc_after, State.popped, wrLanes64_pa])

/-! ## Paths that park, and slots that a parked path finishes (01 R11; 18 R373) -/

/-- A change of paths that keeps a part of each keeps it of the path in focus. -/
theorem updPath_keeps {β : Type} (p : PathSt → β) (s : State) (uid : Nat) (b : Bool) (f : PathSt → PathSt) (h : ∀ x, p (f x) = p x) :
    p (s.updPath uid b f).cw.pa = p s.cw.pa := by
  simp only [State.updPath, State.modWave, Wave.onPath]
  split
  · dsimp only
    split
    · exact h _
    · rfl
  · rfl

theorem refillOne_phase (s : State) (core part : Nat) : (s.refillOne core part).cw.pa.phase = s.cw.pa.phase := by
  unfold State.refillOne
  split
  · rfl
  · dsimp only
    split
    · rfl
    · refine (updPath_keeps PathSt.phase _ _ _ PathSt.enter fun _ => rfl).trans ?_
      refine foldl_keeps (fun s : State => s.cw.pa.phase) _ (fun s y => ?_) _ _
      exact updPath_keeps PathSt.phase _ _ _ _ fun _ => rfl

/-- A refill changes no phase (18 R376). -/
theorem refillOf_phase (s : State) (w : Wave) : (s.refillOf w).cw.pa.phase = s.cw.pa.phase := by
  unfold State.refillOf State.refill
  split
  · exact foldl_keeps (fun s : State => s.cw.pa.phase) _ (fun s _ => refillOne_phase s _ _) _ _
  · rfl

/-- A change of the path in focus, named by its wave and side. -/
theorem updPath_focus (s : State) (f : PathSt → PathSt) : s.updPath s.cw.uid s.cw.second f = s.onPa f := by
  simp [State.updPath, State.modWave, Wave.onPath, State.onPa, State.onWave]

theorem focus_of_eq {s : State} {uid : Nat} {second : Bool} (huid : s.cw.uid = uid) (hside : s.cw.second = second) :
    s.focus uid second = s := by
  subst huid hside
  simp [State.focus, Wave.face]

theorem waveOf_of_eq {s : State} {uid : Nat} (huid : s.cw.uid = uid) : s.waveOf uid = some s.cw := by simp [State.waveOf, huid]

/-- A park for another reason than a page miss leaves the path in focus parked for it. -/
theorem park_phase (s : State) (why : Park) (h : why.onMiss = false) : (s.park why).cw.pa.phase = .parked why := by
  have hwave : (s.onPa fun p => { p with phase := .parked why, elig := false }).waveOf s.cw.uid = some _ := waveOf_of_eq rfl
  rw [State.park, State.parkPath, updPath_focus, h, hwave]
  exact refillOf_phase _ _

/-- An instruction that parks changes nothing else instructions see. -/
theorem parks_of_exec {s t u : State} {i : Instr} {why : Park} (hmiss : why.onMiss = false) (harch : t.arch = u.arch)
    (hexec : exec i s = .next (t.park why)) : ∃ v, exec i s = .next v ∧ v.arch = u.arch ∧ v.cw.pa.phase = .parked why :=
  ⟨_, hexec, (park_arch t why hmiss).trans harch, park_phase t why hmiss⟩

/-- The path in focus becomes ready without a change of focus. -/
theorem makeReady_focus (s : State) {t : State} (ht : t = (s.onPa fun p => { p with readyAt := s.clk, elig := false }).readyNow) :
    s.makeReady s.cw.uid s.cw.second = t.refillOf t.cw := by
  have huid : t.cw.uid = s.cw.uid := by rw [ht]; rfl
  have hside : t.cw.second = s.cw.second := by rw [ht]; rfl
  have hfocus : (s.onPa fun p => { p with readyAt := s.clk, elig := false }).focus s.cw.uid s.cw.second = s.onPa _ :=
    focus_of_eq rfl rfl
  rw [State.makeReady, updPath_focus, hfocus, ← ht, focus_of_eq huid hside, waveOf_of_eq huid]

/-- A path that becomes ready changes nothing instructions see, nor where it stands. -/
theorem makeReady_focus_arch (s : State) : (s.makeReady s.cw.uid s.cw.second).arch = s.arch := by
  rw [makeReady_focus s rfl, refillOf_arch]
  exact (onPa_arch _ _ fun _ => rfl).trans (onPa_arch s _ fun _ => rfl)

theorem makeReady_focus_spot (s : State) : (s.makeReady s.cw.uid s.cw.second).cw.pa.spot = s.cw.pa.spot := by
  rw [makeReady_focus s rfl, refillOf_spot]
  rfl

/-- A parked slot that is complete changes what its effect changed, and its path stands after the slot. -/
theorem finishSlot_arch (t : State) : t.finishSlot.arch = t.arch :=
  ite_keeps State.arch (slotDone_arch t) ((makeReady_focus_arch _).trans (slotDone_arch t))

theorem finishSlot_spot {s t : State} (h : t.cw.pa = s.cw.pa) : t.finishSlot.cw.pa.spot = s.cw.pa.after :=
  ite_keeps (fun u : State => u.cw.pa.spot) (h ▸ slotDone_spot t) ((makeReady_focus_spot _).trans (h ▸ slotDone_spot t))

/-! ## Moots and gangs (13 R328-R330; 17 R356; 18 R370, R371) -/

theorem exec_moota (f : MootaF) (s : State) : exec (.moota f) s = execMoota f s := rfl
theorem exec_mootd (s : State) : exec .mootd s = execMootd s := rfl
theorem exec_mootq (f : MootqF) (s : State) : exec (.mootq f) s = execMootq f s := rfl
theorem exec_mootaTimeout (uid : Nat) (second : Bool) (s : State) :
    exec (.mootaTimeout uid second) s = execMootaTimeout uid second s := rfl
theorem exec_gangAttachComplete (gid : Nat) (s : State) : exec (.gangAttachComplete gid) s = execGangAttachComplete gid s := rfl
theorem exec_gangTurnGrant (gid : Nat) (s : State) : exec (.gangTurnGrant gid) s = execGangTurnGrant gid s := rfl
theorem exec_gangStart (gid : Nat) (s : State) : exec (.gangStart gid) s = execGangStart gid s := rfl
theorem exec_gangAbandon (gid : Nat) (s : State) : exec (.gangAbandon gid) s = execGangAbandon gid s := rfl

@[simp] theorem mootRelease_cw (s : State) (b : Block) : (s.mootRelease b).cw = s.cw :=
  foldl_keeps State.cw _ (fun t _ => releaseAt_cw t ..) _ s

/-- The result of a MOOTA leaves the path in focus where it is. -/
@[simp] theorem mootResult_pa (s : State) (dst : Operand) : (s.mootResult dst).cw.pa = s.cw.pa := by
  unfold State.mootResult
  split
  · refine ite_keeps (fun t : State => t.cw.pa) ?_ (wrS_pa ..)
    rw [wrS_pa, takeOrder_cw, foldl_keeps State.cw _ (fun t _ => acquireAt_cw t ..), foldl_keeps State.cw _ mootRelease_cw]
  · rfl

@[simp] theorem withdraw_cw (s : State) : s.withdraw.cw = s.cw := by
  unfold State.withdraw
  split <;> rfl

/-- The attach and an arrival change the blocks, the gangs and the order kept of writers, and so neither the wave nor the tick. -/
theorem attachAll_keeps {β : Type} (p : State → β) (hp : ∀ s blocks gangs, p { s with blocks := blocks, gangs := gangs } = p s)
    (s : State) (gid : Nat) : p (s.attachAll gid) = p s :=
  ite_keeps p rfl ((foldl_keeps p _ (fun t _ => hp t _ t.gangs) _ _).trans (hp s s.blocks _))

theorem mootArrive_keeps {β : Type} (p : State → β) (hp : ∀ s blocks gangs, p { s with blocks := blocks, gangs := gangs } = p s)
    (hord : ∀ s f, p (State.modOrder s f) = p s) (s : State) (b : Block) (r : Nat) : p (s.mootArrive b r) = p s :=
  ite_keeps p rfl ((hp (s.mootPut b) _ _).trans (foldl_keeps p _ (fun t _ => hord t _) _ s))

@[simp] theorem attachAll_cw (s : State) (gid : Nat) : (s.attachAll gid).cw = s.cw := attachAll_keeps State.cw (fun _ _ _ => rfl) s gid
@[simp] theorem attachAll_ref (s : State) (gid : Nat) : (s.attachAll gid).ref = s.ref := attachAll_keeps State.ref (fun _ _ _ => rfl) s gid
@[simp] theorem mootArrive_cw (s : State) (b : Block) (r : Nat) : (s.mootArrive b r).cw = s.cw :=
  mootArrive_keeps State.cw (fun _ _ _ => rfl) (fun _ _ => rfl) s b r
@[simp] theorem mootArrive_ref (s : State) (b : Block) (r : Nat) : (s.mootArrive b r).ref = s.ref :=
  mootArrive_keeps State.ref (fun _ _ _ => rfl) (fun _ _ => rfl) s b r

/-- With nothing outstanding no access holds an attach or a detach up (13 R329; 17 R356). -/
theorem mootOver_of_accs_nil {s : State} (h : s.accs = []) (gid : Nat) : s.mootOver gid = true := by
  simp [State.mootOver, State.mootReleased, h]

theorem blockAccs_of_accs_nil {s : State} (h : s.accs = []) (block : Nat) (sel : Access → Bool) : s.blockAccs block sel = [] := by
  simp [State.blockAccs, h]

/-- A MOOTA that may end gives its result, and one that may not waits (13 R328; 17 R356). -/
def State.mootEnd (s : State) (f : MootaF) (gid : Nat) : State :=
  if s.mootOver gid then (s.mootResult f.dst).slotDone else s.park (.moota f.dst s.ref f.timeout.toNat)

/-- MOOTA of a member that is attached, and of one that arrives (13 R328). -/
theorem moota_attached {f : MootaF} {s : State} {r : Nat} {b : Block} (hr : s.myRank = some r) (hb : s.blk = some b)
    (hatt : b.attached = true) : exec (.moota f) s = .next (s.mootEnd f s.lrec.gangKey) := by
  simp only [exec_moota, execMoota, hr, hb, if_pos hatt]
  rfl

theorem moota_arrives {f : MootaF} {s t : State} {r : Nat} {b : Block} (hr : s.myRank = some r) (hb : s.blk = some b)
    (hatt : b.attached = false) (ht : s.mootArrive b r = t) :
    exec (.moota f) s = .next
      (if (t.gangOf s.lrec.gangKey).ready s.lrec.gangSize then (t.attachAll s.lrec.gangKey).mootEnd f s.lrec.gangKey
        else if f.timeout = 0 then (t.withdraw.mootResult f.dst).slotDone else t.park (.moota f.dst s.ref f.timeout.toNat)) := by
  subst ht
  simp only [exec_moota, execMoota, hr, hb, hatt, Bool.false_eq_true, if_false, mootArrive_ref]
  rfl

/-- Where MOOTA's gang is complete, or it was attached before (13 R328; 17 R356). -/
theorem mootEnd_cases {f : MootaF} {s t : State} {gid : Nat} (hcw : t.cw = s.cw) (href : t.ref = s.ref)
    (hexec : exec (.moota f) s = .next (t.mootEnd f gid)) :
    (t.mootOver gid = true → Completes s (exec (.moota f) s) (t.mootResult f.dst)) ∧
    (t.mootOver gid = false → ∃ u, exec (.moota f) s = .next u ∧ u.arch = t.arch ∧
      u.cw.pa.phase = .parked (.moota f.dst s.ref f.timeout.toNat)) := by
  refine ⟨fun hover => completes_of_exec (by rw [mootResult_pa, hcw]) (hexec.trans ?_), fun hover => ?_⟩
  · rw [State.mootEnd, if_pos hover]
  · refine parks_of_exec rfl rfl (hexec.trans ?_)
    rw [State.mootEnd, if_neg (by simp [hover]), href]

/-- MOOTD with nothing outstanding releases at GANG scope, and detaches a member that is attached (13 R329). -/
theorem mootd_now {s : State} (haccs : s.accs = []) :
    (∀ r b, s.myRank = some r → s.blk = some b → b.attached = true → b.detached = false → Completes s (exec .mootd s)
      (((s.releaseAt s.cw.core s.cw.launch 4 (s.multiOf s.cw.block)).modGang s.lrec.gangKey fun g =>
        { g with detached := insertNat r g.detached }).modBlock b.id fun b => { b with detached := true })) ∧
    (s.blk = none → Completes s (exec .mootd s) (s.releaseAt s.cw.core s.cw.launch 4 (s.multiOf s.cw.block))) := by
  refine ⟨fun r b hr hb hatt hdet => completes_of_exec (congrArg Wave.pa (releaseAt_cw ..)) ?_,
    fun hb => completes_of_exec (congrArg Wave.pa (releaseAt_cw ..)) ?_⟩
  · simp [exec_mootd, execMootd, blockAccs_of_accs_nil haccs, hr, hb, hatt, hdet]
  · simp [exec_mootd, execMootd, blockAccs_of_accs_nil haccs, hb]

/-- MOOTQ of a member writes its own word, or 32 ranks of a set of the gang (13 R330). -/
theorem completes_mootq {q : MootqF} {s : State} {r : Nat} (hr : s.myRank = some r) :
    (q.sel.val = 0 → Completes s (exec (.mootq q) s) (s.wrS q.dst (mootWord r s.lrec.gangSize))) ∧
    (∀ k l, 1 ≤ q.sel.val → k = (s.rdS q.a).toNat → [(s.gangOf s.lrec.gangKey).attached, (s.gangOf s.lrec.gangKey).departed,
        (s.gangOf s.lrec.gangKey).detached][q.sel.val - 1]? = some l →
      Completes s (exec (.mootq q) s) (s.wrS q.dst (maskOf fun j =>
        decide (32 * k + j < s.lrec.gangSize) && l.contains (32 * k + j)))) := by
  refine ⟨fun hsel => completes_of_exec (wrS_pa ..) ?_, ?_⟩
  · simp only [exec_mootq, execMootq, hr, hsel]
  · rintro _ l hpos rfl hl
    obtain ⟨hlt, -⟩ := List.getElem?_eq_some_iff.1 hl
    have hsel : q.sel.val = 1 ∨ q.sel.val = 2 ∨ q.sel.val = 3 := by
      simp only [List.length_cons, List.length_nil] at hlt
      omega
    rcases hsel with hsel | hsel | hsel
    all_goals
      rw [hsel] at hl
      cases hl
      refine completes_of_exec (wrS_pa ..) ?_
      simp only [exec_mootq, execMootq, hr, hsel]

/-- A MOOTA that has waited its time-out, in a gang that is not complete, withdraws (13 R328). -/
theorem moota_times_out {s : State} {d : Operand} {since n : Nat} (hphase : s.cw.pa.phase = .parked (.moota d since n))
    (hdue : since + n ≤ s.ref) (hn : n ≠ 0xFFFFFFFF) (hready : (s.gangOf s.lrec.gangKey).ready s.lrec.gangSize = false) :
    exec (.mootaTimeout s.cw.uid s.cw.second) s = .next (s.withdraw.mootResult d).finishSlot := by
  have hmoot : (s.waveOf s.cw.uid).bind (fun w => (w.path s.cw.second).mooting) = some (d, since, n) := by
    simp [State.waveOf, Wave.path, PathSt.mooting, hphase]
  have hexp : expired s.ref since n = true := by simp [expired, hn, hdue]
  rw [exec_mootaTimeout, execMootaTimeout, hmoot]
  simp [focus_of_eq (s := s) rfl rfl, hexp, hready]

/-- The grant, the start and the abandonment of a gang's turn (18 R371). -/
theorem gangTurn_events {s : State} {i : Nat} {g : Gang} (hg : g = s.gangOf i) (hpkgs : 0 < g.pkgs) :
    (g.asked.length = g.pkgs → g.reserved.length < g.pkgs →
      (∀ x ∈ s.gangs, x.2.turn = false ∧ (x.2 = g ∨ x.2.asked.length ≠ x.2.pkgs)) →
      exec (.gangTurnGrant i) s = .next (s.modGang i fun g => { g with turn := true })) ∧
    (g.turn = true → s.gangLaunches i ≠ [] → (∀ l ∈ s.gangLaunches i, l.placed = l.rec_.blocks) →
      (∀ k, k < g.pkgs → k ∈ g.reserved ∨ ∃ l ∈ s.gangLaunches i, l.rec_.prank = k) →
      exec (.gangStart i) s = .next (((s.gangLaunches i).flatMap fun l =>
          (s.blocks.map (·.2)).filter fun b => b.launch == l.id && b.phase == .placed).foldl (fun (t : State) b => t.startIn b)
        (s.modGang i fun g => { g with turn := false, reserved := List.range g.pkgs }))) ∧
    (g.asked ≠ [] → g.asked.length < g.pkgs → g.firstAsk + 5000000 ≤ s.ref →
      exec (.gangAbandon i) s = .next (s.failGang i 7)) := by
  subst hg
  refine ⟨fun hasked hres hothers => ?_, fun hturn hls hplaced hranks => ?_, fun hasked hlt hdue => ?_⟩
  · rw [exec_gangTurnGrant, execGangTurnGrant]
    refine congrArg _ (if_pos ?_)
    rw [Bool.and_eq_true, Bool.not_eq_true', List.any_eq_false]
    refine ⟨by simp [hpkgs, hasked, hres], fun x hx => ?_⟩
    obtain ⟨hturn, hsame | hnot⟩ := hothers x hx
    · rw [hturn, hsame]
      simp
    · simp [hturn, hnot]
  · rw [exec_gangStart, execGangStart]
    refine congrArg _ (if_pos ?_)
    simpa [hturn, hls] using ⟨hplaced, hranks⟩
  · rw [exec_gangAbandon, execGangAbandon]
    exact congrArg _ (if_pos (by simp [hpkgs, hlt, hasked, hdue]))

/-- Settles O55: MOOTA by what its block has done before, the others by their one condition each. -/
theorem mootsAndGangs : Obligations.MootsAndGangs := by
  rintro f q s _ rfl
  refine ⟨fun hr => ⟨?_, ?_⟩, fun u hu => mootOver_of_accs_nil hu _, fun r b hr hb => ⟨fun dst => ?_, fun hatt => ?_,
    fun hatt harr => ?_, fun haccs => (mootd_now haccs).1 r b hr hb, (completes_mootq hr).1, ?_⟩,
    fun haccs => (mootd_now haccs).2, fun d since n hphase hdue hn hready => ?_, fun g b hb hready => ⟨fun hover => ?_, fun hover => ?_⟩,
    fun i g hg hpkgs => gangTurn_events hg hpkgs⟩
  · simp only [exec_moota, execMoota, hr]
    rfl
  · simp only [exec_mootq, execMootq, hr]
    rfl
  · simp only [State.mootResult, hr, hb]
  · exact mootEnd_cases rfl rfl (moota_attached hr hb hatt)
  · intro t ht
    have harrive : s.mootArrive b r = t := by rw [ht, State.mootArrive, if_neg (by simp [harr])]
    have hcw : t.cw = s.cw := harrive ▸ mootArrive_cw s b r
    have href : t.ref = s.ref := harrive ▸ mootArrive_ref s b r
    have hexec := moota_arrives (f := f) hr hb hatt harrive
    refine ⟨fun hready => mootEnd_cases ((attachAll_cw ..).trans hcw) ((attachAll_ref ..).trans href) (hexec.trans ?_),
      fun hready htime => completes_of_exec (by rw [mootResult_pa, withdraw_cw, hcw]) (hexec.trans ?_),
      fun hready htime => parks_of_exec rfl rfl (hexec.trans ?_)⟩
    · rw [if_pos hready]
    · rw [if_neg (by simp [hready]), if_pos htime]
    · rw [if_neg (by simp [hready]), if_neg htime]
  · rintro _ rfl
    exact (completes_mootq hr).2
  · exact ⟨_, moota_times_out hphase hdue hn hready, finishSlot_arch _, finishSlot_spot (by rw [mootResult_pa, withdraw_cw])⟩
  · simp only [exec_gangAttachComplete, execGangAttachComplete, hb, hready, hover, if_true]
  · simp only [exec_gangAttachComplete, execGangAttachComplete, hb, hready, hover, if_true, Bool.false_eq_true, if_false]

/-! ## Time, frames and snapshots (13 R331-R333; 16 R347-R352; 20 R429) -/

theorem exec_ptprd (f : RF) (s : State) : exec (.ptprd f) s = execPtprd f s := rfl
theorem exec_framec (c : FramecF) (s : State) : exec (.framec c) s = execFramec c s := rfl
theorem exec_snap (p : SnapF) (s : State) : exec (.snap p) s = execSnap p s := rfl
theorem exec_snapgo (tag : Nat) (s : State) : exec (.snapgo tag) s = execSnapgo tag s := rfl
theorem exec_snapBusyClear (s : State) : exec .snapBusyClear s = execSnapBusyClear s := rfl
theorem exec_streamEnable (n : Nat) (s : State) : exec (.streamEnable n) s = execStreamEnable n s := rfl
theorem exec_ptpMessageReceive (d : Int) (s : State) : exec (.ptpMessageReceive d) s = execPtpMessageReceive d s := rfl

/-- PTPRD's status word holds its three bits (13 R331). -/
theorem ptpStat_eq (s : State) (base : Nat) : s.ptpStat base = BitVec.ofNat 32
    ((if s.ptpLocked then 1 else 0) + (if s.ptpHoldover then 2 else 0) + (if s.ptpSteps ≠ base then 4 else 0)) := by
  have hone : ∀ (b : Bool) (k : Nat), k * b.toNat = if b then k else 0 := fun b k => by cases b <;> simp
  have hstepped : 4 * (s.ptpSteps != base).toNat = if s.ptpSteps ≠ base then 4 else 0 := by
    rw [hone]
    simp only [bne_iff_ne]
  rw [State.ptpStat, hstepped, hone, ← Nat.one_mul s.ptpLocked.toNat, hone]

@[simp] theorem stream_setStream_self (s : State) (n : Nat) (x : Stream) : (s.setStream n x).stream n = x := getD_set_self ..

/-- A release changes no stream. -/
@[simp] theorem releaseAt_stream (s : State) (core launch scope : Nat) (multi : Bool) (n : Nat) :
    (s.releaseAt core launch scope multi).stream n = s.stream n :=
  congrArg (fun x => SMap.getD x n Stream.reset)
    (show (s.releaseAt core launch scope multi).ctl.streams = s.ctl.streams by rw [releaseAt_ctl])

/-- With nothing outstanding a path waits for no access. -/
theorem wait_nil {s : State} (haccs : s.accs = []) : (!s.cw.pa.waited && !(s.unsettled fun a => a.kind != .joinSub).isEmpty) = false := by
  simp [State.unsettled, haccs]

/-- FRAMEC after the deadline step of its tick waits for the next one (16 R351). -/
theorem framec_after_step {c : FramecF} {s : State} (haccs : s.accs = []) (hen : (s.stream (s.rdS c.stream).toNat).en = true)
    (hstep : (s.stream (s.rdS c.stream).toNat).stepAt = some s.ref) : exec (.framec c) s = .next (s.park (.tick (s.ref + 1))) := by
  simp [exec_framec, execFramec, wait_nil haccs, hen, hstep]

/-- FRAMEC's commit: its result is written, and where it is 0 or 1 the stream changes (13 R332; 16 R351). -/
theorem completes_framec {c : FramecF} {s rel : State} {n : Nat} {r : Stream × Nat} (hn : n = (s.rdS c.stream).toNat)
    (hrel : rel = s.releaseAt s.cw.core s.cw.launch 5 (s.multiOf s.cw.block)) (haccs : s.accs = [])
    (hstep : (s.stream n).en = true → (s.stream n).stepAt ≠ some s.ref) (hr : (s.stream n).commit (s.rdS c.seq).toNat = r) :
    (16 ≤ n → Completes s (exec (.framec c) s) (rel.wrS c.dst 3)) ∧
    (n < 16 → r.2 = 2 ∨ r.2 = 3 → Completes s (exec (.framec c) s) (rel.wrS c.dst (BitVec.ofNat 32 r.2))) ∧
    (n < 16 → r.2 = 0 ∨ r.2 = 1 → Completes s (exec (.framec c) s) ((rel.setStream n r.1).wrS c.dst (BitVec.ofNat 32 r.2))) := by
  subst hn hrel
  have hnow : ¬((s.stream (s.rdS c.stream).toNat).en && (s.stream (s.rdS c.stream).toNat).stepAt == some s.ref) = true := by
    simpa using hstep
  have hexec := exec_framec c s
  rw [execFramec, wait_nil haccs, if_neg (by simp), if_neg hnow] at hexec
  dsimp only at hexec
  rw [releaseAt_stream, hr] at hexec
  refine ⟨fun hn => completes_of_exec (by simp) (hexec.trans ?_), fun hn hr => completes_of_exec (by simp) (hexec.trans ?_),
    fun hn hr => completes_of_exec ((wrS_pa ..).trans (congrArg Wave.pa (releaseAt_cw ..))) (hexec.trans ?_)⟩
  · rw [if_pos hn]
  · rw [if_neg (by omega), if_neg (by simp; omega)]
  · rw [if_neg (by omega), if_pos (by simpa using hr)]

/-- The commit of a sequence to a stream that runs, by how far it lies after the last one and after the next due one (16 R351). -/
theorem commit_cases {x : Stream} {q d a : Nat} (hen : x.en = true) (hd : d = (q + 2 ^ 32 - x.lastseq) % 2 ^ 32)
    (ha : a = (q + 2 ^ 32 - x.nextseq) % 2 ^ 32) :
    (d = 0 ∨ 2 ^ 31 ≤ d → x.commit q = (x, 2)) ∧
    (1 ≤ d → d < 2 ^ 31 →
      (2 ^ 31 ≤ a → x.commit q = ({ x with lastseq := q, src := q, have_ := true, latecnt := (x.latecnt + 1) % 2 ^ 32 }, 1)) ∧
      (a < x.nbuf → a < 2 ^ 31 → x.commit q = ({ x with lastseq := q, pend := insertNat q x.pend }, 0)) ∧
      (x.nbuf ≤ a → a < 2 ^ 31 → x.commit q = ({ x with lastseq := q, spoils := x.spoils ++ [(x.lastseq, q)] }, 0))) := by
  subst hd ha
  have hrun : ¬(!x.en) = true := by simp [hen]
  refine ⟨fun hold => ?_, fun hnew hnear => ⟨fun hlate => ?_, fun hbuf hahead => ?_, fun hbuf hahead => ?_⟩⟩
  · rw [Stream.commit, if_neg hrun, if_pos (by simpa using hold)]
  all_goals
    rw [Stream.commit, if_neg hrun, if_neg (by simp; omega)]
  · rw [if_pos hlate]
  · rw [if_neg (by omega), if_neg (by omega)]
  · rw [if_neg (by omega), if_pos hbuf]

/-- A firing latches registers and leaves the wave alone (20 R429). -/
@[simp] theorem snapFire_cw (s : State) (src tag : Nat) : (s.snapFire src tag).cw = s.cw := by
  rw [State.snapFire, foldl_keeps State.cw]
  · simp only [setBar_cw]
  · intro t x
    exact ite_keeps State.cw (setBar_cw ..) rfl

theorem barWord_setBar_self (s : State) (off x : Nat) : (s.setBar off x).barWord off = x % 2 ^ 64 := by
  simp [State.barWord, State.setBar, get?_set_self]

theorem bit_zero_eq (w : Nat) : bit w 0 = decide (w % 2 = 1) := by simp [bit, fld, Bool.beq_eq_decide_eq]

/-- The waiting SNAP of a path whose tick has come (13 R333). -/
theorem snapping_of_phase {s : State} {p : PathSt} {dst : Operand} {tag at_ : Nat} (hphase : p.phase = .parked (.snap dst tag at_))
    (hdue : at_ ≤ s.ref) : s.snapping p = some (dst, tag) := by
  simp [State.snapping, hphase, hdue]

/-- The SNAPs whose tick this is, where the path in focus has the only one. -/
theorem snapPaths_eq {s : State} (hpa : (s.snapping s.cw.pa).isSome = true) (hpb : s.snapping s.cw.pb = none)
    (hwaves : ∀ x ∈ s.waves, s.snapping x.2.pa = none ∧ s.snapping x.2.pb = none) :
    (s.allWaves.flatMap fun w => ([(w.uid, false), (w.uid, true)]).filter fun x => (s.snapping (w.path x.2)).isSome) =
      [(s.cw.uid, s.cw.second)] := by
  have hothers : (s.waves.map (·.2)).flatMap (fun w => ([(w.uid, false), (w.uid, true)]).filter fun x =>
      (s.snapping (w.path x.2)).isSome) = [] := by
    refine List.flatMap_eq_nil_iff.2 fun w hw => List.filter_eq_nil_iff.2 fun x _ => ?_
    obtain ⟨y, hy, rfl⟩ := List.mem_map.1 hw
    obtain ⟨hya, hyb⟩ := hwaves y hy
    unfold Wave.path
    split
    · simp [hya]
    · simp [hyb]
  rw [State.allWaves, List.flatMap_cons, hothers]
  cases hside : s.cw.second <;> simp [Wave.path, hside, hpa, hpb]

/-- The SNAP of one path at its tick: it fires where the trigger is free, and returns 0 where it is not (13 R333; 20 R429). -/
theorem snapTick_eq {s v : State} {dst : Operand} {tag at_ : Nat} (hphase : s.cw.pa.phase = .parked (.snap dst tag at_))
    (hdue : at_ ≤ s.ref) (hpb : s.snapping s.cw.pb = none)
    (hwaves : ∀ x ∈ s.waves, s.snapping x.2.pa = none ∧ s.snapping x.2.pb = none) (hv : v = { s with fresh := s.fresh + 1 }) :
    s.snapTick = (if s.snapBusy || s.snapFired then v.wrS dst 0 else (v.snapFire 3 tag).wrS dst 1).finishSlot := by
  have hpa : s.snapping s.cw.pa = some (dst, tag) := snapping_of_phase hphase hdue
  have hvpa : v.snapping v.cw.pa = some (dst, tag) := by
    subst hv
    exact snapping_of_phase hphase hdue
  have hfocus : v.focus s.cw.uid s.cw.second = v := by
    subst hv
    exact focus_of_eq rfl rfl
  rw [State.snapTick, snapPaths_eq (by simp [hpa]) hpb hwaves]
  dsimp only
  rw [if_neg (by simp), State.draw, ← hv]
  simp only [List.zipIdx_cons, List.zipIdx_nil, List.foldl_cons, List.foldl_nil, List.length_singleton, hfocus, hvpa, Nat.mod_one]
  cases s.snapBusy || s.snapFired <;> rfl

/-- SNAP: 0 where the trigger is off or busy, else a wait of 2 to 4 ticks (13 R333). -/
theorem snap_off {p : SnapF} {s : State} (h : bit (s.barWord barSnap) 0 = false ∨ s.snapBusy = true) :
    Completes s (exec (.snap p) s) (s.wrS p.dst 0) := by
  refine completes_of_exec (wrS_pa ..) ?_
  rw [exec_snap, execSnap, if_pos (by simpa using h)]

theorem snap_waits {p : SnapF} {s : State} (hon : bit (s.barWord barSnap) 0 = true) (hfree : s.snapBusy = false) :
    ∃ t n, exec (.snap p) s = .next t ∧ s.ref + 2 ≤ n ∧ n ≤ s.ref + 4 ∧ t.arch = { s with fresh := s.fresh + 1 }.arch ∧
      t.cw.pa.phase = .parked (.snap p.dst ((s.rdS p.tag).toNat % 65536) n) := by
  have hexec := exec_snap p s
  rw [execSnap, if_neg (by simp [hon, hfree])] at hexec
  obtain ⟨t, ht, harch, hphase⟩ := parks_of_exec rfl rfl hexec
  exact ⟨t, _, ht, by omega, by omega, harch, hphase⟩

/-- Software's clear of BUSY (20 R429). -/
theorem snapBusyClear_busy {s : State} (h : s.snapBusy = true) :
    ∃ t, exec .snapBusyClear s = .next t ∧ t.snapBusy = false ∧ t.cw = s.cw ∧ t.ref = s.ref := by
  refine ⟨_, (exec_snapBusyClear s).trans (congrArg Host.Outcome.next (if_pos h)), ?_, rfl, rfl⟩
  have hodd : s.barWord (barSnap + 0x18) % 2 = 1 := by simpa [State.snapBusy, bit_zero_eq] using h
  have hword : State.snapBusy { (s.setBar (barSnap + 0x18) (s.barWord (barSnap + 0x18) - 1)) with snapClear := s.ref + 1 } =
      bit ((s.setBar (barSnap + 0x18) (s.barWord (barSnap + 0x18) - 1)).barWord (barSnap + 0x18)) 0 := rfl
  rw [hword, barWord_setBar_self, bit_zero_eq]
  simp only [decide_eq_false_iff_not]
  omega

/-- SNAPGO and the PTP firing (20 R429). -/
theorem snapgo_cases (tag : Nat) (s : State) :
    (s.isReady = false → exec (.snapgo tag) s = .next s) ∧
    (s.isReady = true → s.snapFired = false → exec (.snapgo tag) s = .next (if s.snapBusy then s else s.snapFire 1 tag)) ∧
    (s.isReady = true → s.snapFired = true →
      exec (.snapgo tag) s = .next (if fld (s.barWord (barSnap + 0x18)) 1 2 = 2 then s.snapTake tag else s)) := by
  rw [exec_snapgo, execSnapgo]
  refine ⟨fun hready => ?_, fun hready hfired => ?_, fun hready hfired => ?_⟩
  · rw [if_pos (by simp [hready])]
  · rw [if_neg (by simp [hready]), if_neg (by simp [hfired])]
  · rw [if_neg (by simp [hready]), if_pos hfired]

/-- The enable of a stream that is not enabled: the check of its fields, or its start (16 R350). -/
theorem streamEnable_cases {s : State} {n : Nat} {x : Stream} (hx : s.stream n = x) (hn : n < 16) (hen : x.en = false)
    (hready : s.isReady = true) :
    (x.ok = false → exec (.streamEnable n) s = .next (s.setStream n { x with cfgerr := true })) ∧
    (x.ok = true → ∃ t, exec (.streamEnable n) s = .next t ∧ (t.stream n).en = true ∧ (t.stream n).pend = [] ∧
      (t.stream n).pubcnt = 0 ∧ (s.ptp ≤ x.epoch → (t.stream n).nextseq = x.seq0) ∧ t.cw = s.cw ∧ t.hbm = s.hbm) := by
  subst hx
  have hexec : exec (.streamEnable n) s = .next (s.enableStream n) := by
    rw [exec_streamEnable, execStreamEnable, if_neg]
    rw [State.isReady] at hready
    simp [hready]
    omega
  rw [State.enableStream, if_neg (by simp [hen])] at hexec
  refine ⟨fun hok => ?_, fun hok => ⟨_, hexec.trans (congrArg Host.Outcome.next (if_neg (by simp [hok]))), ?_⟩⟩
  · rw [hexec, if_pos (by simp [hok])]
  · rw [stream_setStream_self]
    exact ⟨rfl, rfl, rfl, fun hpast => if_pos hpast, rfl, rfl⟩

/-- The servo steps above its threshold and slews below (16 R347; 20 R432). -/
theorem ptpMessage_cases (d : Int) (s : State) : ∃ t, exec (.ptpMessageReceive d) s = .next t ∧ t.ptpLocked = true ∧
    t.ptpHoldover = false ∧ t.ptpOffset = d ∧ t.ptp = s.ptp ∧ (s.stepThr < d.natAbs → t.ptpStepBy = -d ∧ t.ptpSlew = 0) ∧
    (d.natAbs ≤ s.stepThr → t.ptpStepBy = 0 ∧ t.ptpSlew = -d) := by
  refine ⟨_, exec_ptpMessageReceive d s, ?_⟩
  split
  · next h => exact ⟨rfl, rfl, rfl, rfl, fun _ => ⟨rfl, rfl⟩, fun hle => absurd h (Nat.not_lt.2 hle)⟩
  · next h => exact ⟨rfl, rfl, rfl, rfl, fun hlt => absurd hlt h, fun _ => ⟨rfl, rfl⟩⟩

/-- Settles O58, event by event. -/
theorem timeAndFrames : Obligations.TimeAndFrames := by
  intro f c p s
  refine ⟨fun hsub => completes_of_exec (wr64_pa ..) ?_, fun l hsub hl => completes_of_exec (wrS_pa ..) ?_, ?_,
    fun n rel hn hrel haccs hstep => ⟨(completes_framec hn hrel haccs hstep rfl).1, fun hlt hen => ?_, ?_⟩, snap_off, snap_waits,
    fun dst tag at_ v hphase hdue hpb hwaves hv => ?_, fun tag => snapgo_cases tag s, fun hdue => ?_, fun hdue => ?_,
    snapBusyClear_busy, fun hfree => ?_, rfl, fun _ => rfl, fun n x hx hn hen hready => ?_, fun n hen => ?_,
    fun d => ptpMessage_cases d s, fun hlock => ?_, fun hlock => ?_⟩
  · rw [exec_ptprd, execPtprd, if_pos hsub]
  · rw [exec_ptprd, execPtprd, if_neg hsub, hl, ptpStat_eq]
  · rintro _ rfl haccs hen hstep
    exact parks_of_exec rfl rfl (framec_after_step haccs hen hstep)
  · have hcommit : (s.stream n).commit (s.rdS c.seq).toNat = (s.stream n, 3) := by simp [Stream.commit, hen]
    exact (completes_framec hn hrel haccs hstep hcommit).2.1 hlt (.inr rfl)
  · rintro x q d a hlt rfl hen - - rfl hd ha
    obtain ⟨hold, hnew⟩ := commit_cases hen hd ha
    have hcommit := fun {r : Stream × Nat} => completes_framec (r := r) hn hrel haccs hstep
    refine ⟨fun h => (hcommit (hold h)).2.1 hlt (.inl rfl), fun hpos hnear => ?_⟩
    obtain ⟨hlate, hbuf, hfar⟩ := hnew hpos hnear
    exact ⟨fun h => (hcommit (hlate h)).2.2 hlt (.inr rfl), fun h h' => (hcommit (hbuf h h')).2.2 hlt (.inl rfl),
      fun h h' => (hcommit (hfar h h')).2.2 hlt (.inl rfl)⟩
  · rw [snapTick_eq hphase hdue hpb hwaves hv]
    refine ⟨finishSlot_spot ?_, fun hbusy => ?_, fun hfree hunfired => ?_⟩
    · subst hv
      refine ite_keeps (fun t : State => t.cw.pa) (wrS_pa ..) ?_
      rw [wrS_pa, snapFire_cw]
    · rw [finishSlot_arch, if_pos (by simpa using hbusy)]
    · rw [finishSlot_arch, if_neg (by simp [hfree, hunfired])]
  · exact congrArg Host.Outcome.next (if_pos hdue)
  · exact congrArg Host.Outcome.next (if_neg (by simp [hdue]))
  · exact congrArg Host.Outcome.next (if_neg (by simp [hfree]))
  · obtain ⟨hbad, hgood⟩ := streamEnable_cases hx hn hen hready
    exact ⟨hbad, hgood, congrArg Host.Outcome.next (if_neg (by simp [hx, hen]))⟩
  · exact congrArg Host.Outcome.next (if_pos hen)
  · exact congrArg Host.Outcome.next (if_pos hlock)
  · exact congrArg Host.Outcome.next (if_neg (by simp [hlock]))

/-! ## Tasks (13 R319-R326; 18 R378-R382): a future listed under another number than its own -/

/-- A future whose number is 7, and whose page the pager has settled. -/
def futureSeven : Wave :=
  { Wave.free with uid := 7, resid := .future, pa := { PathSt.absent with phase := .parked (.slotMiss 0 0) } }

/-- The reset state with that future listed under number 5. -/
def futureSevenAtFive : State := { State.reset with waves := [(5, futureSeven)] }

/-- Does a step go on to a state without a wave of a number? -/
def Res.loses (uid : Nat) : Res → Bool
  | .next u => (u.waveOf uid).isNone
  | _ => false

/-- The resumed future is no more found under the number it was listed under. -/
theorem futureResume_loses : Res.loses 5 (exec (.futureResume 5 0) futureSevenAtFive) = true := by decide +kernel

/-- Refutes O54: the clause of FUTURE_RESUME is over all states, also those that list a wave under another number than its own, which
no run reaches. The future at 5 comes into focus as wave 7 to become ready, and no wave is found under 5 any more. -/
theorem not_tasksRun : ¬ Obligations.TasksRun := by
  intro h
  obtain ⟨-, -, -, -, -, -, -, -, hresume⟩ := h futureSevenAtFive _ rfl rfl rfl
  obtain ⟨u, w, hexec, hwave, -⟩ := hresume 5 0 futureSeven rfl (by decide +kernel) (by decide) (by decide +kernel) rfl rfl
  have hlost := futureResume_loses
  rw [hexec] at hlost
  simp [Res.loses, hwave] at hlost

end Sys2Proof.Machine

namespace Sys2Proof.Machine

open Sys2Proof (SMap SMap.get? SMap.set SMap.getD)

/-! # The fabric (19 R387-R411) -/

/-! ## Stations (19 R388, R410) -/

theorem exec_stationStateChange (k : Nat) (up : Bool) (s : State) :
    exec (.stationStateChange k up) s = execStationStateChange k up s := rfl

theorem bit_eq_testBit (w i : Nat) : bit w i = w.testBit i := by
  simp [bit, fld, Nat.testBit_eq_decide_div_mod_eq, Bool.beq_eq_decide_eq]

theorem testBit_fld (w lo n i : Nat) : (fld w lo n).testBit i = (decide (i < n) && w.testBit (lo + i)) := by
  simp [fld, Nat.testBit_mod_two_pow, Nat.testBit_div_two_pow, Nat.add_comm]

theorem fld_lt (w lo n : Nat) : fld w lo n < 2 ^ n := Nat.mod_lt _ (Nat.two_pow_pos n)

/-- A field differs from 0 just where one of its bits is set. -/
theorem fld_ne_zero_iff {w lo n : Nat} : fld w lo n ≠ 0 ↔ ∃ j, lo ≤ j ∧ j < lo + n ∧ w.testBit j = true := by
  constructor
  · intro h
    obtain ⟨i, hi⟩ := Nat.exists_testBit_of_ne_zero h
    rw [testBit_fld, Bool.and_eq_true, decide_eq_true_eq] at hi
    exact ⟨lo + i, by omega, by omega, hi.2⟩
  · rintro ⟨j, hlo, hhi, hj⟩ h
    have hbit := testBit_fld w lo n (j - lo)
    rw [h, Nat.zero_testBit, Nat.add_sub_cancel' hlo, hj, decide_eq_true (by omega)] at hbit
    simp at hbit

/-- The bits of the stations that are up, after station `k` of those in `old` has changed. -/
def stationMask (old k : Nat) (up : Bool) : Nat := if up then Nat.lor old (2 ^ k) else Nat.land old (2 ^ 32 - 1 - 2 ^ k)

/-- The word of the stations: under each plane's bit whether one of its 16 stations is up (19 R388). -/
def stationWord (m : Nat) : Nat := m + 2 ^ 32 * (decide (fld m 0 16 ≠ 0)).toNat + 2 ^ 33 * (decide (fld m 16 16 ≠ 0)).toNat

/-- A station's change rewrites the word of the stations, and nothing else. -/
theorem exec_station_lt {k : Nat} (up : Bool) (s : State) (h : k < 32) : exec (.stationStateChange k up) s =
    .next (s.setBar (barFab + 8) (stationWord (stationMask (fld (s.barWord (barFab + 8)) 0 32) k up))) := by
  rw [exec_stationStateChange, execStationStateChange, if_neg (Nat.not_le.2 h)]
  rfl

theorem testBit_stationMask (old : Nat) (up : Bool) {k j : Nat} (hk : k < 32) (hj : j < 32) :
    (stationMask old k up).testBit j = if j = k then up else old.testBit j := by
  have hpow : 2 ^ k < 2 ^ 32 := Nat.pow_lt_pow_right (by decide) hk
  have hinv : 2 ^ 32 - 1 - 2 ^ k = 2 ^ 32 - (2 ^ k + 1) := by omega
  cases up
  · change (old &&& (2 ^ 32 - 1 - 2 ^ k)).testBit j = _
    rw [Nat.testBit_and, hinv, Nat.testBit_two_pow_sub_succ hpow, Nat.testBit_two_pow]
    by_cases h : j = k
    · simp [h]
    · simp [h, Ne.symm h, hj]
  · change (old ||| 2 ^ k).testBit j = _
    rw [Nat.testBit_or, Nat.testBit_two_pow]
    by_cases h : j = k
    · simp [h]
    · simp [h, Ne.symm h]

theorem stationMask_lt {old k : Nat} (up : Bool) (hold : old < 2 ^ 32) (hk : k < 32) : stationMask old k up < 2 ^ 32 := by
  cases up
  · exact Nat.lt_of_le_of_lt Nat.and_le_left hold
  · exact Nat.or_lt_two_pow hold (Nat.pow_lt_pow_right (by decide) hk)

theorem stationWord_eq (m : Nat) :
    stationWord m = 2 ^ 32 * ((decide (fld m 0 16 ≠ 0)).toNat + 2 * (decide (fld m 16 16 ≠ 0)).toNat) + m := by
  unfold stationWord
  omega

theorem stationWord_lt {m : Nat} (hm : m < 2 ^ 32) : stationWord m < 2 ^ 64 := by
  have h0 := Bool.toNat_le (decide (fld m 0 16 ≠ 0))
  have h1 := Bool.toNat_le (decide (fld m 16 16 ≠ 0))
  rw [stationWord_eq]
  omega

theorem testBit_stationWord {m j : Nat} (hm : m < 2 ^ 32) (hj : j < 32) : (stationWord m).testBit j = m.testBit j := by
  rw [stationWord_eq, Nat.testBit_two_pow_mul_add _ hm, if_pos hj]

/-- The planes' bits stand above the stations'. -/
theorem testBit_stationWord_planes {m : Nat} (hm : m < 2 ^ 32) :
    (stationWord m).testBit 32 = decide (fld m 0 16 ≠ 0) ∧ (stationWord m).testBit 33 = decide (fld m 16 16 ≠ 0) := by
  rw [stationWord_eq, Nat.testBit_two_pow_mul_add _ hm, Nat.testBit_two_pow_mul_add _ hm, if_neg (by decide), if_neg (by decide)]
  cases decide (fld m 0 16 ≠ 0) <;> cases decide (fld m 16 16 ≠ 0) <;> decide

/-- A plane of the word of the stations is up just where one of its stations is. -/
theorem testBit_stationWord_plane_iff {m : Nat} (hm : m < 2 ^ 32) :
    ((stationWord m).testBit 32 = true ↔ ∃ j, j < 16 ∧ (stationWord m).testBit j = true) ∧
    ((stationWord m).testBit 33 = true ↔ ∃ j, 16 ≤ j ∧ j < 32 ∧ (stationWord m).testBit j = true) := by
  obtain ⟨hlow, hhigh⟩ := testBit_stationWord_planes hm
  rw [hlow, hhigh, decide_eq_true_eq, decide_eq_true_eq, fld_ne_zero_iff, fld_ne_zero_iff]
  constructor
  · exact exists_congr fun j => ⟨fun ⟨_, hj, h⟩ => ⟨by omega, (testBit_stationWord hm (by omega)).trans h⟩,
      fun ⟨hj, h⟩ => ⟨Nat.zero_le j, by omega, (testBit_stationWord hm (by omega)).symm.trans h⟩⟩
  · exact exists_congr fun j => ⟨fun ⟨hlo, hj, h⟩ => ⟨hlo, by omega, (testBit_stationWord hm (by omega)).trans h⟩,
      fun ⟨hlo, hj, h⟩ => ⟨hlo, by omega, (testBit_stationWord hm (by omega)).symm.trans h⟩⟩

/-- What a station's change does to the word of the stations. -/
theorem station_changes {k : Nat} (up : Bool) (s : State) (hk : k < 32) :
    ∃ t, exec (.stationStateChange k up) s = .next t ∧ t = { s with bar := t.bar } ∧ bit (t.barWord (barFab + 8)) k = up ∧
      (∀ j, j < 32 → j ≠ k → bit (t.barWord (barFab + 8)) j = bit (s.barWord (barFab + 8)) j) ∧
      (bit (t.barWord (barFab + 8)) 32 = true ↔ ∃ j, j < 16 ∧ bit (t.barWord (barFab + 8)) j = true) ∧
      (bit (t.barWord (barFab + 8)) 33 = true ↔ ∃ j, 16 ≤ j ∧ j < 32 ∧ bit (t.barWord (barFab + 8)) j = true) := by
  have hmask := stationMask_lt up (fld_lt (s.barWord (barFab + 8)) 0 32) hk
  have hstation : ∀ j, j < 32 → (stationWord (stationMask (fld (s.barWord (barFab + 8)) 0 32) k up)).testBit j =
      if j = k then up else (s.barWord (barFab + 8)).testBit j := fun j hj => by
    rw [testBit_stationWord hmask hj, testBit_stationMask _ up hk hj, testBit_fld, Nat.zero_add, decide_eq_true hj, Bool.true_and]
  refine ⟨_, exec_station_lt up s hk, rfl, ?_⟩
  simp only [barWord_setBar_self, Nat.mod_eq_of_lt (stationWord_lt hmask), bit_eq_testBit]
  exact ⟨by rw [hstation k hk, if_pos rfl], fun j hj hne => by rw [hstation j hj, if_neg hne], testBit_stationWord_plane_iff hmask⟩

/-! ## Packets, requests and refusals (19 R391, R393-R395, R398, R399, R409, R410) -/

theorem exec_fabricPacketReceive (incarn src seq kind gid addr n data : Nat) (s : State) :
    exec (.fabricPacketReceive incarn src seq kind gid addr n data) s =
      execFabricPacketReceive incarn src seq kind gid addr n data s := rfl
theorem exec_fabricResend (id : Nat) (s : State) : exec (.fabricResend id) s = execFabricResend id s := rfl
theorem exec_keepWaitingNotice (id : Nat) (s : State) : exec (.keepWaitingNotice id) s = execKeepWaitingNotice id s := rfl
theorem exec_remoteTimeout (id : Nat) (s : State) : exec (.remoteTimeout id) s = execRemoteTimeout id s := rfl

/-- A packet of this incarnation: a second copy is counted, and one that is new acts (19 R393, R395). -/
theorem packet_received {incarn : Nat} (src seq kind gid addr n data : Nat) {s : State}
    (hincarn : incarn = fld (s.barWord barFab) 16 16) :
    ((SMap.get? s.seqSeen (src * 2 ^ 64 + seq)).isSome = true →
      exec (.fabricPacketReceive incarn src seq kind gid addr n data) s = .next (s.fabCount (barFab + 0x10) true)) ∧
    (SMap.get? s.seqSeen (src * 2 ^ 64 + seq) = none →
      exec (.fabricPacketReceive incarn src seq kind gid addr n data) s =
        .next ({ s with seqSeen := SMap.set s.seqSeen (src * 2 ^ 64 + seq) () }.packet src seq kind gid addr n data)) := by
  rw [exec_fabricPacketReceive, execFabricPacketReceive, if_neg fun hforeign => hforeign hincarn]
  exact ⟨fun hseen => by rw [if_pos hseen], fun hnew => by rw [if_neg (by rw [hnew]; exact Bool.false_ne_true)]⟩

theorem remote_id {s : State} {id : Nat} {a : Access} (h : s.remote id = some a) : a.id = id := by
  have hsel := List.find?_some h
  simp only [Bool.and_eq_true, beq_iff_eq] at hsel
  exact hsel.1.1

theorem mates_of_one_piece (s : State) {a : Access} {p : Piece} (hp : a.pieces = [p]) : s.mates a 0 = [0] := by
  simp [State.mates, hp, List.range_succ]

theorem modPiece_of_one {s : State} {a : Access} {p : Piece} (haccs : s.accs = [a]) (hp : a.pieces = [p]) (f : Piece → Piece) :
    s.modPiece a.id 0 f = { s with accs := [{ a with pieces := [f p] }] } := by
  simp [State.modPiece, haccs, hp]

/-- The node's refusal of an access of one piece is a fault of that piece (19 R391). -/
theorem refuse_one_piece {s : State} {id : Nat} {a : Access} {p : Piece} (haccs : s.accs = [a]) (hremote : s.remote id = some a)
    (hspace : a.space = 5) (hp : a.pieces = [p]) (hopen : p.settled = false) (code : Nat) :
    s.refuse code id 0 = State.settle { s with accs := [{ a with pieces :=
      [{ p with miss := false, fault := some ⟨code, p.addr, a.word, 0⟩ }] }] } id := by
  obtain rfl := remote_id hremote
  rw [State.refuse, hremote]
  simp only [hspace, ne_eq, not_true_eq_false, if_false, mates_of_one_piece s hp, List.foldl_cons, List.foldl_nil,
    modPiece_of_one haccs hp, hopen, Bool.false_eq_true]

/-- A request that nobody waits for is not sent again, and a notice for it is counted all the same. -/
theorem request_over {s : State} {id : Nat} (h : s.request id = none) : exec (.fabricResend id) s = .next s ∧
    exec (.keepWaitingNotice id) s = .next (s.fabCount (barFab + 0x20) false) := by
  rw [exec_fabricResend, execFabricResend, exec_keepWaitingNotice, execKeepWaitingNotice, h]
  exact ⟨rfl, rfl⟩

/-- An outstanding request is heard of by a notice, and sent again 32 microseconds after it was heard of last. -/
theorem request_outstanding {s : State} {id t : Nat} (h : s.request id = some t) :
    exec (.keepWaitingNotice id) s = .next ((s.hear id).fabCount (barFab + 0x20) false) ∧
    (t + 3200 ≤ s.ref → exec (.fabricResend id) s = .next ((s.hear id).fabCount (barFab + 0x18) false)) ∧
    (s.ref < t + 3200 → exec (.fabricResend id) s = .next s) := by
  rw [exec_fabricResend, execFabricResend, exec_keepWaitingNotice, execKeepWaitingNotice, h]
  exact ⟨rfl, fun hdue => congrArg Host.Outcome.next (if_pos hdue), fun hearly => congrArg Host.Outcome.next (if_neg (by omega))⟩

/-! ## Time-outs (19 R399) -/

theorem remoteTimeout_early {s : State} {id : Nat} {a : Access} (hremote : s.remote id = some a) (h : s.ref < a.since + 200000) :
    exec (.remoteTimeout id) s = .next s := by
  rw [exec_remoteTimeout, execRemoteTimeout, hremote]
  exact congrArg Host.Outcome.next (if_neg (by omega))

theorem remoteTimeout_due {s : State} {id : Nat} {a : Access} {p : Piece} (hremote : s.remote id = some a)
    (h : a.since + 200000 ≤ s.ref) (hp : a.pieces = [p]) :
    exec (.remoteTimeout id) s = .next (((s.timeOutPiece a 0).settle id).fabCount (barFab + 0x18) true) := by
  rw [exec_remoteTimeout, execRemoteTimeout, hremote]
  simp [h, hp, List.range_succ]

/-- The time-out of the one piece of an access that stores nothing is its fault, and only a choice is drawn beside it. -/
theorem timeOutPiece_of_one {s : State} {a : Access} {p : Piece} (haccs : s.accs = [a]) (hp : a.pieces = [p])
    (hloads : a.kind.stores = false) (hopen : p.settled = false) :
    s.timeOutPiece a 0 = { s.draw.2 with accs := [{ a with pieces :=
      [{ p with done := false, result := [], miss := false, fault := some ⟨0x2A, s.faultAddr a p, a.word, 0⟩ }] }] } := by
  simp only [State.timeOutPiece, hp, List.getElem?_cons_zero, hopen, hloads, Bool.false_and, Bool.false_eq_true, if_false]
  exact modPiece_of_one (s := s.draw.2) haccs hp _

/-! ## Departures (17 R357; 19 R405, R406) -/

theorem exec_departureNotice (gid : Nat) (ranks : List Nat) (s : State) :
    exec (.departureNotice gid ranks) s = execDepartureNotice gid ranks s := rfl

theorem mem_insertNat {x y : Nat} {l : List Nat} : x ∈ insertNat y l ↔ x = y ∨ x ∈ l := by
  induction l with
  | nil => simp [insertNat]
  | cons z t ih =>
    unfold insertNat
    split
    · simp
    · split
      · next _ h => simp [h]
      · rw [List.mem_cons, ih, List.mem_cons, or_left_comm]

theorem mem_foldl_insertNat {x : Nat} {ys l : List Nat} : x ∈ ys.foldl (fun l y => insertNat y l) l ↔ x ∈ l ∨ x ∈ ys := by
  induction ys generalizing l with
  | nil => simp
  | cons y t ih => rw [List.foldl_cons, ih, mem_insertNat, List.mem_cons, or_comm (a := x = y), or_assoc]

/-- The ranks of the packages that some ranks belong to: those, and every rank of the gang that shares a package with one (19 R406). -/
theorem mem_withPackages {g : Gang} {ranks : List Nat} {r : Nat} : r ∈ g.withPackages ranks ↔
    r ∈ ranks ∨ (r < g.size ∧ 0 < g.blocks ∧ ∃ x ∈ ranks, x / g.blocks = r / g.blocks) := by
  simp [Gang.withPackages]

theorem get?_map {α β : Type} (m : SMap α) (f : α → β) (k : Nat) :
    SMap.get? (m.map fun x => (x.1, f x.2)) k = (SMap.get? m k).map f := by
  induction m with
  | nil => rfl
  | cons x t ih =>
    obtain ⟨a, b⟩ := x
    simp only [List.map_cons, SMap.get?]
    split
    · rfl
    · exact ih

theorem gangOf_modGang_self (s : State) (gid : Nat) (f : Gang → Gang) : (s.modGang gid f).gangOf gid = f (s.gangOf gid) :=
  getD_set_self ..

/-- A gang that has noted the loss of packages that hold ranks of it. -/
def Gang.noteLost (pkgs : List Nat) (g : Gang) : Gang :=
  { g with noted := (pkgs.filter fun p => g.owners.any fun o => o.2 == p).foldl (fun l p => insertNat p l) g.noted }

theorem loseSlots_gangs (s : State) (pkgs : List Nat) :
    (s.loseSlots pkgs).gangs = s.gangs.map fun x => (x.1, x.2.noteLost pkgs) := rfl

/-- The loss of slots is noted beside a gang's departed ranks, and leaves these. -/
theorem loseSlots_departed (s : State) (pkgs : List Nat) (gid : Nat) :
    ((s.loseSlots pkgs).gangOf gid).departed = (s.gangOf gid).departed := by
  rw [State.gangOf, State.gangOf, loseSlots_gangs, SMap.getD, SMap.getD, get?_map]
  cases SMap.get? s.gangs gid <;> rfl

theorem with_accs_nil {s : State} (h : s.accs = []) : { s with accs := [] } = s := by rw [← h]

/-- A departure without accesses outstanding, of a gang that does not hold the turn, marks ranks and slots and is counted. -/
theorem exec_departure_quiet {s : State} {gid : Nat} (ranks : List Nat) (haccs : s.accs = []) (hturn : (s.gangOf gid).turn = false) :
    exec (.departureNotice gid ranks) s = .next (((s.modGang gid fun g => { g with
      departed := ((s.gangOf gid).withPackages ranks).foldl (fun l r => insertNat r l) g.departed }).loseSlots
        (s.newlyLost gid ((s.gangOf gid).withPackages ranks))).fabCount (barFab + 0x20) true) := by
  have hnone : ∀ (f : Gang → Gang) (ps : List Nat), (((s.modGang gid f).loseSlots ps).fabCount (barFab + 0x20) true).accs = [] :=
    fun _ _ => haccs
  rw [exec_departureNotice, execDepartureNotice]
  simp only [hturn, Bool.false_eq_true, if_false, hnone, List.map_nil, List.filter_nil, List.foldl_nil]
  exact congrArg Host.Outcome.next (with_accs_nil (hnone _ _))

/-- Settles O60: each event by what it finds, a station's word, a packet's number, a request or an access, and the ranks of a
departure by those of their packages. -/
theorem fabricActs : Obligations.FabricActs := by
  intro s
  refine ⟨fun _ _ => rfl, fun k up hk => congrArg Host.Outcome.next (if_pos hk), fun k up hk => station_changes up s hk, fun _ => rfl,
    fun incarn src seq kind gid addr n data => ⟨fun hforeign => congrArg Host.Outcome.next (if_pos hforeign), fun hincarn => ?_⟩,
    fun id a k p haccs hremote hspace hk hopen hone code => ?_,
    fun id => ⟨request_over, fun t => request_outstanding, fun a => remoteTimeout_early,
      fun a p haccs hremote hdue hp hloads hopen => ?_⟩,
    fun gid ranks haccs hturn => ⟨_, exec_departure_quiet ranks haccs hturn, rfl, rfl, fun r => ?_⟩⟩
  · obtain ⟨hseen, hnew⟩ := packet_received src seq kind gid addr n data hincarn
    refine ⟨hseen, ?_⟩
    rintro hnone _ rfl
    exact hnew hnone
  · obtain ⟨q, hq⟩ := List.length_eq_one_iff.1 hone
    obtain ⟨rfl, rfl⟩ : k = 0 ∧ q = p := by simpa [hq, List.getElem?_singleton] using hk
    exact refuse_one_piece haccs hremote hspace hq hopen code
  · rw [timeOutPiece_of_one haccs hp hloads hopen]
    exact ⟨by rw [remoteTimeout_due hremote hdue hp, timeOutPiece_of_one haccs hp hloads hopen], rfl, rfl⟩
  · change r ∈ ((State.loseSlots _ _).gangOf gid).departed ↔ _
    rw [loseSlots_departed, gangOf_modGang_self, mem_foldl_insertNat, mem_withPackages]

end Sys2Proof.Machine

namespace Sys2Proof.Machine

open Sys2Proof (Instr instrOf IF BF RF)

/-! # The powered machine goes on, and what reset leaves (20 R418, R431) -/

/-- The answer is a next state: neither a fault nor a refusal. -/
def GoesOn (r : Res) : Prop := ∃ t, r = .next t

theorem goesOn_next (t : State) : GoesOn (.next t) := ⟨t, rfl⟩

/-! ## The instructions whose meaning chooses between several answers -/

theorem execSldk_goesOn (f : IF) (s : State) : GoesOn (execSldk f s) :=
  ite_holds (goesOn_next _) (ite_holds (goesOn_next _) (goesOn_next _))

theorem execCall_goesOn (f : BF) (s : State) : GoesOn (execCall f s) :=
  ite_holds (goesOn_next _) (ite_holds (goesOn_next _) (goesOn_next _))

theorem execRet_goesOn (f : BF) (s : State) : GoesOn (execRet f s) := by
  refine ite_holds (goesOn_next _) ?_
  cases s.cw.links with
  | nil => exact goesOn_next _
  | cons link rest => exact goesOn_next _

theorem execPpush_goesOn (f : RF) (s : State) : GoesOn (execPpush f s) := ite_holds (goesOn_next _) (goesOn_next _)

theorem execPinv_goesOn (f : RF) (s : State) : GoesOn (execPinv f s) := by
  rw [execPinv]
  cases s.cw.pa.stack with
  | nil => exact goesOn_next _
  | cons e rest => exact ite_holds (goesOn_next _) (goesOn_next _)

theorem execPpop_goesOn (f : RF) (s : State) : GoesOn (execPpop f s) :=
  ite_holds (goesOn_next _) (ite_holds (goesOn_next _) (goesOn_next _))

theorem execVpk_goesOn (f : RF) (s : State) : GoesOn (execVpk f s) := ite_holds (goesOn_next _) (goesOn_next _)

theorem execVupk_goesOn (f : RF) (s : State) : GoesOn (execVupk f s) := ite_holds (goesOn_next _) (goesOn_next _)

/-- Every instruction and event answers a next state; all but the eight above are one next state by definition. -/
theorem exec_goesOn (i : Instr) (s : State) : GoesOn (exec i s) := by
  cases i with
  | sldk f => exact execSldk_goesOn f s
  | call f => exact execCall_goesOn f s
  | ret f => exact execRet_goesOn f s
  | ppush f => exact execPpush_goesOn f s
  | pinv f => exact execPinv_goesOn f s
  | ppop f => exact execPpop_goesOn f s
  | vpk f => exact execVpk_goesOn f s
  | vupk f => exact execVupk_goesOn f s
  | _ => exact goesOn_next _

/-! ## Turns and steps -/

theorem issueTurn_goesOn (uid : Nat) (second : Bool) (s : State) : GoesOn (issueTurn uid second s) := by
  rw [issueTurn]
  cases (s.focus uid second).issueCheck with
  | stop t => exact goesOn_next t
  | run op f t =>
    dsimp only
    cases instrOf op f with
    | none => exact goesOn_next t
    | some i => exact exec_goesOn i t

/-- Both paths of a fork answer, so their one turn does (04 R104). -/
theorem bothTurn_goesOn (uid : Nat) (s : State) : GoesOn (bothTurn uid s) := by
  obtain ⟨t, ht⟩ := issueTurn_goesOn uid false s
  rw [bothTurn, ht]
  refine ite_holds ?_ (issueTurn_goesOn uid true t)
  obtain ⟨u, hu⟩ := issueTurn_goesOn uid true (s.bothMid t uid)
  rw [hu]
  exact goesOn_next _

theorem runTurn_goesOn (t : Turn) (s : State) : GoesOn (runTurn t s) := by
  cases t with
  | event i => exact ite_holds (exec_goesOn i s) (goesOn_next s)
  | issue uid second => exact issueTurn_goesOn uid second s
  | both uid => exact bothTurn_goesOn uid s
  | _ => exact goesOn_next _

theorem settled_goesOn {r : Res} (h : GoesOn r) : GoesOn (settled r) := by
  obtain ⟨t, rfl⟩ := h
  exact goesOn_next _

/-- A step takes its turn where power is on or comes on, and settles it. -/
theorem step_cons {s : State} {t : Turn} {rest : List Turn} (h : s.agenda = t :: rest) :
    step s = if s.powered || t.isPowerOn then settled (runTurn t { s with agenda := rest }) else .fault .powerRemoved := by
  rw [step, h]

theorem step_nil {s : State} (h : s.agenda = []) :
    step s = if s.powered then settled (runTurn s.autoTurn s) else .fault .powerRemoved := by
  rw [step, h]

theorem step_goesOn {s : State} (hpower : s.powered = true) : GoesOn (step s) := by
  cases hagenda : s.agenda with
  | nil =>
    rw [step_nil hagenda, if_pos hpower]
    exact settled_goesOn (runTurn_goesOn _ _)
  | cons t rest =>
    rw [step_cons hagenda, hpower]
    exact settled_goesOn (runTurn_goesOn _ _)

theorem isPowerOn_iff (t : Turn) : t.isPowerOn = true ↔ t = .event (.moduleReset true) := by
  refine ⟨fun h => ?_, fun h => h ▸ rfl⟩
  unfold Turn.isPowerOn at h
  split at h
  · rw [h]
  · cases h

/-- With power off, power-on alone is no fault (20 R431; log 51). -/
theorem step_unpowered {s : State} (hpower : s.powered = false) (h : ∀ rest, s.agenda ≠ .event (.moduleReset true) :: rest) :
    step s = .fault .powerRemoved := by
  cases hagenda : s.agenda with
  | nil => rw [step_nil hagenda, if_neg (by simp [hpower])]
  | cons t rest =>
    have hturn : ¬t.isPowerOn = true := fun ht => h rest (by rw [hagenda, (isPowerOn_iff t).1 ht])
    rw [step_cons hagenda, if_neg (by simp [hpower, hturn])]

/-- After power-on nothing waits to be settled: no packet, dependence, wave, fence or request is left. -/
theorem settleTurn_powerOn (s : State) : (s.moduleReset true).settleTurn = s.moduleReset true := rfl

theorem step_powerOn {s : State} {rest : List Turn} (h : s.agenda = .event (.moduleReset true) :: rest) :
    step s = .next (({ s with agenda := rest }).moduleReset true) := by
  rw [step_cons h, if_pos (by simp [Turn.isPowerOn])]
  exact congrArg Host.Outcome.next (settleTurn_powerOn _)

/-- Settles O8: every instruction, turn and step answers a next state; power-on is the one turn of the unpowered machine. -/
theorem poweredStepGoesOn : Obligations.PoweredStepGoesOn :=
  fun _ => ⟨step_goesOn, step_unpowered, fun _ hagenda => ⟨_, step_powerOn hagenda, rfl⟩⟩

/-! ## Reset -/

/-- Settles O10: the values of the reset state's fields; a byte, a queue or a register that is not listed reads as its reset value. -/
theorem resetState : Obligations.ResetState :=
  ⟨reset_memWf, rfl, rfl, rfl, rfl, rfl, rfl, rfl, rfl, rfl, rfl, rfl, fun _ => rfl, fun _ => rfl, fun _ => rfl, rfl, rfl⟩

end Sys2Proof.Machine

namespace Sys2Proof.Machine

open Sys2Proof (SMap SMap.get? SMap.getD)

/-! # The mailbox (20 R425): a response that is longer than RLEN holds -/

/-- MBSTAT after a command: BUSY 0, its RESULT, the length of its response and the tag of before, as one sum. -/
theorem mailboxComplete_mbStat {s t : State} {op len : Nat} {spoiled : Bool} (hcmd : s.mbCmd = some (op, len, spoiled))
    (hexec : exec .mailboxComplete s = .next t) :
    t.barWord barMbStat = (256 * (s.stewardBoot.mbRun op len).2.1 + 65536 * (s.stewardBoot.mbRun op len).2.2.length +
      2 ^ 32 * fld ((s.stewardBoot.mbRun op len).1.barWord barMbStat) 32 32) % 2 ^ 64 := by
  rw [show exec .mailboxComplete s = execMailboxComplete s from rfl, execMailboxComplete, hcmd] at hexec
  obtain rfl := Host.Outcome.next.inj hexec
  exact ite_keeps (fun u => u.barWord barMbStat) (barWord_setBar_self _ _ _) (barWord_setBar_self _ _ _)

theorem stewardBoot_of_up {s : State} (h : s.fw.up = true) : s.stewardBoot = s := if_pos h

/-- A booted steward with a MEASURE to answer and 65,536 bytes in register 0, where reset and every extension leave 64 (20 R428). -/
def longMeasure : State :=
  { State.reset with
    mbCmd := some (0x0020, 0, false), meas := [(0, List.replicate 65536 0#8)], fw := { State.reset.fw with up := true } }

theorem longMeasure_length (i : Nat) : (longMeasure.measure i).length = if i = 0 then 65536 else 64 := by
  rw [State.measure, SMap.getD]
  by_cases hi : i = 0
  · subst hi
    exact List.length_replicate
  · rw [if_neg hi, show SMap.get? longMeasure.meas i = none from if_neg hi]
    exact List.length_replicate

theorem longMeasure_response : (longMeasure.mbRun 0x0020 0).2.2.length = 65984 := by
  change ((List.range 8).flatMap longMeasure.measure).length = 65984
  rw [List.length_flatMap, funext longMeasure_length]
  decide

/-- The length of the response has a bit beyond RLEN, which stands in RTAG. -/
theorem longMeasure_rtag {t : State} (hexec : exec .mailboxComplete longMeasure = .next t) :
    fld (t.barWord barMbStat) 32 32 = 1 := by
  rw [mailboxComplete_mbStat rfl hexec, stewardBoot_of_up rfl, longMeasure_response]
  decide

/-- Refutes O59: the clause that MAILBOX_COMPLETE keeps RTAG is over all states, and a MEASURE of `longMeasure` changes RTAG from 0
to 1. Reset and every extension leave 64 bytes in a measurement register, but the statement asks for that only where it gives RLEN. -/
theorem not_administrationActs : ¬ Obligations.AdministrationActs := by
  intro h
  obtain ⟨-, -, -, -, -, -, -, -, -, -, -, -, -, hcomplete, -⟩ := h longMeasure
  obtain ⟨t, hexec, -, -, hrtag, -⟩ := hcomplete 0x0020 0 false [] rfl rfl
  rw [longMeasure_rtag hexec] at hrtag
  exact absurd hrtag (by decide)

end Sys2Proof.Machine
